-- ==== Sys2Proof/Word.lean ====
section
/-! DEFINITION. The word types of the model (R5, R6): bytes, 32-bit words and their plainest arithmetic. -/

namespace Sys2Proof

/-- A byte. -/
abbrev Byte := BitVec 8

/-- A word of registers, messages and structures is 32 bits (R6). -/
abbrev Word := BitVec 32

/-- A byte string, lowest address first. -/
abbrev Bytes := List Byte

end Sys2Proof
end

