-- ==== Sys2Proof/Syntax.lean ====
section
/-! DEFINITION. The commands of the block: one constructor of `Instr` for each row of spec/opcode_table.json,
with the operand types they take. -/

namespace Sys2Proof

/-- The two wings, Stage Left and Stage Right (R19). -/
inductive Wing where
  | sl | sr
deriving DecidableEq, Repr

/-- The control cores: CC-L serves SL and CC-R serves SR in normal service (R39). -/
inductive CoreId where
  | l | r
deriving DecidableEq, Repr

/-- The three supplies (R412). -/
inductive Supply where
  | vddc | vddv | vddh
deriving DecidableEq, Repr

/-- The four channels of a stream port (R50). -/
inductive StreamChan where
  | hsI | lsI | hsO | lsO
deriving DecidableEq, Repr

/-- A clocked port whose own reset or clock is meant (R47, R48): a side of a stream port, a request or memory port, the
time-of-day inputs of a wing (R72), the control port (R71), the test access port with TRST_N (R78). -/
inductive PortSide where
  | hs (p : Fin 64) | ls (p : Fin 64) | rqp (q : Fin 4) | mp (m : Fin 4) | tod (w : Wing) | cp | tap
deriving DecidableEq, Repr

/-- Who makes a control port access (R70): master ID and world. -/
structure CpAcc where
  mid : BitVec 8
  world : Bool
deriving DecidableEq, Repr

/-- A frame as it arrives on HS_I: declared LEN, the bytes of the beats taken, whether the last beat taken
carried EOF, and the sideband of the SOF beat (R50, R51). A frame without EOF and with fewer beats than LEN
implies was cut by a new SOF (R59). -/
structure HsFrame where
  len : BitVec 14
  data : Bytes
  eof : Bool
  sai : BitVec 20
  cls : BitVec 2
  curtain : Bool
  ltime : Option (BitVec 64)
deriving DecidableEq, Repr

/-- A frame as it arrives on LS_I, with SPn_LS_I_ERR of its EOF beat (R57). -/
structure LsFrame where
  len : BitVec 14
  data : Bytes
  eof : Bool
  err : Bool
deriving DecidableEq, Repr

/-- The A channel fields of a request (R60). -/
structure AReq where
  addr : BitVec 40
  op : BitVec 2
  len : BitVec 2
  mid : BitVec 8
  world : Bool
  kix : BitVec 12
  cls : BitVec 2
  curtain : BitVec 2
  tid : BitVec 7
deriving DecidableEq, Repr

/-- A response beat on MPn D (R65). -/
structure MpBeat where
  did : BitVec 8
  write : Bool
  err : Bool
  last : Bool
  data : BitVec 512
  sb : BitVec 64
deriving DecidableEq, Repr

/-- Where a power failure cuts a journal record (R266). -/
inductive JCut where
  | none | beforeCommit | afterCommit
deriving DecidableEq, Repr

/-- A unit that the watchdog, a margin monitor, a close or the march test concerns. -/
inductive UnitId where
  | lane (l : Fin 28)
  | port (p : Fin 64)
  | rqp (q : Fin 4)
  | mp (m : Fin 4)
  | core (c : CoreId)
  | trieBank (w : Wing) (root : Bool) (ix : Nat)
  | boxPath (w : Wing) | mpePath (w : Wing) | ushPath (w : Wing) | dispatcher (w : Wing)
  | bridgeEnd (w : Wing) | vault | vaultPath (w : Wing)
  | sramBank (w : Wing) (ix : Nat)
  | trieStage (w : Wing) (ix : Nat)
  | sa (w : Wing) (sai : Nat)
  | region (r : Fin 64)
  | chan (c : Fin 8)
  | slot (k : Nat)
  | classA (id : Nat)
deriving DecidableEq, Repr

/-- A control entry that parity protects (R36). A trie entry is named by stage, node (the root block at stage 0) and
entry; a rule, default entry or MG_MAP entry by bank and index; a key cell by store (0 Class A, 1 session, 2 memory
slot) and logical index; `ctx` is the context tag of the token at the head of a lane (R28). -/
inductive Ent where
  | trie (w : Wing) (stage node entry : Nat)
  | group (w : Wing) (g m : Nat)
  | box (w : Wing) (slot : Nat)
  | sa (w : Wing) (sai : Nat)
  | rule (w : Wing) (bank : Bool) (ix : Nat)
  | dflt (w : Wing) (bank : Bool) (ix : Nat)
  | mg (w : Wing) (bank : Bool) (mid : Nat)
  | key (w : Wing) (store ix : Nat)
  | region (w : Wing) (r : Nat)
  | mline (w : Wing) (addr : Nat)
  | ctx (l : Fin 28)
deriving DecidableEq, Repr

/-- What a start-up observes: in the vault the outcome of the entropy tests, of one full detection window of each source
0x0 to 0x8 (condition codes of R289) and of the vault known-answer tests (R283); whether FUSE_VPP falls while an EPOCH bit burns,
and how that bit is sensed then (R240, R439); and, sampled as CORE_RST_N is released, the ties MP0_SB_PRESENT to MP3_SB_PRESENT
(R65) and SLP_REQ (R422). -/
structure StartObs where
  entropyOk : Bool
  drbgOk : Bool
  katOk : Bool
  conds : List Nat
  epochCut : Option Bool := none
  slpReq : Bool := false
  sb : List Bool := [true, true, true, true]
deriving DecidableEq, Repr

/-- A time-of-day input at a rising edge of TOD_x_PPS (R72, R73). -/
structure TodIn where
  valid : Bool
  stable : Bool
  sec : BitVec 48
  ns : BitVec 32
  lock : Bool
deriving DecidableEq, Repr

/-- A token on the bridge: a beacon with the sender's link state, or other work (R330). -/
inductive BridgeTok where
  | beacon (link : Nat)
  | work
deriving DecidableEq, Repr

/-- What a replaying wing takes next from its log (R408, R409): a record with its DT, its clear fields and its sealed fields
deciphered, the end of a block with the block's bytes as stored, or the end of the log. -/
inductive ReplayRec where
  | rcd (type dt : Nat) (clear sealed : Bytes)
  | block (b : Bytes)
  | last
deriving DecidableEq, Repr

/-- The commands: the rows of the table of operations and events, in its order. A mailbox row names the channel on
which the serving core executes it: its request stands in that channel's queue (R365). -/
inductive Instr where
  /-- NOP (R374): Mailbox command that does nothing and answers OK. -/
  | nop (ch : Fin 8)
  /-- CURTAIN (R372): Mailbox command that makes visible every staged effect of earlier commands on its channel and completes once every unit concerned uses them. -/
  | curtain (ch : Fin 8)
  /-- INFO (R374): Mailbox command that returns the Script level, Stambe version, DID, context and link states. -/
  | info (ch : Fin 8)
  /-- CHAN_OWN (R368): MBX0 command that sets a channel's owner group and world unless its CHAN_CFG is locked. -/
  | chanOwn (ch : Fin 8)
  /-- CHAN_LOCK (R368): MBX0 command that locks the CHAN_CFG of the named channels until CORE_RST_N. -/
  | chanLock (ch : Fin 8)
  /-- CHAN_MAP (R328): Mailbox command that changes which wing serves each mailbox channel, while both wings are JOINED. -/
  | chanMap (ch : Fin 8)
  /-- EVT_ROUTE (R373): Mailbox command that routes the Green Room, SA and export causes of a wing to channels. -/
  | evtRoute (ch : Fin 8)
  /-- STORE_SET (R122): Mailbox command that installs a wing's SA store region, or the Rehearsal spill region, under WKR-derived keys. -/
  | storeSet (ch : Fin 8)
  /-- STATS_READ (R375): Mailbox command that returns the 48-bit counts of a port, SA, Green Room queue, region, request port or wing. -/
  | statsRead (ch : Fin 8)
  /-- PORT_OPEN (R53): Mailbox command that opens a stream port, after which the engine starts granting credits on HS_I and LS_I. -/
  | portOpen (ch : Fin 8)
  /-- PORT_CLOSE (R344): Mailbox command that closes a stream port under the closing rule and answers at CLOSED. -/
  | portClose (ch : Fin 8)
  /-- PORT_CLS_SET (R84): Mailbox command that stages a port's classification profile PORT_CLS. -/
  | portClsSet (ch : Fin 8)
  /-- PORT_SP_SET (R131): Mailbox command that stages a port's PORT_SP settings (MTU, ordering, hold limit, launch tolerance). -/
  | portSpSet (ch : Fin 8)
  /-- PORT_GET (R374): Mailbox command that returns a port's state, PORT_CLS, PORT_SP and PTP_CFG. -/
  | portGet (ch : Fin 8)
  /-- RQP_OPEN (R374): Mailbox command that opens a request port. -/
  | rqpOpen (ch : Fin 8)
  /-- RQP_CLOSE (R344): Mailbox command that closes a request port under the closing rule and answers at CLOSED. -/
  | rqpClose (ch : Fin 8)
  /-- MP_TIMEOUT (R68): Mailbox command that stages the response time of a memory port. -/
  | mpTimeout (ch : Fin 8)
  /-- CLOSE_TIMEOUT (R144): Mailbox command that stages a wing's SA or region close timeout. -/
  | closeTimeout (ch : Fin 8)
  /-- SA_INSTALL (R120): Mailbox command that checks and stages the installation of an SA record. -/
  | saInstall (ch : Fin 8)
  /-- SA_MODIFY (R121): Mailbox command that stages changes to the mutable fields of an installed SA. -/
  | saModify (ch : Fin 8)
  /-- SA_READ (R119): Mailbox command that returns an SA record. -/
  | saRead (ch : Fin 8)
  /-- SA_SWITCH (R138): Mailbox command that switches an outbound SA to its NEXT_SAI at the next binding. -/
  | saSwitch (ch : Fin 8)
  /-- SA_CLOSE (R144): Mailbox command that closes an SA and answers once it reports CLOSED. -/
  | saClose (ch : Fin 8)
  /-- SA_REMOVE (R139): Mailbox command that removes a CLOSED SA, ending any forwarding to NEXT_SAI. -/
  | saRemove (ch : Fin 8)
  /-- PT_STAGE (R96): Mailbox command that stages the addition or removal of a trie prefix with its policy record. -/
  | ptStage (ch : Fin 8)
  /-- GROUP_SET (R95): Mailbox command that stages the 32 members of an SA group. -/
  | groupSet (ch : Fin 8)
  /-- PT_COMMIT (R97): Mailbox command that builds the staged trie version in the spare bank and answers when the commit is reported complete or fails. -/
  | ptCommit (ch : Fin 8)
  /-- PT_DISCARD (R374): Mailbox command that discards the staged trie changes. -/
  | ptDiscard (ch : Fin 8)
  /-- PT_READ (R97): Mailbox command that reads trie entries of the version in force or of the other version. -/
  | ptRead (ch : Fin 8)
  /-- PT_WRITE_ENTRY (R98): Mailbox command that rewrites one trie entry in the bank in force. -/
  | ptWriteEntry (ch : Fin 8)
  /-- PT_POLICY (R93): Mailbox command that returns a policy record. -/
  | ptPolicy (ch : Fin 8)
  /-- PT_STATUS (R374): Mailbox command that returns a wing's prefix, node and staged-change counts. -/
  | ptStatus (ch : Fin 8)
  /-- MESH_ETYPE (R88): Mailbox command that stages a wing's mesh EtherType. -/
  | meshEtype (ch : Fin 8)
  /-- BOX_INSERT (R105): Mailbox command that inserts or rewrites a Box Office entry through the insertion arbiter. -/
  | boxInsert (ch : Fin 8)
  /-- BOX_UPDATE (R108): Mailbox command that rewrites STATE, SAI, PORT and PORT_LOCK of a Box Office entry in one write. -/
  | boxUpdate (ch : Fin 8)
  /-- BOX_REMOVE (R374): Mailbox command that removes a Box Office entry. -/
  | boxRemove (ch : Fin 8)
  /-- BOX_LOOKUP (R374): Mailbox command that looks up a key and returns its Box Office entry and locator. -/
  | boxLookup (ch : Fin 8)
  /-- BOX_READ_SLOT (R102): Mailbox command that returns the Box Office slot at a locator. -/
  | boxReadSlot (ch : Fin 8)
  /-- BOX_TTL (R107): Mailbox command that stages a wing's UNKEYED_TTL. -/
  | boxTtl (ch : Fin 8)
  /-- GRQ_LIST (R114): Mailbox command that returns descriptors of frames held in a Green Room queue. -/
  | grqList (ch : Fin 8)
  /-- GRQ_READ (R115): Mailbox command that returns bytes of a held frame. -/
  | grqRead (ch : Fin 8)
  /-- GRQ_DROP (R115): Mailbox command that drops a held frame. -/
  | grqDrop (ch : Fin 8)
  /-- GRQ_RELEASE (R115): Mailbox command that releases a held frame to be looked up or admitted again. -/
  | grqRelease (ch : Fin 8)
  /-- GRQ_TIMEOUT (R113): Mailbox command that stages the hold timeout of a Green Room queue. -/
  | grqTimeout (ch : Fin 8)
  /-- CLASS_SET (R153): Mailbox command that stages a wing's CLASS_CFG, reassigning lane roles when visible. -/
  | classSet (ch : Fin 8)
  /-- LANE_STATUS (R152): Mailbox command that returns the role and closing state of every lane. -/
  | laneStatus (ch : Fin 8)
  /-- REGION_INSTALL (R176): Mailbox command that checks and installs a memory region, starting INIT or resuming it. -/
  | regionInstall (ch : Fin 8)
  /-- REGION_READ (R175): Mailbox command that returns a region descriptor. -/
  | regionRead (ch : Fin 8)
  /-- REGION_CLOSE (R211): Mailbox command that closes a region and answers at CLOSED. -/
  | regionClose (ch : Fin 8)
  /-- REGION_REMOVE (R179): Mailbox command that removes a CLOSED region. -/
  | regionRemove (ch : Fin 8)
  /-- REGION_PIN (R190): Mailbox command that sets or clears PIN on a region and answers once the pin fill is applied. -/
  | regionPin (ch : Fin 8)
  /-- MEMSLOT_LOAD (R247): Mailbox command that loads a reference to a Class A key into a memory key slot of both wings. -/
  | memslotLoad (ch : Fin 8)
  /-- USH_RULE (R220): Mailbox command that stages an Usher rule. -/
  | ushRule (ch : Fin 8)
  /-- USH_DEFAULT (R221): Mailbox command that stages an Usher default-map entry. -/
  | ushDefault (ch : Fin 8)
  /-- USH_MGMAP (R216): Mailbox command that stages words of the master group table MG_MAP. -/
  | ushMgmap (ch : Fin 8)
  /-- USH_MODE (R227): Mailbox command that stages service mode or dress mode. -/
  | ushMode (ch : Fin 8)
  /-- USH_COMMIT (R229): Mailbox command that checks the staged Usher set, holds requests, drains and switches banks, answering with the generation or a failure. -/
  | ushCommit (ch : Fin 8)
  /-- USH_READ (R228): Mailbox command that reads a rule, default entry, MG_MAP word or mode from the bank in force or the staging bank. -/
  | ushRead (ch : Fin 8)
  /-- USH_DISCARD (R228): Mailbox command that discards the staging bank's changes. -/
  | ushDiscard (ch : Fin 8)
  /-- DEV_KEYS (R244): Mailbox command that returns the DID, context and transport and attestation public keys. -/
  | devKeys (ch : Fin 8)
  /-- KUM_PART (R374): Mailbox command that gathers words of a KUM on its channel. -/
  | kumPart (ch : Fin 8)
  /-- INSTALL_KEY (R263): KUM action that checks the KUM, unwraps a Class A key, journals its blob and version, and loads it if free. -/
  | installKey (ch : Fin 8) (cut : JCut)
  /-- DESTROY_KEY (R263): KUM action that advances a key ID's version table entry and unloads its cell. -/
  | destroyKey (ch : Fin 8) (cut : JCut)
  /-- OWNER_ROTATE (R263): KUM action that burns the hash of a new owner key into the next OWNER_HASH slot and journals the record. -/
  | ownerRotate (ch : Fin 8) (cut : JCut)
  /-- REINSTATE (R302): KUM action that, after the Iron, commits a record, clears IRON_HELD and derives the WKR again. -/
  | reinstate (ch : Fin 8) (cut : JCut)
  /-- LC_MOVE (R281): KUM action that moves the life-cycle state by burning the next logical LC bit. -/
  | lcMove (ch : Fin 8) (cut : JCut)
  /-- OWNER_ENROL (R259): Mailbox command that burns OWNER_HASH0 in COMMISSIONING. -/
  | ownerEnrol (ch : Fin 8)
  /-- BLOB_LOAD (R258): Mailbox command that checks a Class A blob and loads its key into a free Class A cell. -/
  | blobLoad (ch : Fin 8)
  /-- CLASS_A_UNLOAD (R274): Mailbox command that closes and zeroises a Class A cell. -/
  | classAUnload (ch : Fin 8)
  /-- KEY_GENERATE (R267): Mailbox command that generates a Class B key into a target, optionally returning it wrapped. -/
  | keyGenerate (ch : Fin 8)
  /-- KEY_UNWRAP (R267): Mailbox command that unwraps a Class B key into a target. -/
  | keyUnwrap (ch : Fin 8)
  /-- KEY_DERIVE (R267): Mailbox command that derives a Class B key into a target from a DERIVE key and a context. -/
  | keyDerive (ch : Fin 8)
  /-- MKA_DERIVE (R268): Mailbox command that derives the ICK and KEK from a CAK and CKN into two session entries. -/
  | mkaDerive (ch : Fin 8)
  /-- MKA_ICV (R268): Mailbox command that computes the ICV of an MKPDU under an ICK. -/
  | mkaIcv (ch : Fin 8)
  /-- KEY_DESTROY (R274): Mailbox command that closes and zeroises a session key or memory key slot. -/
  | keyDestroy (ch : Fin 8)
  /-- KEY_INFO (R245): Mailbox command that returns a key's attributes, uses and presence. -/
  | keyInfo (ch : Fin 8)
  /-- ATTEST (R272): Mailbox command that has the vault sign a KEY, IDENTITY or LINK statement. -/
  | attest (ch : Fin 8)
  /-- ATTEST_REST (R374): Mailbox command that returns the remaining words of the held statement. -/
  | attestRest (ch : Fin 8)
  /-- BOOT_STATUS (R284): Mailbox command that returns the held status, state code and context. -/
  | bootStatus (ch : Fin 8)
  /-- RCB_READ (R305): Mailbox command that returns retention Call Board entries and, for the second half, marks them read. -/
  | rcbRead (ch : Fin 8)
  /-- IMAGE_WRITE (R285): Mailbox command that writes words of the Script image to the boot ROM. -/
  | imageWrite (ch : Fin 8)
  /-- IMAGE_GO (R286): Mailbox command that presents the image, checks it and starts loading it. -/
  | imageGo (ch : Fin 8)
  /-- LC_STATUS (R374): Mailbox command that returns life-cycle state, LC_SEQ, epoch, IRON_HELD, hold and each tamper source's condition. -/
  | lcStatus (ch : Fin 8)
  /-- LC_ADVANCE (R280): Unsigned mailbox command that moves BLANK to PROVISIONED or PROVISIONED to COMMISSIONING. -/
  | lcAdvance (ch : Fin 8)
  /-- LC_RETIRE (R280): Unsigned mailbox command that moves an early or epoch-exhausted unit to RETIRED. -/
  | lcRetire (ch : Fin 8)
  /-- TAMPER_SET (R297): Mailbox command that writes the tamper settings under the life-cycle restrictions. -/
  | tamperSet (ch : Fin 8)
  /-- TAMPER_GET (R295): Mailbox command that returns the tamper settings. -/
  | tamperGet (ch : Fin 8)
  /-- TAMPER_RELEASE (R294): Mailbox command that ends a tamper hold once the sources have read NORMAL for 1 ms. -/
  | tamperRelease (ch : Fin 8)
  /-- PRM_CFG (R309): Mailbox command that stages a wing's PRM_CFG. -/
  | prmCfg (ch : Fin 8)
  /-- PRM_STATUS (R374): Mailbox command that returns a wing's Prompt state, time, F and last offset. -/
  | prmStatus (ch : Fin 8)
  /-- AT_PPS (R313): Discontinuity mode of PRM_STEP that arms a step to TOD time at the next used PPS edge. -/
  | prmAtPps (ch : Fin 8)
  /-- SET_OFFSET (R313): Discontinuity mode of PRM_STEP that steps Prompt by a signed offset when made visible, incrementing the epoch. -/
  | prmSetOffset (ch : Fin 8)
  /-- TOUT_SET (R323): Mailbox command that stages a cue's TOUT_CFG. -/
  | toutSet (ch : Fin 8)
  /-- TOUT_GET (R323): Mailbox command that returns a cue's TOUT_CFG. -/
  | toutGet (ch : Fin 8)
  /-- PTP_SET (R317): Mailbox command that stages a port's PTP_CFG. -/
  | ptpSet (ch : Fin 8)
  /-- TS_EXPORT_READ (R320): Mailbox command that removes and returns records from a wing's timestamp export queue. -/
  | tsExportRead (ch : Fin 8)
  /-- WEAR_CFG (R347): Mailbox command that stages a wing's WEAR_CFG. -/
  | wearCfg (ch : Fin 8)
  /-- WEAR_REPORT (R349): Mailbox command that returns wear records of monitored units. -/
  | wearReport (ch : Fin 8)
  /-- WEAR_HISTORY (R349): Mailbox command that returns one unit's lowest margin at each of the last 64 wear checks. -/
  | wearHistory (ch : Fin 8)
  /-- STRIKE (R355): Mailbox command that strikes a lane, trie bank or control core as for a margin strike. -/
  | strike (ch : Fin 8)
  /-- HANDOVER (R358): Mailbox command that moves a core's channels and wing to the other core by planned handover. -/
  | handover (ch : Fin 8)
  /-- UPDATE_WRITE (R359): Mailbox command that writes words of a new Script image for a hitless update. -/
  | updateWrite (ch : Fin 8)
  /-- UPDATE_GO (R359): Mailbox command that checks a new image and starts the hitless update sequence. -/
  | updateGo (ch : Fin 8)
  /-- JOIN (R340): Mailbox command that, as a curtain on all channels, brings two REJOIN_READY wings back to JOINED. -/
  | join (ch : Fin 8)
  /-- STOP (R403): RHL_SET action that ends recording and keeps the log, leaving the logger OFF. -/
  | rhlStop (ch : Fin 8)
  /-- START_TRACE (R395): RHL_SET action that starts a wrapping TRACE log in FIELD_SERVICE. -/
  | rhlStartTrace (ch : Fin 8)
  /-- START_RECORD (R396): RHL_SET action that starts a replayable RECORD log by writing a snapshot from a quiet wing. -/
  | rhlStartRecord (ch : Fin 8)
  /-- SET_TARGET (R405): RHL_SET action that names the replay unit and has the vault wrap the log key for it. -/
  | rhlSetTarget (ch : Fin 8)
  /-- RHL_STATUS (R404): Mailbox command that returns the logger's status record. -/
  | rhlStatus (ch : Fin 8)
  /-- RHL_EXPORT (R405): Mailbox command that returns bytes of the export image of a held log. -/
  | rhlExport (ch : Fin 8)
  /-- RHL_REPLAY (R407): Mailbox command that loads a log's snapshot and starts replaying it in a wing. -/
  | rhlReplay (ch : Fin 8)
  /-- RHL_RESUME (R403): Mailbox command that discards a frozen log and restarts recording with a new LOG_ID. -/
  | rhlResume (ch : Fin 8)
  /-- PWR_STATUS (R418): Mailbox command that returns VDDH presence, SLP_REQ and each wing's slowest lane slot rate. -/
  | pwrStatus (ch : Fin 8)
  /-- DIAG_ECHO (R374): Mailbox command that returns the words it was given. -/
  | diagEcho (ch : Fin 8)
  /-- DIAG_MARK (R374): Mailbox command that writes a HOST_MARK event carrying three words. -/
  | diagMark (ch : Fin 8)
  /-- DOORBELL (R365): Write of 1 to a channel's DOORBELL that submits the request buffer, or sets OVERRUN while REQ_BUSY is 1. -/
  | doorbell (a : CpAcc) (ch : Fin 8) (v : Word)
  /-- REQ_FREE (R365): The engine copies a waiting request into a free queue place, clears REQ_BUSY and raises REQ_FREE. -/
  | reqFree (ch : Fin 8)
  /-- RSP (R365): The engine writes a finished command's response into the response buffer once RSP_VALID is 0 and sets RSP_VALID. -/
  | rspWrite (ch : Fin 8)
  /-- RSP_ACK (R365): Write of 1 to RSP_ACK that clears RSP_VALID and frees the command's queue place. -/
  | rspAck (a : CpAcc) (ch : Fin 8) (v : Word)
  /-- TAIL (R390): Write to a Call Board's TAIL that consumes entries, or is ignored with TAIL_ERR. -/
  | cbdTail (a : CpAcc) (w : Wing) (v : Word)
  /-- ENTRY (R390): Read of ENTRY[0] that latches all eight words of the entry at TAIL into the shadow. -/
  | cbdEntry (a : CpAcc) (w : Wing)
  /-- ZEROISE_ARM (R392): Write to ZEROISE_ARM that advances or abandons the zeroise sequence. -/
  | zeroiseArm (a : CpAcc) (gap : Nat) (v : Word)
  /-- ZEROISE_FIRE (R392): Write to ZEROISE_FIRE that completes the sequence and raises REG_IRON, or abandons it. -/
  | zeroiseFire (a : CpAcc) (gap : Nat) (v : Word)
  /-- ZEROISE_GAP (R392): A gap of more than 256 CP_CLK cycles between zeroise steps abandons the sequence and counts ABORTS. -/
  | zeroiseGap
  /-- REGISTER_WRITE (R9): Control port write to a register without a row of its own, applied by its access code and the ownership check. -/
  | registerWrite (a : CpAcc) (addr : BitVec 16) (v : Word)
  /-- CP_RST_N (R71): Assertion of CP_RST_N that resets the control port adapter, cancels an unfinished write and abandons a zeroise sequence. -/
  | cpRstN
  /-- BYPASS (R78): Test access port instruction BYPASS. -/
  | tapBypass (tdi : List Bool)
  /-- IDCODE (R78): Test access port instruction that returns the identification register value. -/
  | tapIdcode (tdi : List Bool)
  /-- SAMPLE_PRELOAD (R78): Test access port instruction SAMPLE/PRELOAD. -/
  | tapSample (pins : List Bool) (tdi : List Bool)
  /-- EXTEST (R78): Test access port instruction EXTEST. -/
  | tapExtest (pins : List Bool) (tdi : List Bool)
  /-- TEST_ACCESS (R78): A Faneam private scan or self-test instruction, working only in BLANK, otherwise acting as BYPASS and logged on both Call Boards. -/
  | tapTestAccess (code : Word) (tdi : List Bool)
  /-- OUTBOUND_FRAME (R85): A frame taken whole on HS_I is checked, selected by SAI or policy trie and admitted, diverted or discarded. -/
  | outboundFrame (p : Fin 64) (f : HsFrame)
  /-- INBOUND_FRAME (R99): A frame taken whole on LS_I is parsed, looked up in the Box Office, window-checked and sent to a lane or the Green Room. -/
  | inboundFrame (p : Fin 64) (f : LsFrame)
  /-- STRAY_BEAT (R59): A beat without SOF while no frame is open is discarded and counted. -/
  | strayBeat (p : Fin 64) (line : Bool)
  /-- CREDIT (R52): A credit pulse from the receiver on HS_O or LS_O adds one cell to the engine's count, or is ignored beyond 1,023. -/
  | creditPulse (p : Fin 64) (line : Bool)
  /-- LS_HOLD (R58): A change of SPn_LS_HOLD or its reason starts or ends the hold on frame starts on LS_O. -/
  | lsHold (p : Fin 64) (hold : Bool) (rsn : BitVec 2)
  /-- FRAME_RELEASE (R133): Once a staged frame is whole, its keystream ready, credits present and no hold applies, its SOF is presented on LS_O and its packet number bound. -/
  | frameRelease (p : Fin 64) (id : Nat)
  /-- FRAME_TAG_CHECK (R145): A lane completes the tag check of an inbound frame, marking the number received or clearing it and delivering or discarding the frame. -/
  | frameTagCheck (p : Fin 64) (id : Nat)
  /-- SA_FETCH (R122): A non-resident SA record fetched from the SA store returns and is verified into the cache. -/
  | saFetch (w : Wing) (sai : Nat) (tagOk keyOk : Bool)
  /-- BOX_INSERTION (R105): The insertion arbiter takes one learned or commanded insertion and merges, places, relocates or fails it. -/
  | boxInsertion (w : Wing)
  /-- LATE (R135): Prompt passes a waiting frame's launch time plus LAUNCH_TOL, and the frame is discarded without binding. -/
  | lateFrame (p : Fin 64) (id : Nat)
  /-- LS_HOLD_LIMIT (R136): An uninterrupted hold reaches HOLD_LIMIT, and every staged frame of the port moves to the Green Room. -/
  | lsHoldLimit (p : Fin 64)
  /-- REKEY_OVERLAP (R141): OVERLAP_MS after the first frame verifies under NEXT_SAI, the inbound SA closes. -/
  | rekeyOverlap (w : Wing) (sai : Nat)
  /-- LEASE_GRANT (R271): The vault grants a wing a lease of packet numbers after committing its LEASE record, or refuses it. -/
  | leaseGrant (w : Wing) (sai : Nat) (cut : JCut)
  /-- LEASE_REFRESH_RETRY (R143): Once per second a wing retries a refused or unanswered lease request. -/
  | leaseRefreshRetry (w : Wing) (sai : Nat)
  /-- UNKEYED_TTL (R107): An unkeyed Box Office entry older than UNKEYED_TTL is removed. -/
  | unkeyedTtl (w : Wing) (slot : Nat)
  /-- GRQ_HOLD_TIMEOUT (R113): A held frame reaches its queue's hold timeout and is discarded as GRQ_TIMEOUT. -/
  | grqHoldTimeout (w : Wing) (handle : Nat)
  /-- GRQ_SUMMARY (R113): At most once per millisecond, a summary event is written for each queue that has discarded frames. -/
  | grqSummary (w : Wing)
  /-- USH_FAULT_SUMMARY (R233): At the end of a millisecond with more than 256 refusals, a summary event with the dropped count is written. -/
  | ushFaultSummary (w : Wing)
  /-- MEM_READ (R192): A read request accepted on RQPn A is checked by the Usher and issued with counter lookup and keystream. -/
  | memRead (q : Fin 4) (r : AReq)
  /-- MEM_WRITE (R194): A full-line write is checked, its minor counter advanced, encrypted, tagged and issued. -/
  | memWrite (q : Fin 4) (r : AReq)
  /-- PARTIAL_WRITE (R195): A partial write reads and verifies the line, merges the bytes and writes it, or poisons the line. -/
  | partialWrite (q : Fin 4) (tid : BitVec 7) (line : Nat)
  /-- CURTAIN_ONLY (R61): A curtain-only request accepted on RQPn A is checked for MG_MAP validity and placed as a curtain. -/
  | curtainOnly (q : Fin 4) (r : AReq)
  /-- WRITE_DATA (R62): A W beat accepted on a request port supplies data for the oldest write still waiting for it. -/
  | writeData (q : Fin 4) (data : BitVec 512) (strb : BitVec 64) (last : Bool)
  /-- MP_RESPONSE (R192): A response beat on MPn D completes a data or metadata read or a write, checking metadata against its parent. -/
  | mpResponse (m : Fin 4) (b : MpBeat)
  /-- MP_RESPONSE_TIMEOUT (R68): A memory port response does not arrive within the programmed time and the access completes with MEM_ERR. -/
  | mpResponseTimeout (m : Fin 4) (aid : BitVec 8)
  /-- LINE_VERIFY (R193): A line's tag and metadata checks complete, releasing it verify-before-release or settling a verify-behind line. -/
  | lineVerify (q : Fin 4) (tid : BitVec 7) (line : Nat)
  /-- CURTAIN_ISSUE (R199): A CURTAIN_ISSUE completes once every earlier request of its master and port has issued or completed. -/
  | curtainIssue (q : Fin 4) (tid : BitVec 7)
  /-- CURTAIN_VERIFY (R200): A CURTAIN_VERIFY completes once every earlier read has verified or failed. -/
  | curtainVerify (q : Fin 4) (tid : BitVec 7)
  /-- CURTAIN_PERSIST (R201): A CURTAIN_PERSIST completes once earlier writes, the tree write-back and any root copy are done. -/
  | curtainPersist (q : Fin 4) (tid : BitVec 7)
  /-- PAGE_REENCRYPTED (R207): A page re-encryption finishes its reads and writes under a new major counter, or is abandoned. -/
  | pageReencrypted (w : Wing) (page : Nat)
  /-- TAG_REPAIR (R206): The tag-guided repair search over 768 candidates completes, repairing the line or failing. -/
  | tagRepair (q : Fin 4) (tid : BitVec 7) (line : Nat)
  /-- REGION_READY (R179): The last INIT metadata write of a region is accepted and the region becomes ACTIVE. -/
  | regionReady (r : Fin 64)
  /-- PIN_FILL (R190): The pin fill of a region completes and the pin counts as applied. -/
  | pinFill (r : Fin 64)
  /-- USH_BANK_SWITCH (R229): The old generation has drained, the Usher switches banks, increments the generation and accepts requests again. -/
  | ushBankSwitch (w : Wing)
  /-- USH_DRAIN_TIMEOUT (R230): The drain has not finished 1.5 µs after the hold began, and the commit fails with the old set kept. -/
  | ushDrainTimeout (w : Wing)
  /-- TRIE_SWITCH (R96): The new trie version is built and the root bank switches in one step. -/
  | trieSwitch (w : Wing)
  /-- TRIE_COMMIT_COMPLETE (R97): Every lookup that started on the old bank has left stage 14, the commit is reported and old copies are freed. -/
  | trieCommitComplete (w : Wing)
  /-- JOURNAL_COMMIT (R265): The journal arbiter writes, reads back, commits and applies one record. -/
  | journalCommit (cut : JCut)
  /-- FUSE_COPY (R281): The burn of one physical fuse copy completes, and the next copy or the rest of the move follows. -/
  | fuseCopy
  /-- FUSE_VPP_LOSS (R439): FUSE_VPP falls below 1.71 V during a copy, ending the copy and stopping a move before its third copy. -/
  | fuseVppLoss (burnt : Bool)
  /-- RESET_HOLD (R414): 50 µs after VDDC and VDDV become present, the vault stops holding the VDDC domain in reset. -/
  | resetHold
  /-- START_UP (R283): Release of CORE_RST_N with supplies in range runs the start-up steps up to BOOT_READY or a held state. -/
  | startUp (o : StartObs)
  /-- CORE_RST_N (R382): Assertion of CORE_RST_N resets the whole VDDC domain, its registers, Call Boards, Usher and mailboxes. -/
  | coreRstN
  /-- PORT_RESET (R48): Assertion of a port reset makes the port absent, forcing a close if it was open. -/
  | portReset (x : PortSide)
  /-- PORT_RESET_RELEASE (R52): Release of a port reset sets the port's credit counts to 0. -/
  | portResetRelease (x : PortSide)
  /-- PORT_CLOCK_LOST (R47): An open port's clock makes no edge for 10 µs and the port is closed with a forced close. -/
  | portClockLost (x : PortSide)
  /-- SCRIPT_READY (R287): After load, unit tests and Script start, the engine reports ready, or a wing reports FAILED. -/
  | scriptReady (failed : List (Fin 28))
  /-- TOD_PPS (R311): A rising edge of TOD_x_PPS is accepted and used for acquisition, discipline, relock or an armed AT_PPS step. -/
  | todPps (w : Wing) (t : TodIn)
  /-- TOD_LOCK (R312): TOD_x_LOCK falls while USE_LOCK = 1 and a LOCKED Prompt enters HOLDOVER. -/
  | todLock (w : Wing)
  /-- PRM_HOLDOVER (R312): No edge has been used for HOLDOVER_MS and Prompt enters HOLDOVER. -/
  | prmHoldover (w : Wing)
  /-- PRM_CLOCK_LOST (R312): TOD_x_CLK makes no edge for 10 µs and Prompt advances from RT_OSC in holdover. -/
  | prmClockLost (w : Wing)
  /-- CUE_FIRE (R324): Prompt reaches a cue's firing time; the cue pulses and any pending asymmetry change takes effect. -/
  | cueFire (c : Fin 16)
  /-- CUE_PULSE_END (R324): A cue pulse reaches WIDTH_NS and ends. -/
  | cuePulseEnd (c : Fin 16)
  /-- SLEEP_ENTRY (R420): The vault samples SLP_REQ as 1 and the engine stops admitting work and closes its ports. -/
  | sleepEntry
  /-- SLP_ACK (R420): After write-back, retained records, RT copy and zeroisation, the cores stop and SLP_ACK rises. -/
  | slpAck
  /-- SUPPLY_EXCURSION (R288): VDDC, VDDV or VDDH leaves its range for at least 2 ns and GLITCH_C, GLITCH_V or VDDH_LOSS detects it. -/
  | supplyExcursion (x : Supply) (above : Bool)
  /-- VDDC_LOSS (R413): VDDC falls below 0.50 V and the vault resets the VDDC domain. -/
  | vddcLoss
  /-- VDDV_LOSS (R413): VDDV falls below 0.70 V, the vault resets and retention is lost. -/
  | vddvLoss
  /-- TEMP (R288): Tj leaves −40 °C to 125 °C and the TEMP source detects COLD or HOT. -/
  | tempSource (hot : Bool)
  /-- TAMPER_CHIP (R290): A chip ends; each enabled loop and shield LFSR advances and drive and pull change. -/
  | tamperChip (samples : List Bool)
  /-- TAMPER_WINDOW (R291): Every 8 chips each pair and shield net is classified over its last 32 chips, and a detection is answered at its level. -/
  | tamperWindow
  /-- BRIDGE_TOKEN (R330): A token or beacon arrives over the bridge, counted for parity and read for the far link state. -/
  | bridgeToken (w : Wing) (t : BridgeTok) (parityOk : Bool)
  /-- BRIDGE_SILENCE (R330): A JOINED wing receives no bridge token for 20 µs and declares the bridge lost. -/
  | bridgeSilence (w : Wing)
  /-- LIVENESS_MARK (R330): A wing renews its liveness mark in the vault. -/
  | livenessMark (w : Wing)
  /-- FAR_MARK_STALE (R330): The far wing's liveness mark goes unrenewed for 20 µs and a PARTITIONED wing moves to FAR_LOST. -/
  | farMarkStale (w : Wing)
  /-- REJOIN_READY (R339): A PARTITIONED wing has received tokens without a 20 µs gap for 20 µs and moves to REJOIN_READY. -/
  | rejoinReady (w : Wing)
  /-- HEARTBEAT (R39): A control core sends its 1 ms heartbeat. -/
  | heartbeat (c : CoreId)
  /-- HEARTBEAT_MISS (R39): An expected heartbeat does not arrive; on the third miss the other core takes over the wing. -/
  | heartbeatMiss (c : CoreId)
  /-- STUCK_HANDSHAKE (R26): A stage holds a request unacknowledged for 2 µs and is struck by the watchdog. -/
  | stuckHandshake (u : UnitId) (sent : Nat)
  /-- MARGIN_SAMPLE (R348): A margin monitor samples a unit; four samples below STRIKE_MARGIN strike it or mark it critical. -/
  | marginSample (u : UnitId) (margin : Nat)
  /-- WEAR_CHECK (R348): Every CHECK_PERIOD_S the Script records each unit's lowest margin and warns on crossings. -/
  | wearCheck (w : Wing)
  /-- UNDERSTUDY_PROMOTION (R352): An understudy lane's known-answer test completes and it is promoted or struck. -/
  | understudyPromotion (w : Wing) (pass : Bool)
  /-- MARCH_TEST (R354): The background march test checks a data buffer row holding no live data and remaps it on a fault. -/
  | marchTest (w : Wing) (bank : Nat) (row : Nat) (faulty : Bool)
  /-- BANK_STRUCK (R355): The copy of a struck trie bank completes and lookups switch to the spare bank. -/
  | bankStruck (w : Wing)
  /-- UNIT_CLOSED (R343): A closing unit's last admitted work completes, it reports CLOSED and its key material is zeroised. -/
  | unitClosed (u : UnitId)
  /-- FORCED_CLOSE (R343): A closing unit's close timeout runs out and its remaining work ends with the unit's forced-close status. -/
  | forcedClose (u : UnitId)
  /-- UPDATE_CORE_STARTED (R359): A core finishes loading and starting the new image, and the update sequence moves to its next step. -/
  | updateCoreStarted
  /-- RT_COPY (R307): The vault copies RT and the epoch into its VDDV register. -/
  | rtCopy
  /-- MASK_REFRESH (R250): The vault replaces the mask of every key cell. -/
  | maskRefresh
  /-- DRBG_RESEED (R270): The CTR_DRBG reseeds from the entropy source. -/
  | drbgReseed
  /-- ENTROPY_FAIL (R270): An entropy health test fails; the DRBG stops, mask refresh pauses and the KEY alarm is set. -/
  | entropyFail
  /-- KEY_EXPIRY (R255): EXPIRY_S seconds of RT pass since a key entered and the key reaches its end. -/
  | keyExpiry (ref : BitVec 24)
  /-- RHL_SNAPSHOT_DONE (R396): The RECORD snapshot is written and the logger enters RECORD. -/
  | rhlSnapshotDone (w : Wing)
  /-- RHL_BLOCK_SPILL (R401): A full log block is written to the spill in RECORD, or freezes the log on failure or lack of room. -/
  | rhlBlockSpill (w : Wing) (ok : Bool)
  /-- RHL_POST_BLOCKS (R402): POST_BLOCKS blocks after an ALARM trigger have been recorded and the logger stops in FROZEN. -/
  | rhlPostBlocks (w : Wing)
  /-- RHL_REPLAY_RECORD (R408): A replaying wing takes the next log record as its input, grant or outcome, ending in REPLAY_DONE or REPLAY_DIVERGED. -/
  | rhlReplayRecord (w : Wing) (r : ReplayRec)
  /-- SUPPLY_PRESENT (R414): VDDC, VDDV or VDDH rises into its range, starting the 50 µs reset hold or letting the tamper sources that need it run again. -/
  | supplyPresent (x : Supply)
  /-- MP_REQUEST_ACCEPTED (R229): Your controller accepts an engine request or write beat on MPn A or W, so the access counts as issued and drained. -/
  | mpRequestAccepted (m : Fin 4)
  /-- RQP_RESPONSE_ACCEPTED (R62): A master accepts a response beat on RQPn D with RQPn_DREADY, freeing its ATID and outstanding place. -/
  | rqpResponseAccepted (q : Fin 4)
  /-- VAULT_PATH_RESTORED (R276): A wing's path to the vault returns and the vault rewrites that wing's memory key slot copies. -/
  | vaultPathRestored (w : Wing)
  /-- UPDATE_START_TIMEOUT (R360): A core in a Script update does not load and start the new image within the bounds of R287, and the update aborts or ends partial. -/
  | updateStartTimeout
deriving DecidableEq, Repr

end Sys2Proof
end

