-- ==== Sys2Proof/Decode.lean ====
section
/-! DEFINITION. What a word spells. The table of operations and events gives its rows no bits, so that no word spells a
command: commands reach the block at its ports, pins and mailboxes. -/

namespace Sys2Proof

/-- The command that a word of `nbits` bits spells: none, for no row of the table has bits. -/
def decodeTableWord (_nbits _w : Nat) : Option Instr := none

end Sys2Proof
end

