-- ==== Sys2Proof/Machine/State.lean ====
section
/-! DEFINITION. The state of the block as plain data, and the state right after reset. -/

namespace Sys2Proof.Machine

/-- A sparse table by number, keys strictly rising: the form `Tbl.wf` of Machine/Ops.lean. -/
abbrev Tbl (α : Type) := List (Nat × α)

/-- The statuses of a response (R376); their codes are `Status.code` of Machine/Flags.lean. -/
inductive Status where
  | ok | alreadyCommitted | malformed | unknownOpcode | seqError | notPermitted | notFound | unitClosing
  | wingUnreachable | coreLost | channelClosed | lcRefused | lcAbort | tamperAbort | tamperHold | ironHeld
  | portAbsent | chanLocked | storeAbsent | alreadyExists
  | saInvalid | pinFull | nextAbsent | keyInUse | trieFull | trieNodesBusy | ptStageFull | boxFull | boxInvalid
  | grqGone | classCfgInvalid
  | regionInvalid | regionOverlap | protectedFull | resumeMismatch | ushRuleInvalid | ushOverlap | ushDrainTimeout
  | keyRefused | keySpent | keySlotBusy | unwrapFail | entropyFail | blobInvalid | blobStale | classALoaded
  | classAFull | kumMalformed | kumWrongDevice | kumStale | kumOwner | kumSignature | kumRollback | kumUnwrap
  | kumAttr | ownerSlotsSpent | keyPathLost
  | lcMovesSpent | fuseRailAbsent | lcFuseInvalid | epochExhausted | tamperAtBoot | katFail | imageInvalid
  | tamperActive | tamperLocked | notIroned
  | prmUnset | toutInvalid | toutEpoch | toutPast
  | wearCfgInvalid | noSpare | coreStruck | updateIncompatible | rhlState
deriving DecidableEq, Repr

/-- A timestamp (R11): seconds, nanoseconds, fraction in 2^-16 ns, epoch. -/
structure Ts where
  sec : Nat := 0
  ns : Nat := 0
  frac : Nat := 0
  epoch : Nat := 0
deriving DecidableEq, Repr

/-! ## Ports -/

/-- PORT_CLS (R84), with its defaults. -/
structure PortCls where
  outKey : Nat := 2
  noKeyAct : Nat := 0
  noMatchAct : Nat := 0
  noSaAct : Nat := 0
  nosecAct : Nat := 0
  eapolBypass : Bool := true
  learnEn : Bool := true
  learnLog : Bool := false
  lockNew : Bool := false
  learnLimit : Nat := 4096
  sciLo : Word := 0
  sciHi : Word := 0
  sciValid : Bool := false
deriving DecidableEq, Repr

/-- PORT_SP (R131), with its defaults. -/
structure PortSp where
  mtu : Nat := 1522
  ordered : Bool := false
  holdLimit : Nat := 1000
  launchTol : Nat := 1000
deriving DecidableEq, Repr

/-- PTP_CFG (R317), with its defaults. -/
structure PtpCfg where
  tcEn : Bool := false
  oneStep : Bool := true
  expt : Bool := false
  l2 : Bool := true
  udp4 : Bool := true
  udp6 : Bool := true
  asym : Word := 0
  asymNext : Word := 0
  asymTout : Nat := 0
  asymPending : Bool := false
deriving DecidableEq, Repr

/-- An outbound frame in staging: plaintext, no number bound (R134). `sai` is none for a bypassed frame; `lead` says that
it was admitted as Lead (R168), `seq` is its place among the wing's admissions, `barrier` the first frame that came with
or after the last curtain before it (R163). `ltime` is in units of 2^-32 ns. `orig` is the SA it was admitted under, before
any switch (R138), `ksLen` the keystream bytes it holds in the store (R132), `noSaAct` the NO_SA_ACT it was admitted with (R84),
`wd` says that it was on a lane the watchdog struck (R166), `outside` that it is outside the Lead guarantee (R168), `thresh` is the
PN_THRESH of its SA at its admission (R121). -/
structure OutFrame where
  id : Nat
  bytes : Bytes
  sai : Option Nat
  cls : Nat
  side : Nat
  saiIn : Nat
  curtain : Bool
  ltime : Option Nat
  epoch : Nat
  arr : Ts
  resIn : Int
  ks : Option (Nat × Nat)
  admRt : Nat
  lead : Bool := false
  seq : Nat := 0
  barrier : Nat := 0
  orig : Option Nat := none
  ksLen : Nat := 0
  noSaAct : Nat := 0
  wd : Bool := false
  outside : Bool := false
  thresh : Nat := 0
deriving DecidableEq, Repr

/-- The SOF beat of a delivery on HS_O (R146, R316): the Prompt time and residence at its edge. -/
structure Sof where
  ts : Ts
  resid : Int
deriving DecidableEq, Repr

/-- An inbound frame between its lookup and its tag check (R145, R146). `sai` is none for a bypassed frame; `wait` says
that its SA's record is still being fetched, so that its window check is to come (R122). `began` is the SOF beat of its
cut-through delivery, once presented; `noSaAct`, `wd`, `outside` and `thresh` as for `OutFrame`, `window` is the WINDOW of its SA at its
admission (R121). -/
structure InFrame where
  id : Nat
  bytes : Bytes
  sai : Option Nat
  pn : Nat
  cls : Nat
  kind : Nat
  held : Bool
  arr : Ts
  resIn : Int
  admRt : Nat
  asymIn : Word := 0
  wait : Bool := false
  lead : Bool := false
  began : Option Sof := none
  noSaAct : Nat := 0
  wd : Bool := false
  outside : Bool := false
  thresh : Nat := 0
  window : Nat := 0
deriving DecidableEq, Repr

/-- The frame last presented on LS_O: what left, under which SA and number (R133), the lane that works on it, and whether
its EOF beat has passed. -/
structure LsOut where
  id : Nat
  bytes : Bytes
  sai : Option Nat
  pn : Nat
  ts : Ts
  lane : Option (Fin 28) := none
  done : Bool
deriving DecidableEq, Repr

/-- The frame last delivered on HS_O with its sideband (R50, R56): the LEN of its SOF beat and the bytes that passed, fewer
where it was aborted. -/
structure HsOut where
  len : Nat
  bytes : Bytes
  sai : Nat
  cls : Nat
  status : Nat
  ts : Ts
deriving DecidableEq, Repr

/-- A frame held in the Green Room (R114), with the sideband it came with (R115); `ltime` is that of the pins. -/
structure GFrame where
  handle : Nat
  reason : Nat
  inb : Bool
  port : Fin 64
  cls : Nat
  bytes : Bytes
  sai : Nat
  tag : Word
  arr : Ts
  queue : Nat
  saiIn : Nat := 0xFFFFF
  clsIn : Nat := 0
  curtain : Bool := false
  ltime : Option Nat := none
  admRt : Nat := 0
  resIn : Int := 0
  asymIn : Word := 0
deriving DecidableEq, Repr

/-- State of a stream, request or memory port (R48, R49, R344, PORT_GET). -/
inductive PState where
  | closed | opened | closing
deriving DecidableEq, Repr

/-- A stream port SPn. Cells are those of R52 to R54; `pulses` counts credit
pulses on HS_I, LS_I, HS_O and LS_O since the last CREDIT record (R398). `readmit` holds frames released from the Green
Room that wait for room in staging (R115, R134); `hsLead` and `lsLead` say that the last frame admitted from that side was
Lead (R157), `mixed` that some frame admitted since the port was opened was not (R166). `cnt` follows the port order of
R375. -/
structure Port where
  st : PState := .closed
  hsRst : Bool := true
  lsRst : Bool := true
  struck : Bool := false
  cls : PortCls := {}
  sp : PortSp := {}
  ptp : PtpCfg := {}
  hsIHeld : Nat := 0
  lsIHeld : Nat := 0
  hsIUsed : Nat := 0
  lsIUsed : Nat := 0
  hsOCred : Nat := 0
  lsOCred : Nat := 0
  hsIFail : Bool := false
  lsIFail : Bool := false
  hsINotOpen : Bool := false
  lsINotOpen : Bool := false
  hsOExcess : Nat := 0
  lsOExcess : Nat := 0
  pulses : Vector Nat 4 := Vector.replicate 4 0
  hold : Bool := false
  holdRsn : Nat := 0
  holdSince : Nat := 0
  holdSpent : Bool := false
  staging : List OutFrame := []
  inbound : List InFrame := []
  readmit : List GFrame := []
  hsLead : Bool := false
  lsLead : Bool := false
  mixed : Bool := false
  lsOut : Option LsOut := none
  hsOut : Option HsOut := none
  nextId : Nat := 0
  barrier : Nat := 0
  closeAt : Nat := 0
  forced : Bool := false
  cnt : Vector Nat 27 := Vector.replicate 27 0
deriving DecidableEq, Repr

/-! ## Memory side -/

/-- Where a line of an access stands (R192 to R196, R206). -/
inductive MPhase where
  | waiting | reading | gotData | repairing | repaired | merged | writing | done
deriving DecidableEq, Repr

/-- One 64-byte line of an access: its address, key slot, the counters it was handled under, what came back,
its outcome (a DSTATUS code of R63), and the time that R165 counts: `t0` the RT at which the present leg began, `lat`
the legs that have ended. `known` says that the counters that belong to the data are held here, `tagged` that the stored tag is,
`metaOk` that those counters have been verified, `part` that a partial write has been counted, `trig` that the line's write started a
re-encryption of its page (R207), `buf` that it stands in a page buffer (R208), and `lead`, `wd` and `outside` what R166 and R168
ask. -/
structure MLine where
  addr : Nat
  slot : Option Nat
  phase : MPhase := .waiting
  major : Nat := 0
  minor : Nat := 0
  cipher : Nat := 0
  tag : Nat := 0
  plain : Nat := 0
  status : Nat := 0
  t0 : Nat := 0
  lat : Nat := 0
  verified : Bool := false
  released : Bool := false
  known : Bool := false
  tagged : Bool := false
  metaOk : Bool := false
  trig : Bool := false
  buf : Bool := false
  part : Bool := false
  lead : Bool := false
  wd : Bool := false
  outside : Bool := false
deriving DecidableEq, Repr

/-- What an access of the engine itself is for (R122, R148, R210, R249, R401): an SA record read or written, an SA's statistics
written or read, a spilled session key, a log block. -/
inductive OwnUse where
  | saRead (sai : Nat)
  | saWrite (sai : Nat)
  | stat (sai : Nat)
  | statRead (sai : Nat)
  | keyRead (j : Nat)
  | keyWrite (j : Nat)
  | block (w : Wing) (n : Nat)
deriving DecidableEq, Repr

/-- A request accepted on RQPn A and not yet completed (R60, R62), or an access of the engine (`own`), which has no port and
stands with those of its wing's first one. `op` is 0 read, 1 write, 2 curtain only, 3 reserved; `fixed` is the status of a
request that is not performed; `addrs` its lines; `at'` the RT of its acceptance; `cur` is the outcome of its curtain. Of a
CURTAIN_PERSIST, `flush` lists the metadata lines, by region and index, still to be written back, each with whether its
write-back is under way, `saves` the count of root copies that each region must reach, and `flushErr` says that a write-back
failed (R201). -/
structure Access where
  tid : Nat
  op : Nat
  mid : Nat
  world : Bool
  kix : Nat
  cls : Nat
  clsIn : Nat
  curtain : Nat
  gen : Nat
  seq : Nat
  region : Option Nat
  lines : List MLine := []
  alen : Nat := 0
  wbeats : List (Nat × Nat) := []
  wdone : Bool := false
  fixed : Option Nat := none
  cur : Option Nat := none
  presented : Bool := false
  addrs : List Nat := []
  at' : Nat := 0
  flush : Option (List (Nat × Nat × Bool)) := none
  saves : List (Nat × Nat) := []
  flushErr : Bool := false
  own : Option OwnUse := none
deriving DecidableEq, Repr

/-- A response beat waiting on RQPn D (R60, R62). -/
structure DBeat where
  tid : Nat
  kind : Nat
  status : Nat
  data : Nat
  verified : Bool
  last : Bool
deriving DecidableEq, Repr

/-- A request port RQPn. `vfails` names the masters and places in order of reads that failed their check after release
(R200), `pfails` those of writes that failed (R201), `vlost` and `plost` those that a lost bridge ended, `wregs` the lines that
masters' writes have touched since their last CURTAIN_PERSIST, each with the master, the region and the place of the write,
`early` the W beats that came before their request. `cnt` is MALFORMED, UNREACHABLE (R375). -/
structure RqPort where
  st : PState := .closed
  rst : Bool := true
  struck : Bool := false
  accs : List Access := []
  dq : List DBeat := []
  nextSeq : Nat := 0
  vfails : List (Nat × Nat) := []
  pfails : List (Nat × Nat) := []
  vlost : List (Nat × Nat) := []
  plost : List (Nat × Nat) := []
  wregs : List (Nat × Nat × Nat × Nat) := []
  early : List (Nat × Nat × Bool) := []
  closeAt : Nat := 0
  forced : Bool := false
  cnt : Vector Nat 2 := Vector.replicate 2 0
deriving DecidableEq, Repr

/-- What a memory port request is for. -/
inductive MpUse where
  | data (q : Fin 4) (tid : Nat) (seq : Nat) (line : Nat)
  | mline (w : Wing) (addr : Nat)
  | tline (w : Wing) (addr : Nat)
  | wback (w : Wing) (addr : Nat)
  | reenc (w : Wing) (page : Nat) (line : Nat)
  | init (r : Fin 64) (ix : Nat)
deriving DecidableEq, Repr

/-- A line of a request on a memory port: what it is for, and its write data and sideband bits. -/
structure MpLine where
  use : MpUse
  data : Nat := 0
  sb : Nat := 0
deriving DecidableEq, Repr

/-- A request on MPn A, with its W beats (R65): the lines from `addr` on, one to four, ALEN one less than their number. `at'`
is the RT of its acceptance, and before that of its being presented; `got` counts the lines that a read has answered. -/
structure MpReq where
  aid : Nat
  addr : Nat
  write : Bool
  cls : Nat
  lines : List MpLine
  got : Nat := 0
  at' : Nat := 0
deriving DecidableEq, Repr

/-- A memory port MPn: requests presented and requests outstanding (R67), response time in us (R68), and the tie
MPn_SB_PRESENT as it was sampled last (R65). -/
structure MPort where
  rst : Bool := true
  clkLost : Bool := false
  struck : Bool := false
  sb : Bool := true
  aq : List MpReq := []
  out : List MpReq := []
  nextAid : Nat := 0
  timeout : Nat := 100
deriving DecidableEq, Repr

/-- REGION_DESC (R175), the Host fields. -/
structure RDesc where
  mode : Nat := 0
  owner : Wing := .sl
  pin : Bool := false
  vfirst : Bool := false
  repair : Bool := false
  retain : Bool := false
  resume : Bool := false
  mpMap : Nat := 0
  base : Nat := 0
  last : Nat := 0
  ctrBase : Nat := 0
  treeBase : Nat := 0
  tagBase : Nat := 0
  treeKey : Nat := 0
deriving DecidableEq, Repr

/-- Region states (R175). -/
inductive RState where
  | notInstalled | init | active | closing | closed
deriving DecidableEq, Repr

/-- What a region serves: a host region, a wing's SA store or the Rehearsal spill (STORE_SET). -/
inductive RUse where
  | host | saStore | spill
deriving DecidableEq, Repr

/-- A memory region. `cnt` follows R214; `badMeta` holds the metadata lines whose check has failed (R204); `initIx` counts INIT
metadata writes accepted, `fillIx` the pin fill; `pinWait` lists the accesses in flight that a change of PIN waits for, by port
and place (R190); `saves` counts the copies of ROOT that the vault has taken (R212); `wbFail` holds the metadata lines whose last
write-back failed (R201). -/
structure Region where
  st : RState := .notInstalled
  d : RDesc := {}
  use : RUse := .host
  root : Nat := 0
  initIx : Nat := 0
  fillIx : Option Nat := none
  pinned : Bool := false
  readyLate : Bool := false
  closeAt : Nat := 0
  forced : Bool := false
  pinWait : Option (List (Fin 4 × Nat)) := none
  rootAsk : Bool := false
  saves : Nat := 0
  wbFail : List Nat := []
  badMeta : List Nat := []
  cnt : Vector Nat 10 := Vector.replicate 10 0
deriving DecidableEq, Repr

/-- A metadata line in the cache or the lock array (R189, R190): 64 bytes as a number, byte 0 lowest. -/
structure CLine where
  addr : Nat
  region : Nat
  data : Nat
  dirty : Bool := false
  locked : Bool := false
deriving DecidableEq, Repr

/-- A page re-encryption in progress (R207, R208): the access that triggered it, its master and its classes on a memory port and in
a lane (R448), the lines still to be read, those that came back (`raw`: line, stored bytes, sideband), those in the buffer
(`got`: line, bytes, 1 where verified), those still to be written. -/
structure Reenc where
  page : Nat
  region : Nat
  q : Fin 4
  tid : Nat
  seq : Nat
  mid : Nat
  cls : Nat
  clsLane : Nat
  slot : Nat
  need : List Nat
  raw : List (Nat × Nat × Nat) := []
  got : List (Nat × Nat × Nat)
  failed : Bool := false
  buffered : Bool := false
  draining : Bool := false
  writes : List Nat := []
deriving DecidableEq, Repr

/-- A line to be poisoned once its counter line is at hand (R195): region, address, master, port, KIX, and whether the alarm is
raised. -/
structure Poison where
  region : Nat
  addr : Nat
  mid : Nat
  q : Fin 4
  kix : Nat
  alarm : Bool
deriving DecidableEq, Repr

/-- A wing's MPE. `denyAt` is the RT of its last KEY_DENIED event (R181); `arrived` holds the metadata and tag lines that came
back and are not yet in the cache: address, bytes, sideband; `lost` those asked of a memory port that serves no access (R351). -/
structure Mpe where
  cache : List CLine := []
  reencs : List Reenc := []
  fetching : List Nat := []
  arrived : List (Nat × Nat × Nat) := []
  lost : List Nat := []
  poisons : List Poison := []
  denyAt : Option Nat := none
deriving DecidableEq, Repr

/-! ## Usher -/

/-- USH_RULE (R219). -/
structure URule where
  valid : Bool := false
  read : Bool := false
  write : Bool := false
  world0 : Bool := false
  world1 : Bool := false
  defOnly : Bool := false
  debugOk : Bool := false
  floor : Nat := 0
  kixValid : Bool := false
  defKix : Nat := 0
  groups : Nat := 0
  start : Nat := 0
  last : Nat := 0
deriving DecidableEq, Repr

/-- An MG_MAP entry (R216), with its reset state. -/
structure MgEnt where
  group : Nat := 0
  priv : Bool := true
  debug : Bool := false
  valid : Bool := true
deriving DecidableEq, Repr

/-- One Usher set: rules, default entries (as rules without groups), MG_MAP and mode (R228). -/
structure USet where
  rules : Tbl URule := []
  defs : Tbl URule := [(0, { valid := true, read := true, write := true, world0 := true, world1 := true,
                             last := 0xFFFFFFFFFF })]
  mg : Tbl MgEnt := []
  service : Bool := false
deriving DecidableEq, Repr

/-- A wing's Usher (R228 to R234). What is staged is sparse; `hold` is the RT at which the hold began, `commitCh` the
channel whose commit it serves, `drained` whether the old generation has drained within 1.5 us of it, and else `blocked` the
port that blocked it then. `faults` lists the RT of the USH_FAULT events of the last millisecond, `msDropped` counts the refusals
without one, and `msEnd` is when their millisecond ends (R233). -/
structure Usher where
  force : USet := {}
  stRules : Tbl URule := []
  stDefs : Tbl URule := []
  stMg : Tbl MgEnt := []
  stMode : Option Bool := none
  gen : Nat := 0
  hold : Option Nat := none
  commitCh : Option (Fin 8) := none
  drained : Bool := false
  blocked : Option Nat := none
  parLogged : List Nat := []
  faults : List Nat := []
  msEnd : Nat := 0
  msDropped : Nat := 0
deriving DecidableEq, Repr

/-! ## Classification -/

/-- A policy record (R93). -/
structure Policy where
  action : Nat := 0
  group : Bool := false
  classOvr : Bool := false
  cls : Nat := 0
  target : Nat := 0
  tag : Word := 0
deriving DecidableEq, Repr

/-- A logical trie entry (R92). -/
structure TEnt where
  policyIx : Nat := 0
  matchLen : Nat := 0
  matchValid : Bool := false
  child : Nat := 0
  childValid : Bool := false
deriving DecidableEq, Repr

/-- An installed prefix: length, key bits as a 128-bit number with key bit 127 first, policy index. -/
structure Pfx where
  len : Nat
  key : Nat
  ix : Nat
deriving DecidableEq, Repr

/-- One version of a wing's trie and groups (R89 to R96). Its entries are those that the installed prefixes give; `root`
and `nodes` hold the entries that PT_WRITE_ENTRY rewrote, `names` the index of each node by its stage and the key
bits that lead to it. -/
structure TrieVer where
  root : Tbl TEnt := []
  nodes : Tbl (Tbl TEnt) := []
  names : List (Nat × Nat × Nat) := []
  pfxs : List Pfx := []
  policies : Tbl Policy := []
  groups : Tbl (List Nat) := []
deriving DecidableEq, Repr

/-- A staged trie change (R96). -/
inductive TChange where
  | add (len key : Nat) (pol : Policy)
  | remove (len key : Nat)
  | group (g : Nat) (members : List Nat)
deriving DecidableEq, Repr

/-- A wing's policy trie: the version in force, the other version, the bank in use, staged changes, the
commit in progress (true once switched) with the channel that asked for it (R97) and the groups it writes; `oldBad` holds the
entries of the version switched from that fail parity and that the new one does not share. -/
structure Trie where
  cur : TrieVer := {}
  other : Option TrieVer := none
  bank : Bool := false
  staged : List TChange := []
  commit : Option Bool := none
  commitCh : Option (Fin 8) := none
  spareUsed : Bool := false
  rootSpareUsed : Bool := false
  copying : List (Bool × Nat) := []
  struckBanks : List (Bool × Nat) := []
  wrote : List Nat := []
  oldBad : List Ent := []
deriving DecidableEq, Repr

/-- A Box Office entry (R102); `key` is KEY bytes 0 to 19, `at` the RT of its insertion. -/
structure BoxEnt where
  ktype : Nat
  state : Nat
  gen : Nat := 0
  port : Nat
  lock : Bool := false
  conflict : Bool := false
  learned : Bool := false
  sai : Nat := 0
  key : Bytes
  at' : Nat := 0
deriving DecidableEq, Repr

/-- An insertion waiting at the arbiter (R105): learned from a frame, under the PORT_CLS it was admitted with (R84), or
commanded on a channel. -/
inductive BoxReq where
  | learned (ktype : Nat) (key : Bytes) (c : PortCls) (f : GFrame)
  | command (ch : Fin 8) (e : BoxEnt)
deriving DecidableEq, Repr

/-- A wing's Box Office. Slot numbers: table × 65,536 + bucket × 4 + slot, the stash from 131,072 on. `recent` holds the slot,
key record (R103) and time of the last insertions (R110). -/
structure Box where
  slots : Tbl BoxEnt := []
  seed0 : Word := 0
  seed1 : Word := 0
  recent : List (Nat × Bytes × Ts) := []
  reqs : List BoxReq := []
  badLogged : List Nat := []
deriving DecidableEq, Repr

/-- A wing's Green Room: per queue the timeout in us, GRQ_FULL, GRQ_TIMEOUT, and both since the last summary. -/
structure Grq where
  frames : List GFrame := []
  next : Nat := 0
  timeout : Vector Nat 3 := Vector.replicate 3 2000
  full : Vector Nat 3 := Vector.replicate 3 0
  timedOut : Vector Nat 3 := Vector.replicate 3 0
  sumFull : Vector Nat 3 := Vector.replicate 3 0
  sumTo : Vector Nat 3 := Vector.replicate 3 0
  sumAt : Option Nat := none
deriving DecidableEq, Repr

/-! ## SAs -/

/-- SA states (R119). -/
inductive SaState where
  | active | closing | closed
deriving DecidableEq, Repr

/-- The Host fields of an SA record (R119). -/
structure SaRec where
  inb : Bool := false
  proto : Nat := 0
  key256 : Bool := false
  pn64 : Bool := false
  cls : Nat := 0
  conf : Bool := false
  confOffset : Nat := 0
  holdVerify : Bool := false
  pin : Bool := false
  replay : Bool := false
  groupPn : Bool := false
  sendSci : Bool := false
  endStation : Bool := false
  an : Nat := 0
  wing : Nat := 0
  portEn : Nat := 0
  keyRef : Nat := 0
  nextSai : Nat := 0
  nextValid : Bool := false
  pnThresh : Nat := 0
  ssci : Word := 0
  sci : Bytes := []
  spi : Word := 0
  window : Nat := 0
  templateLen : Nat := 0
  overlapMs : Nat := 0
  template : Bytes := []
deriving DecidableEq, Repr

/-- A wing's copy of an installed SA: record, number, engine fields, receive window (every number below `floor` and
those listed are received, others pending), lease state (R142: the present lease's end, the next lease, the RT of an
outstanding request, whether it was refused, whether the space is spent), closing state and counts in the order of R148 with LANE_ABORT and BRIDGE_ABORT. -/
structure Sa where
  r : SaRec
  st : SaState := .active
  pn : Nat := 0
  threshHit : Bool := false
  exhausted : Bool := false
  switched : Bool := false
  resident : Bool := true
  gone : Bool := false
  floor : Nat := 0
  recv : List Nat := []
  pend : List Nat := []
  leaseEnd : Nat := 0
  leaseNext : Option (Nat × Nat) := none
  leaseAsk : Option Nat := none
  leaseHeld : Bool := false
  leaseSpent : Bool := false
  overlapAt : Option Nat := none
  closeAt : Nat := 0
  forced : Bool := false
  keyGone : Bool := false
  used : Nat := 0
  cnt : Vector Nat 17 := Vector.replicate 17 0
deriving DecidableEq, Repr

/-! ## Lanes -/

/-- The item a lane works on (R28). -/
inductive ItemOf where
  | out (p : Fin 64) (id : Nat)
  | inb (p : Fin 64) (id : Nat)
  | mem (q : Fin 4) (seq : Nat) (line : Nat)
  | page (w : Wing) (page line : Nat)
deriving DecidableEq, Repr

/-- What the blocks of an item belong to (R28): an SA of its wing, a memory key slot, or the key of a region of the engine's own (R210). -/
inductive CtxKey where
  | sa (sai : Nat)
  | slot (k : Nat)
  | store (r : Nat)
deriving DecidableEq, Repr

/-- An item assigned to a lane or waiting in the dispatcher: slots left of the slots it costs (R150). `own` says that it came
back from a lent lane and goes to its own wing's lanes alone (R160). -/
structure LItem where
  of : ItemOf
  key : CtxKey
  wing : Wing
  cls : Nat
  cost : Nat
  left : Nat
  own : Bool := false
deriving DecidableEq, Repr

/-- A token of a lane (R28): one 128-bit block, and the context tag that names what the block belongs to, the frame or line and
the place of the block in it, its class, and the wing and port it came from. -/
structure Token where
  block : BitVec 128
  key : CtxKey
  of : ItemOf
  ix : Nat
  cls : Nat
  wing : Wing
  port : Nat
deriving DecidableEq, Repr

/-- Whether a lane is in service, an understudy or struck (R152). -/
inductive LaneSt where
  | inService | understudy | struck
deriving DecidableEq, Repr

/-- A cipher lane: oldest assigned item first, and the token that it accepted last. -/
structure LaneRec where
  st : LaneSt
  closing : Bool := false
  testing : Bool := false
  items : List LItem := []
  tok : Option Token := none
deriving DecidableEq, Repr

/-- CLASS_CFG (R153), with its defaults. -/
structure ClassCfg where
  leadLanes : Nat := 2
  fullHouse : Bool := false
  leadPolice : Bool := false
  lendOut : Nat := 0
  weight1 : Nat := 6
  weight2 : Nat := 3
  weight3 : Nat := 1
deriving DecidableEq, Repr

/-- A wing's dispatcher: waiting items, the round of R156 (deficits, the weights the round began with (R173), the
class whose turn it is, whether its turn is still to begin), the Lead window and the Lead misses (R168, R169), how many
understudies are still to be promoted (R352), and the items on lanes of a far wing that has declared the bridge lost (R333, R334). -/
structure Disp where
  wait : List LItem := []
  stray : List LItem := []
  deficit : Vector Nat 3 := Vector.replicate 3 0
  wts : Vector Nat 3 := #v[6, 3, 1]
  turn : Fin 3 := 0
  fresh : Bool := true
  lead : List (Nat × Nat) := []
  overAt : Option Nat := none
  missAt : Option Nat := none
  misses : Nat := 0
  firstMiss : Nat × Nat := (0, 0)
  declaredAt : Option Nat := none
  need : Nat := 0
deriving DecidableEq, Repr

/-! ## Keys and the vault -/

/-- KEY_ATTR (R252). -/
structure KeyAttr where
  ktype : Nat := 0
  clsB : Bool := false
  generated : Bool := false
  expireReset : Bool := false
  world0 : Bool := false
  world1 : Bool := false
  lcAllowed : Nat := 0
  wrapOut : Bool := false
  usage : Nat := 0
  groups : Nat := 0
  useLimit : Nat := 0
  expiryS : Nat := 0
deriving DecidableEq, Repr

/-- A key cell with its 32-byte KEY and 12-byte SALT fields (R253), its uses (R255) and the RT of its entry.
`closeAt` is set while the cell closes (R274). -/
structure Key where
  attr : KeyAttr
  key : Bytes
  salt : Bytes
  uses : Nat := 0
  at' : Nat := 0
  spent : Bool := false
  closeAt : Option Nat := none
deriving DecidableEq, Repr

/-- A memory key slot (R247): a reference to a Class A cell, or a key of its own; which wing copies are written. -/
structure Slot where
  ref : Option Nat
  key : Option Key
  inSl : Bool := true
  inSr : Bool := true
  closeAt : Option Nat := none
deriving DecidableEq, Repr

/-- A tamper detection answered (R293): its level, its retention Call Board entry and the same event for each wing's
Call Board. -/
structure Detected where
  level : Nat
  rcb : List Word
  sl : List Word
  sr : List Word
deriving DecidableEq, Repr

/-- A fuse move being burnt (R281): logical bit and the copy, 0 to 2, being burnt; whether it has been stopped, so that
no further copy follows; and the detections whose effects follow the move. -/
structure Burn where
  bit : Nat
  copy : Nat
  stopped : Bool := false
  after : List Detected := []
deriving DecidableEq, Repr

/-- A journal record waiting at the arbiter (R265). -/
inductive JReq where
  | roots (rs : List Nat)
deriving DecidableEq, Repr

/-- A fuse bit held as three physical copies (R277). -/
structure LcBit where
  c0 : Bool := false
  c1 : Bool := false
  c2 : Bool := false
deriving DecidableEq, Repr

/-- The keys the vault derives with ROOT or the WKR (R243). -/
structure Derived where
  wkr : Option Bytes := none
  attest : Option Nat := none
  trans : Option Nat := none
  ret : Option Bytes := none
  saStore : Option Bytes := none
  saTree : Option Bytes := none
  saSpill : Option Bytes := none
  rhlLog : Option Bytes := none
  rhlSpill : Option Bytes := none
  rhlTree : Option Bytes := none
deriving DecidableEq, Repr

/-- One line of a loop pair or one shield net: its LFSR and the last 32 chips as (drive, pull, sample). -/
structure LineCode where
  lfsr : BitVec 64 := 0
  chips : List (Bool × Bool × Bool) := []
deriving DecidableEq, Repr

/-- The vault VLT (R22). `lcCode` and `lcSeq` are the state code and LC_SEQ of the context in force (R237), `cond`
the condition each source 0x0 to 0x9 reads (R289) and `normalAt` the RT since when it reads NORMAL; `pendingSleep`
holds the levels of detections made in sleep (R303), `dip` a condition of GLITCH_V that is answered once VDDV is back in
its range. `setLost` says that the settings in the SRAM are lost, `setNow` holds those in effect since the last detection window
(R297), `toApply` what a COMMITTED KUM record still has to do: its action, KEY_ID and counter (R266). `perm` is the permutation of
the key cells, `maskDraw` the number of the draw that masks them (R250), `chipAt` the vault time of the last chip (R290). -/
structure Vault where
  lc : Vector LcBit 20 := (Vector.replicate 20 {}).set 0 ⟨true, true, true⟩
  lcCode : Nat := 2
  lcSeq : Nat := 1
  epoch : Nat := 0
  owner : Vector (Option Bytes) 4 := Vector.replicate 4 none
  sram : List Host.Cell := []
  sramLost : Bool := true
  setLost : Bool := true
  setNow : List Nat := []
  toApply : Option (Nat × Nat × Nat) := none
  rcbFill : Nat := 0
  rcbUnread : Bool := false
  keys : Derived := {}
  bootNonce : Bytes := []
  classA : Vector (Option (Nat × Key)) 64 := Vector.replicate 64 none
  slots : Tbl Slot := []
  sess : Tbl Key := []
  drbgOk : Bool := false
  drbgN : Nat := 0
  reseedAt : Nat := 0
  maskAt : Nat := 0
  maskDraw : Nat := 0
  perm : Bytes := []
  rt : Nat := 0
  rtCopy : Nat := 0
  rtLive : Bool := false
  epochCopy : Nat := 0
  vtimer : Nat := 0
  vtCopy : Nat := 0
  msBase : Nat := 0
  sleepTs : Ts := {}
  sleepValid : Bool := false
  lines : Vector LineCode 24 := Vector.replicate 24 {}
  chipN : Nat := 0
  chipAt : Nat := 0
  cond : Vector Nat 10 := Vector.replicate 10 0
  normalAt : Vector Nat 10 := Vector.replicate 10 0
  hold : Bool := false
  pendingSleep : List Nat := []
  dip : Option Nat := none
  burn : Option Burn := none
  jq : List JReq := []
  markSl : Option Nat := none
  markSr : Option Nat := none
  pathLostSl : Bool := false
  pathLostSr : Bool := false
deriving DecidableEq, Repr

/-! ## Time -/

/-- Prompt states (R308). -/
inductive PrmState where
  | unset | locked | holdover
deriving DecidableEq, Repr

/-- PRM_CFG (R309), with its defaults. -/
structure PrmCfg where
  clkHz : Nat := 0
  holdoverMs : Nat := 2000
  alarmNs : Nat := 1000000
  useLock : Bool := true
deriving DecidableEq, Repr

/-- A wing's Prompt (R308 to R313): `t` is its time in units of 2^-32 ns, F and R in units of 10^-12.
`armed` counts the steps that wait for an edge (R313), `ratio` is the clock ratio last measured (R312), `edges` the edges of
TOD_x_CLK since the last PPS edge and `edgeRt` the RT of the last (R326). -/
structure Prompt where
  st : PrmState := .unset
  t : Nat := 0
  epoch : Nat := 1
  f : Int := 0
  r : Int := 0
  theta : Int := 0
  cfg : PrmCfg := {}
  usedT : Option Int := none
  usedRt : Nat := 0
  ppsRt : Option Nat := none
  skipF : Bool := true
  armed : Nat := 0
  clkLost : Bool := false
  ratio : Int := 0
  edges : Nat := 0
  edgeRt : Nat := 0
  holdFlag : Bool := false
  largeRt : Option Nat := none
  resid : Int := 0
deriving DecidableEq, Repr

/-- TOUT_CFG (R323) of a cue, its pin, its pulse and its next firing. -/
structure Cue where
  mode : Nat := 0
  polarity : Bool := false
  outEn : Bool := false
  widthNs : Nat := 0
  periodNs : Nat := 0
  start : Ts := {}
  next : Option Nat := none
  pulse : Option Nat := none
  pulsePol : Bool := false
  pulseEn : Bool := false
deriving DecidableEq, Repr

/-- A timestamp export record (R320). -/
structure TsRec where
  port : Nat
  inb : Bool
  mtype : Nat
  domain : Nat
  seqId : Nat
  ingress : Ts
  egress : Ts
  resid : Int
deriving DecidableEq, Repr

/-! ## Repair -/

/-- WEAR_CFG (R347), with its defaults. -/
structure WearCfg where
  warn : Nat := 1000
  strike : Nat := 400
  period : Nat := 600
  autoStrike : Bool := true
  promoteEn : Bool := true
deriving DecidableEq, Repr

/-- The wear record of one monitored unit (R349) and its history. `low` is the lowest sample of the check
period, `fresh` whether one has been taken in it (without one the latest of before stands, assumption 36), `below` the count of consecutive samples under STRIKE_MARGIN; the margins mean something once it is `sampled`. -/
structure WearRec where
  sampled : Bool := false
  margin : Nat := 0
  mmin : Nat := 0
  start : Nat := 0
  low : Nat := 0
  fresh : Bool := false
  below : Nat := 0
  warned : Bool := false
  critical : Bool := false
  changed : Ts := {}
  hist : List Nat := []
deriving DecidableEq, Repr

/-- A control core (R356 to R358, R388): `beatAt` is the RT of its last heartbeat, `reloadAt` the RT at which it began to load
an image, `hash` the BODY_HASH of the image it runs. -/
structure Core where
  struck : Bool := false
  lost : Bool := false
  reloading : Bool := false
  running : Bool := false
  reloadAt : Nat := 0
  beats : Nat := 0
  beatAt : Nat := 0
  missed : Nat := 0
  armed : Bool := false
  got : Nat := 0
  suspended : Bool := false
  hash : Bytes := []
deriving DecidableEq, Repr

/-- A Script update (R359): the new image, and the step 2 to 6 it stands at (0: none). `hand` is the handover in
progress, commanded or of the update: 0 CC-L to CC-R, 1 CC-R to CC-L, 2 each wing to its own core (R358). -/
structure Update where
  step : Nat := 0
  hand : Option Nat := none
  image : Tbl Word := []
  hash : Bytes := []
deriving DecidableEq, Repr

/-! ## Rehearsal -/

/-- Logger states (R404). -/
inductive RhlState where
  | off | trace | record | frozen | snapshot | replaying | replayDone | replayDiverged
deriving DecidableEq, Repr

/-- A record (R398): type, DT, the bytes of its clear fields, those of its sealed fields, and its length in words. How the
fields lie past word 0 the manual does not say (DESIGN CHOICE, assumption 20). -/
structure RRec where
  type : Nat
  dt : Nat
  clear : Bytes
  sealed : Bytes
  words : Nat
deriving DecidableEq, Repr

/-- A block (R399). -/
structure RBlock where
  seq : Nat
  rt0 : Nat
  before : Nat
  recs : List RRec := []
deriving DecidableEq, Repr

/-- RHL_CFG settings kept while recording (R395). -/
structure RhlCfg where
  headerBytes : Nat := 2
  grants : Bool := false
  freezeMask : Nat := 0x3F
  postBlocks : Nat := 64
  portMask : Nat := 0
  rqpMask : Nat := 0
  ctrl : Bool := false
  record : Bool := false
deriving DecidableEq, Repr

/-- A wing's Rehearsal logger: `full` holds the ring's closed blocks, `spilled` those written to the spill, the snapshot's first,
`image` the BODY_HASH of the image that served the wing at the START (R405). In replay `playKey` is the log key, `playRt` the RT
of the record reached, and `standIns` the keys bound in place of those that VAULT records name (R408). -/
structure Rhl where
  st : RhlState := .off
  cfg : RhlCfg := {}
  cause : Nat := 0
  held : Bool := false
  logId : Nat := 0
  full : List RBlock := []
  cur : RBlock := { seq := 0, rt0 := 0, before := 0 }
  spilled : List RBlock := []
  spillCap : Nat := 0
  nRecs : Nat := 0
  grants : Tbl (List Bool) := []
  lastRt : Nat := 0
  post : Option Nat := none
  postBits : Nat := 0
  afterSnap : Option Nat := none
  targetDid : Bytes := []
  targetReady : Bool := false
  wrap : Bytes := []
  image : Bytes := []
  consumed : Nat := 0
  lastCheck : Nat := 0
  playKey : Bytes := []
  playRt : Nat := 0
  standIns : List (Bytes × Bytes) := []
deriving DecidableEq, Repr

/-! ## Mailboxes -/

/-- What a command of class W, or one answered by a later event, waits for; `join` holds the RT at which the JOIN was accepted
(R340). -/
inductive Wait where
  | port (p : Fin 64) | rqp (q : Fin 4) | sa (sai : Nat) | region (r : Fin 64) | pin (r : Fin 64)
  | classA (id : Nat) | key (ref : Nat) | ptCommit (w : Wing) (both : Bool) (res : List Word)
  | ushCommit (w : Wing) (both : Bool) | strike (u : UnitId) | handover (way : Nat)
  | join (at' : Nat) | box | burn
deriving DecidableEq, Repr

/-- A queue place's progress (R365). -/
inductive PPhase where
  | queued
  | running (c : Wait)
  | answered (status : Status) (payload : List Word)
deriving DecidableEq, Repr

/-- A command holding a queue place: its words, the owner recorded at its doorbell, the RT of its acceptance, and the
ownership a CHAN_OWN sets when its response is written: channel, group, world (R368). -/
structure Place where
  words : List Word
  group : Nat
  world : Bool
  at' : Nat := 0
  phase : PPhase := .queued
  own : Option (Fin 8 × Nat × Bool) := none
deriving DecidableEq, Repr

/-- The staged effect of a command marked V (R372). -/
inductive Eff where
  | portCls (p : Fin 64) (c : PortCls)
  | portSp (p : Fin 64) (c : PortSp)
  | ptp (p : Fin 64) (c : PtpCfg)
  | mpTimeout (m : Fin 4) (us : Nat)
  | closeTimeout (w : Wing) (region : Bool) (us : Nat)
  | saInstall (sai : Nat) (r : SaRec) (pn : Nat)
  | saModify (sai mask : Nat) (r : SaRec) (pn : Nat)
  | meshEtype (w : Wing) (e : Nat)
  | boxTtl (w : Wing) (s : Nat)
  | grqTimeout (w : Wing) (q : Fin 3) (us : Nat)
  | classCfg (w : Wing) (c : ClassCfg)
  | prmCfg (w : Wing) (c : PrmCfg)
  | setOffset (w : Wing) (ns : Int) (frac : Nat)
  | cue (c : Fin 16) (t : Cue)
  | wearCfg (w : Wing) (c : WearCfg)
  | rhlStop (w : Wing)
  | rhlStart (w : Wing) (c : RhlCfg)
  | rhlTarget (w : Wing) (did pub : Bytes)
deriving DecidableEq, Repr

/-- A mailbox channel MBXn (R365 to R370, R384): `staged` holds each staged effect with the wing it concerns, `closing`
the RT since when the channel closes for a handover (R344), `mapNext` the wing that CHAN_MAP maps it to once its
commands accepted before are answered (R328), `opSeen` whether word 0 of the request now being written has been (R397). -/
structure Chan where
  req : Vector Word 64 := Vector.replicate 64 0
  rsp : Vector Word 64 := Vector.replicate 64 0
  opSeen : Bool := false
  reqBusy : Bool := false
  rspValid : Bool := false
  overrun : Bool := false
  bellGroup : Nat := 0
  bellWorld : Bool := false
  queue : List Place := []
  expect : BitVec 16 := 0
  ownGroup : Nat := 0
  ownWorld : Bool := false
  locked : Bool := false
  mapWing : Wing := .sl
  mapNext : Option Wing := none
  served : CoreId := .l
  irqEn : Word := 0
  evFree : Bool := false
  evSaSl : Bool := false
  evSaSr : Bool := false
  staged : List (Wing × Eff) := []
  closing : Option Nat := none
  kum : Tbl Word := []
  stmt : List Word := []
  icv : Bytes := []
deriving DecidableEq, Repr

/-- A wing's Call Board (R389): the ring by index, each entry of 8 words. -/
structure Cbd where
  head : BitVec 16 := 0
  tail : BitVec 16 := 0
  lost : Bool := false
  tailErr : Bool := false
  lostCount : Nat := 0
  ring : Tbl (List Word) := []
  shadow : List Word := List.replicate 8 0
deriving DecidableEq, Repr

/-! ## The wing and the whole block -/

/-- Link states (R329). -/
inductive Link where
  | joined | partitioned | farLost | rejoinReady
deriving DecidableEq, Repr

/-- A wing. `cnt` follows the wing order of R375 from LEAD_OVER on; `ownq` holds the engine's own accesses still to be made, each
with its class and whether it found its region's descriptor failing parity (R36), `ownres` what they came to (status and bytes
read), `kcache` the session keys in the wing's key cells, the longest there first (R247), `kspill` those it has spilled and
`klost` those whose copy it has lost (R249), and `struck` the names of struck units that have no spare (R26). -/
structure WingSt where
  link : Link := .joined
  failed : Bool := false
  ready : Bool := false
  headless : Bool := false
  served : CoreId := .l
  lastTok : Nat := 0
  tokRun : Nat := 0
  farOk : Bool := false
  parTimes : List Nat := []
  admSeq : Nat := 0
  cbd : Cbd := {}
  trie : Trie := {}
  meshEtype : Nat := 0x88B5
  box : Box := {}
  unkeyedTtl : Nat := 10
  grq : Grq := {}
  evtRoute : Vector (Option (Fin 8)) 5 := Vector.replicate 5 none
  sas : Tbl Sa := []
  saTimeout : Nat := 10000
  regTimeout : Nat := 10000
  store : Option (Fin 64) := none
  ownq : List (OwnUse × Nat × Bool) := []
  ownres : List (OwnUse × Nat × Bytes) := []
  kcache : List Nat := []
  kspill : List Nat := []
  klost : List Nat := []
  classCfg : ClassCfg := {}
  disp : Disp := {}
  mpe : Mpe := {}
  ush : Usher := {}
  prm : Prompt := {}
  tsq : List TsRec := []
  wearCfg : WearCfg := {}
  wearAt : Nat := 0
  wearN : Nat := 0
  struck : List Nat := []
  rhl : Rhl := {}
  cnt : Vector Nat 27 := Vector.replicate 27 0
deriving DecidableEq, Repr

/-- A wing's replayable state, as a snapshot keeps it (R396): SA records and windows, trie and SA groups, Box Office entries
and seeds, Usher banks, region descriptors, metadata cache and lock array, CLASS_CFG and lane roles, Green Room, Prompt, and
the Script's settings. -/
structure Snap where
  sas : Tbl Sa
  trie : Trie
  box : Box
  ush : Usher
  regions : List (Nat × Region)
  mpe : Mpe
  classCfg : ClassCfg
  lanes : List LaneSt
  grq : Grq
  prm : Prompt
  meshEtype : Nat
  unkeyedTtl : Nat
  saTimeout : Nat
  regTimeout : Nat
  evtRoute : Vector (Option (Fin 8)) 5
  wearCfg : WearCfg
deriving DecidableEq, Repr

/-- Supplies, power pins (R412 to R424) and the reset pins of the control port, the time-of-day inputs and the test access
port, true while asserted (R48, R71, R78). -/
structure Power where
  vddc : Bool := true
  vddv : Bool := true
  vddh : Bool := true
  fuseVpp : Bool := true
  coreRst : Bool := true
  holdOver : Bool := true
  presentAt : Nat := 0
  slpReq : Bool := false
  slpAck : Bool := false
  entering : Bool := false
  saving : Bool := false
  late : Bool := false
  cpRst : Bool := false
  todRstSl : Bool := false
  todRstSr : Bool := false
  trst : Bool := false
deriving DecidableEq, Repr

/-- Where start-up stands (R283 to R287). -/
inductive BootPhase where
  | off | held (status : Status) | rom | loading | ready
deriving DecidableEq, Repr

/-- Start-up and the image presented to the boot ROM (R285). -/
structure Boot where
  phase : BootPhase := .off
  image : Tbl Word := []
  hash : Bytes := []
  scriptLevel : Nat := 0
  stambe : Nat := 0
deriving DecidableEq, Repr

/-- System registers (R386, R387, R391). -/
structure Sys where
  line : Vector Nat 8 := Vector.ofFn fun i => i.val
  lock : Bool := false
  alarm : Nat := 0
  zEn : Bool := true
  zStep : Nat := 0
  zMid : Nat := 0
  zWorld : Bool := false
  zAborts : Nat := 0
  zFired : Bool := false
  rdata : Word := 0
  err : Bool := false
deriving DecidableEq, Repr

/-- The test access port (R78): instruction in force (0 BYPASS, 1 IDCODE, 2 SAMPLE/PRELOAD, 3 EXTEST, 4 private; IDCODE from
its reset on), bypass bit, identification register, boundary cells, whether the boundary drives the pins (EXTEST), and the
bits shifted out on TDO. -/
structure Tap where
  ir : Nat := 1
  bypass : Bool := false
  idreg : Word := 0
  cells : List Bool := []
  drive : Bool := false
  tdo : List Bool := []
deriving DecidableEq, Repr

/-- Reasons a step stops with a fault: none is needed, for the block reports every error as a status, an event
or a held state (INVENTORY.md, Faults). The one constructor is raised by nothing and so is safe. -/
inductive Fault where
  /-- Raised by no meaning; safe. -/
  | unreachable
deriving DecidableEq, Repr

/-- Reasons a command has no meaning in the model. -/
inductive Refusal where
  /-- Raised by an arm of `exec` whose command has no meaning yet; safe. -/
  | notModelled (mnemonic : String)
  /-- Raised by TEST_ACCESS in BLANK: the manual does not say what Faneam's private scan and self-test
  instructions do there (R78); safe. -/
  | privateTest
deriving DecidableEq, Repr

/-- The state of the block. -/
structure State where
  pending : List Instr
  freeCtr : Nat
  pwr : Power
  boot : Boot
  vlt : Vault
  sl : WingSt
  sr : WingSt
  ports : Vector Port 64
  rqps : Vector RqPort 4
  mps : Vector MPort 4
  lanes : Vector LaneRec 28
  regions : Vector Region 64
  cues : Vector Cue 16
  chans : Vector Chan 8
  sys : Sys
  cores : Vector Core 2
  upd : Update
  spill : Option (Fin 64)
  wear : Tbl WearRec
  rows : Tbl (List (Nat × Nat))
  rowErrs : List (Nat × Nat × Nat)
  upsets : List Ent
  tap : Tap
deriving DecidableEq, Repr

/-- A lane after reset (R27): CL0–CL11 and CL14–CL25 in service, the others understudies. -/
def LaneRec.atReset (l : Fin 28) : LaneRec :=
  { st := if l.val % 14 < 12 then .inService else .understudy }

/-- A channel after reset (R384): served and mapped by SL for MBX0–MBX3 and by SR otherwise. -/
def Chan.atReset (n : Fin 8) : Chan :=
  { mapWing := if n.val < 4 then .sl else .sr, served := if n.val < 4 then .l else .r }

/-- The machine right after reset: CORE_RST_N asserted with every supply in range, in the state in which
Faneam ships the macro (R279), every register at its Reset column (assumptions 4, 5, 7, 8). -/
def State.reset : State :=
  { pending := [], freeCtr := 0, pwr := {}, boot := {}, vlt := {}, sl := {}, sr := { served := .r },
    ports := Vector.replicate 64 {}, rqps := Vector.replicate 4 {}, mps := Vector.replicate 4 {},
    lanes := Vector.ofFn LaneRec.atReset, regions := Vector.replicate 64 {}, cues := Vector.replicate 16 {},
    chans := Vector.ofFn Chan.atReset, sys := {}, cores := Vector.replicate 2 {}, upd := {}, spill := none,
    wear := [], rows := [], rowErrs := [], upsets := [], tap := {} }

end Sys2Proof.Machine
end

