-- ==== Sys2Proof/Machine/Flags.lean ====
section
/-! DEFINITION. The codes of statuses (R376), of Call Board events (R378), of alarm causes (R387) and the places of
the counts of R375. -/

namespace Sys2Proof.Machine

/-- The code of a status (R376). -/
def Status.code : Status → Nat
  | .ok => 0x00
  | .alreadyCommitted => 0x01
  | .malformed => 0x02
  | .unknownOpcode => 0x03
  | .seqError => 0x04
  | .notPermitted => 0x05
  | .notFound => 0x06
  | .unitClosing => 0x07
  | .wingUnreachable => 0x08
  | .coreLost => 0x09
  | .channelClosed => 0x0A
  | .lcRefused => 0x0B
  | .lcAbort => 0x0C
  | .tamperAbort => 0x0D
  | .tamperHold => 0x0E
  | .ironHeld => 0x0F
  | .portAbsent => 0x10
  | .chanLocked => 0x11
  | .storeAbsent => 0x12
  | .alreadyExists => 0x13
  | .saInvalid => 0x20
  | .pinFull => 0x21
  | .nextAbsent => 0x22
  | .keyInUse => 0x23
  | .trieFull => 0x24
  | .trieNodesBusy => 0x25
  | .ptStageFull => 0x26
  | .boxFull => 0x27
  | .boxInvalid => 0x28
  | .grqGone => 0x29
  | .classCfgInvalid => 0x2A
  | .regionInvalid => 0x40
  | .regionOverlap => 0x41
  | .protectedFull => 0x42
  | .resumeMismatch => 0x43
  | .ushRuleInvalid => 0x44
  | .ushOverlap => 0x45
  | .ushDrainTimeout => 0x46
  | .keyRefused => 0x60
  | .keySpent => 0x61
  | .keySlotBusy => 0x62
  | .unwrapFail => 0x63
  | .entropyFail => 0x64
  | .blobInvalid => 0x65
  | .blobStale => 0x66
  | .classALoaded => 0x67
  | .classAFull => 0x68
  | .kumMalformed => 0x69
  | .kumWrongDevice => 0x6A
  | .kumStale => 0x6B
  | .kumOwner => 0x6C
  | .kumSignature => 0x6D
  | .kumRollback => 0x6E
  | .kumUnwrap => 0x6F
  | .kumAttr => 0x70
  | .ownerSlotsSpent => 0x71
  | .keyPathLost => 0x72
  | .lcMovesSpent => 0x80
  | .fuseRailAbsent => 0x81
  | .lcFuseInvalid => 0x82
  | .epochExhausted => 0x83
  | .tamperAtBoot => 0x84
  | .katFail => 0x85
  | .imageInvalid => 0x86
  | .tamperActive => 0x87
  | .tamperLocked => 0x88
  | .notIroned => 0x89
  | .prmUnset => 0xA0
  | .toutInvalid => 0xA1
  | .toutEpoch => 0xA2
  | .toutPast => 0xA3
  | .wearCfgInvalid => 0xB0
  | .noSpare => 0xB1
  | .coreStruck => 0xB2
  | .updateIncompatible => 0xB3
  | .rhlState => 0xB4

/-- Call Board events (R378). -/
inductive Ev where
  | notOpen | creditViolation | creditOverflow | portClockLost | portResetWhileOpen
  | mpStray | learned | stationConflict | boxParity | slotRepaired
  | ptParity | grqSummary | lsHoldLimit | portMismatch | pnThreshold
  | saSwitched | pnExhausted | saClosed | saStoreTag | saParity
  | leaseHold | laneStruck | lanesShort | leadBoundMiss | noRegion
  | regionReady | memTagFail | treeTagFail | linePoisoned | poisonCleared
  | tagRepaired | repairFailed | pageReencrypted | majorExhausted | keyDenied
  | metaMemErr | regionInitFail | ushFault | ushFaultSummary | ushCommitFail
  | ushParity | mgMismatch | kumRejected | keySpillFail | keyParity
  | keySpent | entropyFail | keyPathLost | lcMoved | tamper
  | iron | retentionLost | tamperSettingsReset | epochBurnt | testAccess
  | prmAcquired | prmOffsetLarge | prmHoldover | prmClockLost | prmRelocked
  | prmStep | toutLate | partition | linkState | bridgeRestored
  | wearWarning | wearCritical | rowRemapped | rowsExhausted | bankStruck
  | unitStruck | unitClosed | coreTakeover | coreHandover | updateDone
  | updateAborted | updatePartial | coreStruck | rhlFrozen | hostMark
deriving DecidableEq, Repr

/-- The code of an event (R378). -/
def Ev.code : Ev → Nat
  | .notOpen => 0x01
  | .creditViolation => 0x02
  | .creditOverflow => 0x03
  | .portClockLost => 0x04
  | .portResetWhileOpen => 0x05
  | .mpStray => 0x06
  | .learned => 0x07
  | .stationConflict => 0x08
  | .boxParity => 0x09
  | .slotRepaired => 0x0A
  | .ptParity => 0x0B
  | .grqSummary => 0x0C
  | .lsHoldLimit => 0x0D
  | .portMismatch => 0x0E
  | .pnThreshold => 0x10
  | .saSwitched => 0x11
  | .pnExhausted => 0x12
  | .saClosed => 0x13
  | .saStoreTag => 0x14
  | .saParity => 0x15
  | .leaseHold => 0x16
  | .laneStruck => 0x18
  | .lanesShort => 0x19
  | .leadBoundMiss => 0x1A
  | .noRegion => 0x20
  | .regionReady => 0x21
  | .memTagFail => 0x22
  | .treeTagFail => 0x23
  | .linePoisoned => 0x24
  | .poisonCleared => 0x25
  | .tagRepaired => 0x26
  | .repairFailed => 0x27
  | .pageReencrypted => 0x28
  | .majorExhausted => 0x29
  | .keyDenied => 0x2A
  | .metaMemErr => 0x2B
  | .regionInitFail => 0x2C
  | .ushFault => 0x30
  | .ushFaultSummary => 0x31
  | .ushCommitFail => 0x32
  | .ushParity => 0x33
  | .mgMismatch => 0x34
  | .kumRejected => 0x40
  | .keySpillFail => 0x41
  | .keyParity => 0x42
  | .keySpent => 0x43
  | .entropyFail => 0x44
  | .keyPathLost => 0x45
  | .lcMoved => 0x46
  | .tamper => 0x47
  | .iron => 0x48
  | .retentionLost => 0x49
  | .tamperSettingsReset => 0x4A
  | .epochBurnt => 0x4B
  | .testAccess => 0x4C
  | .prmAcquired => 0x50
  | .prmOffsetLarge => 0x51
  | .prmHoldover => 0x52
  | .prmClockLost => 0x53
  | .prmRelocked => 0x54
  | .prmStep => 0x55
  | .toutLate => 0x56
  | .partition => 0x60
  | .linkState => 0x61
  | .bridgeRestored => 0x62
  | .wearWarning => 0x68
  | .wearCritical => 0x69
  | .rowRemapped => 0x6A
  | .rowsExhausted => 0x6B
  | .bankStruck => 0x6C
  | .unitStruck => 0x6D
  | .unitClosed => 0x6E
  | .coreTakeover => 0x6F
  | .coreHandover => 0x70
  | .updateDone => 0x71
  | .updateAborted => 0x72
  | .updatePartial => 0x73
  | .coreStruck => 0x74
  | .rhlFrozen => 0x78
  | .hostMark => 0x7F

/-- Alarm causes (R387). -/
inductive Alarm where
  | memIntegrity | access | key | tamper | wing
  | wear
deriving DecidableEq, Repr

/-- The bit of a cause in ALARM_CAUSE (R387). -/
def Alarm.bit : Alarm → Nat
  | .memIntegrity => 0
  | .access => 1
  | .key => 2
  | .tamper => 3
  | .wing => 4
  | .wear => 5

/-- Counts of a stream port, in the order of R375. -/
inductive PCnt where
  | hsStrayBeat | hsTruncated | hsLenMismatch | hsLenInvalid | hsHoldRsnReserved
  | lsStrayBeat | lsTruncated | lsLenMismatch | lsLenInvalid | lsHoldRsnReserved
  | lsErr | noSa | noKey | noMatch | policyDiscard
  | ptParity | sectagInvalid | fragment | notSecured | blocked
  | insertFail | stationConflict | boxParity | growthOversize | lsHoldLimit
  | portMismatch | saFormat
deriving DecidableEq, Repr

/-- The place of a port count (R375). -/
def PCnt.ix : PCnt → Fin 27
  | .hsStrayBeat => 0
  | .hsTruncated => 1
  | .hsLenMismatch => 2
  | .hsLenInvalid => 3
  | .hsHoldRsnReserved => 4
  | .lsStrayBeat => 5
  | .lsTruncated => 6
  | .lsLenMismatch => 7
  | .lsLenInvalid => 8
  | .lsHoldRsnReserved => 9
  | .lsErr => 10
  | .noSa => 11
  | .noKey => 12
  | .noMatch => 13
  | .policyDiscard => 14
  | .ptParity => 15
  | .sectagInvalid => 16
  | .fragment => 17
  | .notSecured => 18
  | .blocked => 19
  | .insertFail => 20
  | .stationConflict => 21
  | .boxParity => 22
  | .growthOversize => 23
  | .lsHoldLimit => 24
  | .portMismatch => 25
  | .saFormat => 26

/-- Counts of a wing, in the order of R375. -/
inductive WCnt where
  | leadOver | leadDemoted | leadLate | leadCrossWing | leadReencWait
  | ush1 | ush2 | ush3 | ush4 | ush5
  | ush6 | ush7 | ush8 | ushFaultDropped | commits
  | commitFailed | ushParity | kumRejected | blobStale | keySpent
  | keyParity | leaseGrants | ppsIgnored | todUnlockedEdge | tsExportDropped
  | toutSkipped | brgParity
deriving DecidableEq, Repr

/-- The place of a wing count (R375). -/
def WCnt.ix : WCnt → Fin 27
  | .leadOver => 0
  | .leadDemoted => 1
  | .leadLate => 2
  | .leadCrossWing => 3
  | .leadReencWait => 4
  | .ush1 => 5
  | .ush2 => 6
  | .ush3 => 7
  | .ush4 => 8
  | .ush5 => 9
  | .ush6 => 10
  | .ush7 => 11
  | .ush8 => 12
  | .ushFaultDropped => 13
  | .commits => 14
  | .commitFailed => 15
  | .ushParity => 16
  | .kumRejected => 17
  | .blobStale => 18
  | .keySpent => 19
  | .keyParity => 20
  | .leaseGrants => 21
  | .ppsIgnored => 22
  | .todUnlockedEdge => 23
  | .tsExportDropped => 24
  | .toutSkipped => 25
  | .brgParity => 26

end Sys2Proof.Machine
end

