-- ==== Sys2Proof/Config.lean ====
section
/-! DEFINITION. What one implementation fixes, and the free values: opaque constants that no proof can evaluate. -/

namespace Sys2Proof.Config

/-- A value the manual leaves open, fresh for each value of the counter `State.freeCtr` (assumption 2). -/
opaque freeValue : Nat → Nat

/-- The n-th output of the vault's CTR_DRBG (R270), fed by an entropy source: random, so free. -/
opaque drbg : Nat → Nat

/-- The ROOT fuses (R236), burnt at the factory: 256 bits. -/
opaque root : BitVec 256

/-- The DID fuses (R236), burnt at the factory: 128 bits, byte 0 least significant. -/
opaque did : BitVec 128

/-- SHA-384 of the four Faneam Script public keys that the boot ROM holds (R286), as big-endian numbers. -/
opaque scriptKeyHash : Fin 4 → BitVec 384

/-- The mask of a physical key cell at a refresh, named by the number of its draw (R250): random, so free. -/
opaque maskOf : Nat → Nat → Nat

/-- The physical cell that a start-up's permutation, drawn as these bytes, gives a logical index of a key store (R250). -/
opaque cellAt : List (BitVec 8) → Nat → Nat → Nat

/-- The next state of a loop or shield LFSR (R290): the manual does not give its taps. -/
opaque lfsrNext : BitVec 64 → BitVec 64

/-- The pull of line `line` for the chip whose LFSR state is given (R290): chosen by the vault. -/
opaque chipPull : Nat → BitVec 64 → Bool

/-- The control entry whose stored parity the n-th tick upsets, if any (R36, R442). -/
opaque upset : Nat → Option Ent

/-- Whether TOD_x_CLK makes an edge in the nanosecond whose RT is given (R311); the flag is true for SR. -/
opaque todEdge : Bool → Nat → Bool

/-- The ratio of TOD_x_CLK to RT_OSC last measured at an RT, as a signed offset in units of 10^-12 (R312). -/
opaque todRatio : Bool → Nat → Int

/-- The KEYID of counter blocks in a region of the engine's own, whose lines have no KIX (R185, R210; assumption 46). -/
opaque storeKix : Nat

/-- The event code of a structure that R36 reports and R378 lists no code for, by its kind (assumption 47). -/
opaque entryCode : Nat → Nat

/-- Whether VDDC is under 0.60 V or Tj over 110 °C in the nanosecond whose RT is given (R166): no row of the table tells. -/
opaque pastLead : Nat → Bool

/-- Whether the bridge carries tokens to a wing (the flag is true for SR) in the nanosecond whose RT is given: no row of the
table tells when it fails or works again (assumption 38). -/
opaque bridgeUp : Bool → Nat → Bool

/-- The SRAM bank and row that hold a control entry (R354): the manual does not place them. -/
opaque rowOf : Ent → Nat × Nat

/-- The spare rows of an SRAM bank, 2 % of rows whose number the manual does not give (R354). -/
opaque spareRows : Nat → Nat

/-- The rows on the slowest path of an SRAM bank, as its monitor names them the n-th time it is asked (R354). -/
opaque slowRows : Nat → List Nat

/-- The SRAM banks of a wing that carry a margin monitor, whose number the manual does not give (R346). -/
opaque sramBanks : Nat

/-- The bytes of a section of a snapshot, 0 to 7 in the order of R396's list: the manual gives them no layout (assumption 37). -/
opaque snapBytes : Nat → Machine.Snap → List (BitVec 8)

/-- The n-th export image that external memory holds (R407). -/
opaque image : Nat → List (BitVec 8)

/-- The snapshot that the blocks of an image carry under a log key, if they do (R396, R407). -/
opaque snapOf : List (BitVec 8) → List (BitVec 8) → Option Machine.Snap

/-- What a replayed input leaves of a wing's replayable state, from that state, the record's type, its clear and its sealed bytes
(R408), if it changes it: the manual does not place the fields of a record (assumption 37). -/
opaque replayed : Machine.Snap → Nat → List (BitVec 8) → List (BitVec 8) → Option Machine.Snap

/-- The Call Board events that a replayed input gives (R408): event, unit, subject and two words. -/
opaque replayedEvents : Nat → List (Machine.Ev × Nat × Nat × Nat × Nat)

end Sys2Proof.Config
end

