-- ==== Sys2Proof/Machine/Crypto.lean ====
section
/-! DEFINITION. The cryptographic functions that the manual takes from the standards it names: AES (FIPS 197), GHASH
and GCM (NIST SP 800-38D), CMAC (SP 800-38B), key wrap (SP 800-38F, RFC 3394), the counter-mode KDF (SP 800-108),
SHA-384 (FIPS 180), ECDSA and ECDH on P-384 (FIPS 186-5, SP 800-56A), CRC-32C and CRC-32 (assumption 10). -/

namespace Sys2Proof.Machine

/-! ## Byte strings as numbers -/

/-- A byte string read as a number, first byte most significant. -/
def beNat (b : Bytes) : Nat := b.foldl (fun a x => a * 256 + x.toNat) 0

/-- The `k` low bytes of a number, most significant first. -/
def beBytes (k n : Nat) : Bytes := (List.range k).map fun i => BitVec.ofNat 8 (n >>> (8 * (k - 1 - i)))

/-- A byte string read as a number, first byte least significant (R6). -/
def leNat (b : Bytes) : Nat := b.foldr (fun x a => a * 256 + x.toNat) 0

/-- The `k` low bytes of a number, least significant first (R6). -/
def leBytes (k n : Nat) : Bytes := (List.range k).map fun i => BitVec.ofNat 8 (n >>> (8 * i))

/-- Bitwise exclusive or of two byte strings, to the length of the shorter. -/
def xorBytes (a b : Bytes) : Bytes := List.zipWith (· ^^^ ·) a b

/-- The ASCII bytes of a string. -/
def asciiBytes (s : String) : Bytes := s.toList.map fun c => BitVec.ofNat 8 c.toNat

/-- `b` cut or filled with zero bytes to `k` bytes. -/
def padTo (k : Nat) (b : Bytes) : Bytes := b.take k ++ List.replicate (k - b.length) 0

/-! ## AES -/

/-- The AES S-box as one number, entry 0 most significant. -/
def aesSboxTable : Nat :=
  0x637c777bf26b6fc53001672bfed7ab76ca82c97dfa5947f0add4a2af9ca472c0b7fd9326363ff7cc34a5e5f171d8311504c723c31896059a071280e2eb27b27509832c1a1b6e5aa0523bd6b329e32f8453d100ed20fcb15b6acbbe394a4c58cfd0efaafb434d338545f9027f503c9fa851a3408f929d38f5bcb6da2110fff3d2cd0c13ec5f974417c4a77e3d645d197360814fdc222a908846eeb814de5e0bdbe0323a0a4906245cc2d3ac629195e479e7c8376d8dd54ea96c56f4ea657aae08ba78252e1ca6b4c6e8dd741f4bbd8b8a703eb5664803f60e613557b986c11d9ee1f8981169d98e949b1e87e9ce5528df8ca1890dbfe6426841992d0fb054bb16

/-- The inverse S-box in the same form. -/
def aesInvTable : Nat :=
  0x52096ad53036a538bf40a39e81f3d7fb7ce339829b2fff87348e4344c4dee9cb547b9432a6c2233dee4c950b42fac34e082ea16628d924b2765ba2496d8bd12572f8f66486689816d4a45ccc5d65b6926c704850fdedb9da5e154657a78d9d8490d8ab008cbcd30af7e45805b8b34506d02c1e8fca3f0f02c1afbd0301138a6b3a9111414f67dcea97f2cfcef0b4e67396ac7422e7ad3585e2f937e81c75df6e47f11a711d29c5896fb7620eaa18be1bfc563e4bc6d279209adbc0fe78cd5af41fdda8338807c731b11210592780ec5f60517fa919b54a0d2de57a9f93c99cefa0e03b4dae2af5b0c8ebbb3c83539961172b047eba77d626e169146355210c7d

/-- The S-box. -/
def aesSbox (x : Nat) : Nat := (aesSboxTable >>> (8 * (255 - x))) % 256

/-- The inverse S-box. -/
def aesInvSbox (x : Nat) : Nat := (aesInvTable >>> (8 * (255 - x))) % 256

/-- Byte `i` of a 128-bit block, byte 0 most significant. -/
def blockByte (s i : Nat) : Nat := (s >>> (8 * (15 - i))) % 256

/-- A block from its bytes. -/
def blockOf (l : List Nat) : Nat := l.foldl (fun a x => a * 256 + x) 0

/-- SubWord of FIPS 197. -/
def aesSubWord (w : Nat) : Nat :=
  aesSbox (w >>> 24 % 256) <<< 24 ||| aesSbox (w >>> 16 % 256) <<< 16
    ||| aesSbox (w >>> 8 % 256) <<< 8 ||| aesSbox (w % 256)

/-- RotWord of FIPS 197. -/
def aesRotWord (w : Nat) : Nat := (w <<< 8 ||| w >>> 24) % 2 ^ 32

/-- The next `nk` words of the key schedule. -/
def aesNext (prev : List Nat) (rcon : Nat) : List Nat :=
  (prev.foldl (fun (acc : List Nat × Nat × Nat) p =>
    let u := if acc.2.2 = 0 then aesSubWord (aesRotWord acc.2.1) ^^^ (rcon <<< 24)
      else if prev.length = 8 ∧ acc.2.2 = 4 then aesSubWord acc.2.1 else acc.2.1
    let w := p ^^^ u
    (acc.1 ++ [w], w, acc.2.2 + 1)) ([], prev.getLastD 0, 0)).1

/-- The key schedule as words. -/
def aesWords : List Nat → List Nat → List Nat
  | prev, [] => prev
  | prev, r :: rs => prev ++ aesWords (aesNext prev r) rs

/-- Words of the schedule gathered into round keys. -/
def aesGroup : List Nat → List Nat
  | a :: b :: c :: d :: rest => (a <<< 96 ||| b <<< 64 ||| c <<< 32 ||| d) :: aesGroup rest
  | _ => []

/-- The round keys of a 16- or 32-byte key. -/
def aesKeys (key : Bytes) : List Nat :=
  let ws := (List.range (key.length / 4)).map fun i => beNat ((key.drop (4 * i)).take 4)
  if key.length = 32 then (aesGroup (aesWords ws [1, 2, 4, 8, 16, 32, 64])).take 15
  else (aesGroup (aesWords ws [1, 2, 4, 8, 16, 32, 64, 128, 0x1B, 0x36])).take 11

/-- Multiplication by x in the AES field. -/
def aesXtime (a : Nat) : Nat := if a < 128 then 2 * a else (2 * a) ^^^ 0x11B

/-- Multiplication by a small constant in the AES field. -/
def aesMul (k a : Nat) : Nat :=
  let a2 := aesXtime a
  let a4 := aesXtime a2
  let a8 := aesXtime a4
  (if k.testBit 0 then a else 0) ^^^ (if k.testBit 1 then a2 else 0)
    ^^^ (if k.testBit 2 then a4 else 0) ^^^ (if k.testBit 3 then a8 else 0)

/-- MixColumns, or its inverse, by the four constants of its first row. -/
def aesMixWith (k0 k1 k2 k3 : Nat) : List Nat → List Nat
  | a :: b :: c :: d :: rest =>
    (aesMul k0 a ^^^ aesMul k1 b ^^^ aesMul k2 c ^^^ aesMul k3 d)
      :: (aesMul k3 a ^^^ aesMul k0 b ^^^ aesMul k1 c ^^^ aesMul k2 d)
      :: (aesMul k2 a ^^^ aesMul k3 b ^^^ aesMul k0 c ^^^ aesMul k1 d)
      :: (aesMul k1 a ^^^ aesMul k2 b ^^^ aesMul k3 c ^^^ aesMul k0 d)
      :: aesMixWith k0 k1 k2 k3 rest
  | _ => []

/-- SubBytes and ShiftRows. -/
def aesSubShift (s : Nat) : List Nat :=
  (List.range 16).map fun i => aesSbox (blockByte s (4 * ((i / 4 + i % 4) % 4) + i % 4))

/-- The inverses of ShiftRows and SubBytes. -/
def aesInvSubShift (s : Nat) : Nat :=
  blockOf ((List.range 16).map fun i => aesInvSbox (blockByte s (4 * ((i / 4 + 4 - i % 4) % 4) + i % 4)))

/-- The rounds after the first key addition. -/
def aesRounds : Nat → List Nat → Nat
  | s, [] => s
  | s, [k] => blockOf (aesSubShift s) ^^^ k
  | s, k :: ks => aesRounds (blockOf (aesMixWith 2 3 1 1 (aesSubShift s)) ^^^ k) ks

/-- AES encryption of a block under expanded round keys. -/
def aesEncWith (ks : List Nat) (x : Nat) : Nat :=
  match ks with
  | [] => x
  | k :: rest => aesRounds (x ^^^ k) rest

/-- AES encryption of a block. -/
def aesEnc (key : Bytes) (x : Nat) : Nat := aesEncWith (aesKeys key) x

/-- The rounds of decryption after the first key addition, keys in reverse. -/
def aesInvRounds : Nat → List Nat → Nat
  | s, [] => s
  | s, [k] => aesInvSubShift s ^^^ k
  | s, k :: ks =>
    let t := aesInvSubShift s ^^^ k
    aesInvRounds (blockOf (aesMixWith 14 11 13 9 ((List.range 16).map (blockByte t)))) ks

/-- AES decryption of a block. -/
def aesDec (key : Bytes) (x : Nat) : Nat :=
  match (aesKeys key).reverse with
  | [] => x
  | k :: rest => aesInvRounds (x ^^^ k) rest

/-! ## GHASH and GCM -/

/-- Multiplication in GF(2^128) as GHASH defines it, by the bits of `x` from the first on. -/
def gfMulLoop : Nat → Nat → Nat → Nat → Nat
  | 0, _, _, z => z
  | n + 1, x, v, z =>
    gfMulLoop n x (if v.testBit 0 then (v >>> 1) ^^^ (0xE1 <<< 120) else v >>> 1)
      (if x.testBit n then z ^^^ v else z)

/-- Multiplication in GF(2^128). -/
def gfMul (x y : Nat) : Nat := gfMulLoop 128 x y 0

/-- A byte string cut into 16-byte blocks, the last filled with zeros. -/
def blocks16 : Nat → Bytes → List Nat
  | 0, _ => []
  | n + 1, b => if b.isEmpty then [] else beNat (padTo 16 b) :: blocks16 n (b.drop 16)

/-- GHASH of blocks under the hash key `h`. -/
def ghashBlocks (h : Nat) (bs : List Nat) : Nat := bs.foldl (fun y x => gfMul (y ^^^ x) h) 0

/-- GHASH of additional data and ciphertext as GCM feeds it. -/
def ghash (h : Nat) (aad ct : Bytes) : Nat :=
  ghashBlocks h (blocks16 (aad.length / 16 + 1) aad ++ blocks16 (ct.length / 16 + 1) ct
    ++ [(8 * aad.length) <<< 64 ||| 8 * ct.length])

/-- The GCM keystream for `n` bytes from counter 2 on. -/
def gcmStream (ks : List Nat) (iv n : Nat) : Bytes :=
  ((List.range ((n + 15) / 16)).flatMap fun i => beBytes 16 (aesEncWith ks (iv <<< 32 ||| (i + 2)))).take n

/-- The GCM tag for a 96-bit IV. -/
def gcmTag (ks : List Nat) (iv : Nat) (aad ct : Bytes) : Bytes :=
  beBytes 16 (ghash (aesEncWith ks 0) aad ct ^^^ aesEncWith ks (iv <<< 32 ||| 1))

/-! ## CMAC, key wrap, KDF -/

/-- Doubling in GF(2^128) as CMAC defines it. -/
def cmacDouble (x : Nat) : Nat := if x < 2 ^ 127 then 2 * x else ((2 * x) % 2 ^ 128) ^^^ 0x87

/-- AES-CMAC of a byte string. -/
def cmac (key msg : Bytes) : Bytes :=
  let ks := aesKeys key
  let k1 := cmacDouble (aesEncWith ks 0)
  let full := msg.length ≠ 0 ∧ msg.length % 16 = 0
  let m := if full then msg else msg ++ 0x80 :: List.replicate (15 - msg.length % 16) 0
  let bs := blocks16 (m.length / 16) m
  let last := bs.getLastD 0 ^^^ (if full then k1 else cmacDouble k1)
  beBytes 16 (aesEncWith ks ((bs.dropLast.foldl (fun y x => aesEncWith ks (y ^^^ x)) 0) ^^^ last))

/-- The 8-byte words of a byte string. -/
def words64 (b : Bytes) : List Nat := (List.range (b.length / 8)).map fun i => beNat ((b.drop (8 * i)).take 8)

/-- One pass of key wrap over the words, from step `t` on. -/
def kwPass (key : Bytes) : Nat → List Nat → Nat → List Nat × Nat
  | a, [], _ => ([], a)
  | a, r :: rs, t =>
    let e := aesEnc key (a <<< 64 ||| r)
    let (rest, a') := kwPass key ((e >>> 64) ^^^ t) rs (t + 1)
    (e % 2 ^ 64 :: rest, a')

/-- AES key wrap (KW) of a byte string of a multiple of 8 bytes. -/
def kwWrap (key msg : Bytes) : Bytes :=
  let n := msg.length / 8
  let (rs, a) := (List.range 6).foldl (fun (acc : List Nat × Nat) j => kwPass key acc.2 acc.1 (n * j + 1))
    (words64 msg, 0xA6A6A6A6A6A6A6A6)
  (a :: rs).flatMap (beBytes 8)

/-- One pass of key unwrap over the words in reverse, from step `t` down. -/
def kwUnpass (key : Bytes) : Nat → List Nat → Nat → List Nat × Nat
  | a, [], _ => ([], a)
  | a, r :: rs, t =>
    let e := aesDec key ((a ^^^ t) <<< 64 ||| r)
    let (rest, a') := kwUnpass key (e >>> 64) rs (t - 1)
    (e % 2 ^ 64 :: rest, a')

/-- AES key unwrap: none where the integrity check fails. -/
def kwUnwrap (key msg : Bytes) : Option Bytes :=
  match words64 msg with
  | [] => none
  | a :: rs =>
    let n := rs.length
    let (out, a') := (List.range 6).foldl (fun (acc : List Nat × Nat) j =>
      kwUnpass key acc.2 acc.1 (n * (6 - j))) (rs.reverse, a)
    if a' = 0xA6A6A6A6A6A6A6A6 then some (out.reverse.flatMap (beBytes 8)) else none

/-- Counter-mode KDF of SP 800-108 with AES-CMAC: `ctx` gives the PRF input for each block counter (R241). -/
def kdfCtr (key : Bytes) (bits : Nat) (ctx : Nat → Bytes) : Bytes :=
  ((List.range ((bits + 127) / 128)).flatMap fun i => cmac key (ctx (i + 1))).take (bits / 8)

/-! ## SHA-384 -/

/-- The round constants of SHA-384. -/
def shaK : List Nat :=
  [0x428a2f98d728ae22, 0x7137449123ef65cd, 0xb5c0fbcfec4d3b2f, 0xe9b5dba58189dbbc, 0x3956c25bf348b538, 0x59f111f1b605d019, 0x923f82a4af194f9b, 0xab1c5ed5da6d8118]
  ++ [0xd807aa98a3030242, 0x12835b0145706fbe, 0x243185be4ee4b28c, 0x550c7dc3d5ffb4e2, 0x72be5d74f27b896f, 0x80deb1fe3b1696b1, 0x9bdc06a725c71235, 0xc19bf174cf692694]
  ++ [0xe49b69c19ef14ad2, 0xefbe4786384f25e3, 0x0fc19dc68b8cd5b5, 0x240ca1cc77ac9c65, 0x2de92c6f592b0275, 0x4a7484aa6ea6e483, 0x5cb0a9dcbd41fbd4, 0x76f988da831153b5]
  ++ [0x983e5152ee66dfab, 0xa831c66d2db43210, 0xb00327c898fb213f, 0xbf597fc7beef0ee4, 0xc6e00bf33da88fc2, 0xd5a79147930aa725, 0x06ca6351e003826f, 0x142929670a0e6e70]
  ++ [0x27b70a8546d22ffc, 0x2e1b21385c26c926, 0x4d2c6dfc5ac42aed, 0x53380d139d95b3df, 0x650a73548baf63de, 0x766a0abb3c77b2a8, 0x81c2c92e47edaee6, 0x92722c851482353b]
  ++ [0xa2bfe8a14cf10364, 0xa81a664bbc423001, 0xc24b8b70d0f89791, 0xc76c51a30654be30, 0xd192e819d6ef5218, 0xd69906245565a910, 0xf40e35855771202a, 0x106aa07032bbd1b8]
  ++ [0x19a4c116b8d2d0c8, 0x1e376c085141ab53, 0x2748774cdf8eeb99, 0x34b0bcb5e19b48a8, 0x391c0cb3c5c95a63, 0x4ed8aa4ae3418acb, 0x5b9cca4f7763e373, 0x682e6ff3d6b2b8a3]
  ++ [0x748f82ee5defb2fc, 0x78a5636f43172f60, 0x84c87814a1f0ab72, 0x8cc702081a6439ec, 0x90befffa23631e28, 0xa4506cebde82bde9, 0xbef9a3f7b2c67915, 0xc67178f2e372532b]
  ++ [0xca273eceea26619c, 0xd186b8c721c0c207, 0xeada7dd6cde0eb1e, 0xf57d4f7fee6ed178, 0x06f067aa72176fba, 0x0a637dc5a2c898a6, 0x113f9804bef90dae, 0x1b710b35131c471b]
  ++ [0x28db77f523047d84, 0x32caab7b40c72493, 0x3c9ebe0a15c9bebc, 0x431d67c49c100d4c, 0x4cc5d4becb3e42b6, 0x597f299cfc657e2a, 0x5fcb6fab3ad6faec, 0x6c44198c4a475817]

/-- Right rotation of a 64-bit word. -/
def rotr64 (k x : Nat) : Nat := (x >>> k ||| x <<< (64 - k)) % 2 ^ 64

/-- The next word of the message schedule from the last 16, oldest first. -/
def shaNextW : List Nat → Nat
  | w => let a := w.getD 1 0
         let b := w.getD 14 0
         ((rotr64 19 b ^^^ rotr64 61 b ^^^ b >>> 6) + w.getD 9 0
           + (rotr64 1 a ^^^ rotr64 8 a ^^^ a >>> 7) + w.getD 0 0) % 2 ^ 64

/-- The rounds of SHA-384: constants, the 16 schedule words ahead, the eight working words. -/
def shaRounds : List Nat → List Nat → List Nat → List Nat
  | k :: ks, w :: ws, [a, b, c, d, e, f, g, h] =>
    let t1 := h + (rotr64 14 e ^^^ rotr64 18 e ^^^ rotr64 41 e)
      + ((e &&& f) ^^^ ((2 ^ 64 - 1 - e) &&& g)) + k + w
    let t2 := (rotr64 28 a ^^^ rotr64 34 a ^^^ rotr64 39 a) + ((a &&& b) ^^^ (a &&& c) ^^^ (b &&& c))
    shaRounds ks (ws ++ [shaNextW (w :: ws)])
      [(t1 + t2) % 2 ^ 64, a, b, c, (d + t1) % 2 ^ 64, e, f, g]
  | _, _, v => v

/-- Compression of one 128-byte block. -/
def shaBlock (hv : List Nat) (block : Bytes) : List Nat :=
  List.zipWith (fun a b => (a + b) % 2 ^ 64) hv (shaRounds shaK (words64 block) hv)

/-- Compression of `n` blocks. -/
def shaLoop : Nat → List Nat → Bytes → List Nat
  | 0, hv, _ => hv
  | n + 1, hv, m => shaLoop n (shaBlock hv (m.take 128)) (m.drop 128)

/-- SHA-384 of a byte string. -/
def sha384 (m : Bytes) : Bytes :=
  let z := (128 - (m.length + 17) % 128) % 128
  let p := m ++ 0x80 :: List.replicate z 0 ++ beBytes 16 (8 * m.length)
  ((shaLoop (p.length / 128)
    [0xcbbb9d5dc1059ed8, 0x629a292a367cd507, 0x9159015a3070dd17, 0x152fecd8f70e5939,
     0x67332667ffc00b31, 0x8eb44a8768581511, 0xdb0c2e0d64f98fa7, 0x47b5481dbefa4fa4] p).take 6).flatMap (beBytes 8)

/-! ## P-384 -/

/-- The field prime of P-384. -/
def ecP : Nat := 2 ^ 384 - 2 ^ 128 - 2 ^ 96 + 2 ^ 32 - 1

/-- The order of P-384. -/
def ecN : Nat := 0xffffffffffffffffffffffffffffffffffffffffffffffffc7634d81f4372ddf581a0db248b0a77aecec196accc52973

/-- The constant b of P-384. -/
def ecB : Nat := 0xb3312fa7e23ee7e4988e056be3f82d19181d9c6efe8141120314088f5013875ac656398d8a2ed19d2a85c8edd3ec2aef

/-- The base point of P-384. -/
def ecG : Nat × Nat :=
  (0xaa87ca22be8b05378eb1c71ef320ad746e1d3b628ba79b9859f741e082542a385502f25dbf55296c3a545e3872760ab7,
   0x3617de4a96262c6f5d9e98bf9292dc29f8f41dbd289a147ce9da3113b5f0b8c00a60b1ce1d7e819d7a431d7c90ea0e5f)

/-- Modular power by the `n` low bits of the exponent. -/
def powModLoop : Nat → Nat → Nat → Nat → Nat → Nat
  | 0, _, _, _, acc => acc
  | n + 1, m, b, e, acc =>
    powModLoop n m (b * b % m) (e / 2) (if e % 2 = 1 then acc * b % m else acc)

/-- Modular power for exponents below 2^384. -/
def powMod (m b e : Nat) : Nat := powModLoop 384 m (b % m) e (1 % m)

/-- Inverse modulo a prime. -/
def invMod (m b : Nat) : Nat := powMod m b (m - 2)

/-- Modular subtraction. -/
def subMod (m a b : Nat) : Nat := (a + (m - b % m)) % m

/-- Doubling of a point in Jacobian coordinates; Z = 0 is infinity. -/
def ecDbl (q : Nat × Nat × Nat) : Nat × Nat × Nat :=
  let (x, y, z) := q
  let z2 := z * z % ecP
  let m := 3 * (subMod ecP x z2) * ((x + z2) % ecP) % ecP
  let y2 := y * y % ecP
  let s := 4 * x * y2 % ecP
  let x' := subMod ecP (m * m % ecP) (2 * s)
  (x', subMod ecP (m * subMod ecP s x' % ecP) (8 * y2 * y2 % ecP), 2 * y * z % ecP)

/-- Sum of two points in Jacobian coordinates. -/
def ecAddJ (p q : Nat × Nat × Nat) : Nat × Nat × Nat :=
  let (x1, y1, z1) := p
  let (x2, y2, z2) := q
  if z1 = 0 then q
  else if z2 = 0 then p
  else
    let z1s := z1 * z1 % ecP
    let z2s := z2 * z2 % ecP
    let u1 := x1 * z2s % ecP
    let u2 := x2 * z1s % ecP
    let s1 := y1 * z2 * z2s % ecP
    let s2 := y2 * z1 * z1s % ecP
    let h := subMod ecP u2 u1
    let r := subMod ecP s2 s1
    if h = 0 then (if r = 0 then ecDbl p else (1, 1, 0))
    else
      let h2 := h * h % ecP
      let h3 := h * h2 % ecP
      let v := u1 * h2 % ecP
      let x3 := subMod ecP (subMod ecP (r * r % ecP) h3) (2 * v)
      (x3, subMod ecP (r * subMod ecP v x3 % ecP) (s1 * h3 % ecP), h * z1 * z2 % ecP)

/-- Multiplication of a point by the `n` low bits of a scalar, from the highest. -/
def ecMulLoop : Nat → Nat → Nat × Nat × Nat → Nat × Nat × Nat → Nat × Nat × Nat
  | 0, _, _, acc => acc
  | n + 1, k, q, acc =>
    let d := ecDbl acc
    ecMulLoop n k q (if k.testBit n then ecAddJ d q else d)

/-- A scalar times a point in Jacobian coordinates. -/
def ecMulJ (k : Nat) (q : Nat × Nat) : Nat × Nat × Nat := ecMulLoop 384 k (q.1, q.2, 1) (1, 1, 0)

/-- Affine coordinates; none for infinity. -/
def ecAffine (q : Nat × Nat × Nat) : Option (Nat × Nat) :=
  if q.2.2 = 0 then none
  else
    let i := invMod ecP q.2.2
    let i2 := i * i % ecP
    some (q.1 * i2 % ecP, q.2.1 * i2 * i % ecP)

/-- A point of P-384 other than infinity. -/
def ecOnCurve (q : Nat × Nat) : Bool :=
  q.1 < ecP && q.2 < ecP && (q.2 * q.2) % ecP == (q.1 * q.1 * q.1 + (ecP - 3) * q.1 + ecB) % ecP

/-- The public key X ‖ Y of a private key (R244). -/
def ecPub (d : Nat) : Bytes :=
  match ecAffine (ecMulJ d ecG) with
  | some (x, y) => beBytes 48 x ++ beBytes 48 y
  | none => List.replicate 96 0

/-- A public key read from X ‖ Y. -/
def ecPoint (b : Bytes) : Nat × Nat := (beNat (b.take 48), beNat ((b.drop 48).take 48))

/-- The x-coordinate of ECDH; none where it is infinity. -/
def ecdh (d : Nat) (q : Nat × Nat) : Option Bytes := (ecAffine (ecMulJ d q)).map fun r => beBytes 48 r.1

/-- An ECDSA signature r ‖ s over a SHA-384 digest, with the per-signature secret `k` (R244). -/
def ecdsaSign (d k : Nat) (digest : Bytes) : Bytes :=
  match ecAffine (ecMulJ k ecG) with
  | some (x, _) =>
    let r := x % ecN
    let s := invMod ecN k * (beNat digest + r * d) % ecN
    beBytes 48 r ++ beBytes 48 s
  | none => List.replicate 96 0

/-- Verification of an ECDSA signature. -/
def ecdsaVerify (pub digest sig : Bytes) : Bool :=
  let q := ecPoint pub
  let r := beNat (sig.take 48)
  let s := beNat ((sig.drop 48).take 48)
  if r = 0 ∨ ecN ≤ r ∨ s = 0 ∨ ecN ≤ s then false
  else if ecOnCurve q then
    let w := invMod ecN s
    match ecAffine (ecAddJ (ecMulJ (beNat digest * w % ecN) ecG) (ecMulJ (r * w % ecN) q)) with
    | some (x, _) => x % ecN == r
    | none => false
  else false

/-! ## CRC -/

/-- Eight steps of a reflected CRC. -/
def crcBits : Nat → Nat → Nat → Nat
  | 0, _, c => c
  | n + 1, poly, c => crcBits n poly (if c.testBit 0 then (c >>> 1) ^^^ poly else c >>> 1)

/-- A reflected CRC of 32 bits, all ones at the start and inverted at the end. -/
def crcRefl (poly : Nat) (b : Bytes) : Nat :=
  (b.foldl (fun c x => crcBits 8 poly (c ^^^ x.toNat)) 0xFFFFFFFF) ^^^ 0xFFFFFFFF

/-- CRC-32C (Castagnoli). -/
def crc32c (b : Bytes) : Nat := crcRefl 0x82F63B78 b

/-- CRC-32 of IEEE 802.3. -/
def crc32 (b : Bytes) : Nat := crcRefl 0xEDB88320 b

end Sys2Proof.Machine
end

