-- ==== Sys2Proof/Machine/Ops.lean ====
section
/-! DEFINITION. The named operations over the state: bit fields, sparse tables, the retention SRAM, free values,
the units of the block, counts, Call Boards, parity and the Rehearsal records. -/

namespace Sys2Proof.Machine

/-! ## Numbers -/

/-- Bits [hi:lo] of a number. -/
def fld (x hi lo : Nat) : Nat := (x >>> lo) % 2 ^ (hi + 1 - lo)

/-- Bit `i` of a number. -/
def bitOf (x i : Nat) : Bool := x.testBit i

/-- A number as a word. -/
def wd (n : Nat) : Word := BitVec.ofNat 32 n

/-- A Boolean as a number. -/
def b2n (b : Bool) : Nat := if b then 1 else 0

/-- Word `i` of a list as a number, 0 past its end. -/
def wordAt (l : List Word) (i : Nat) : Nat := (l.getD i 0).toNat

/-- A number in `n` words, low word first (R6). -/
def toWords (n x : Nat) : List Word := (List.range n).map fun i => wd (x >>> (32 * i))

/-- Words as one number, low word first (R6). -/
def wordsNat (l : List Word) : Nat := l.foldr (fun x a => a * 2 ^ 32 + x.toNat) 0

/-- Words `i` to `i + n - 1` of a list, 0 past its end. -/
def wordsAt (l : List Word) (i n : Nat) : List Word := (List.range n).map fun k => l.getD (i + k) 0

/-- A byte string in words, byte 0 lowest, filled with zeros (R6). -/
def bytesToWords (b : Bytes) : List Word := toWords ((b.length + 3) / 4) (leNat b)

/-- Words as a byte string (R6). -/
def wordsToBytes (l : List Word) : Bytes := l.flatMap fun x => leBytes 4 x.toNat

/-- A signed number of `n` bits from its two's complement. -/
def toSigned (n x : Nat) : Int := if x < 2 ^ (n - 1) then (x : Int) else (x : Int) - 2 ^ n

/-- The two's complement of a signed number in `n` bits. -/
def ofSigned (n : Nat) (x : Int) : Nat := (x % (2 ^ n : Nat)).toNat

/-- Clamping of a signed number. -/
def clampInt (lo hi x : Int) : Int := max lo (min hi x)

/-- A count of 48 bits that saturates (R118). -/
def satAdd (x k : Nat) : Nat := min (x + k) (2 ^ 48 - 1)

/-! ## Sparse tables -/

/-- Lookup in a sparse table. -/
def tget {α : Type} : Tbl α → Nat → Option α
  | [], _ => none
  | (k', v) :: t, k => if k' = k then some v else tget t k

/-- Writing an entry of a sparse table, keys kept rising. -/
def tput {α : Type} : Tbl α → Nat → α → Tbl α
  | [], k, v => [(k, v)]
  | (k', v') :: t, k, v =>
    if k < k' then (k, v) :: (k', v') :: t else if k = k' then (k, v) :: t else (k', v') :: tput t k v

/-- Removing an entry of a sparse table. -/
def tdel {α : Type} : Tbl α → Nat → Tbl α
  | [], _ => []
  | (k', v') :: t, k => if k' = k then t else (k', v') :: tdel t k

/-- Changing an entry of a sparse table where it stands. -/
def tmod {α : Type} : Tbl α → Nat → (α → α) → Tbl α
  | [], _, _ => []
  | (k', v') :: t, k, f => if k' = k then (k', f v') :: t else (k', v') :: tmod t k f

/-- Keys strictly rising. -/
def Tbl.wf {α : Type} : Tbl α → Bool
  | [] => true
  | [_] => true
  | (k, _) :: (k', v') :: t => decide (k < k') && Tbl.wf ((k', v') :: t)

/-! ## The retention SRAM (R238) -/

/-- Reading a byte: an unlisted address reads 0 (assumption 7). -/
def memRead : List Host.Cell → Nat → Byte
  | [], _ => 0
  | (a', b) :: m, a => if a' = a then b else memRead m a

/-- Writing a byte, keeping addresses rising and listing no zero byte. -/
def memWrite : List Host.Cell → Nat → Byte → List Host.Cell
  | [], a, b => if b = 0 then [] else [(a, b)]
  | (a', b') :: m, a, b =>
    if a < a' then (if b = 0 then (a', b') :: m else (a, b) :: (a', b') :: m)
    else if a = a' then (if b = 0 then m else (a, b) :: m)
    else (a', b') :: memWrite m a b

/-- The canonical form: addresses strictly rising, no zero byte listed. -/
def Memory.wf : List Host.Cell → Bool
  | [] => true
  | [(_, b)] => decide (b ≠ 0)
  | (a, b) :: (a', b') :: m => decide (b ≠ 0) && decide (a < a') && Memory.wf ((a', b') :: m)

/-- Reading `n` bytes. -/
def memBytes (m : List Host.Cell) (a n : Nat) : Bytes := (List.range n).map fun i => memRead m (a + i)

/-- Writing bytes from an address on. -/
def memPut : List Host.Cell → Nat → Bytes → List Host.Cell
  | m, _, [] => m
  | m, a, b :: bs => memPut (memWrite m a b) (a + 1) bs

/-- Reading a 32-bit word, lowest byte first (R6). -/
def memRd32 (m : List Host.Cell) (a : Nat) : Nat := leNat (memBytes m a 4)

/-- Writing a 32-bit word. -/
def memWr32 (m : List Host.Cell) (a x : Nat) : List Host.Cell := memPut m a (leBytes 4 x)

/-- Reading a 64-bit value. -/
def memRd64 (m : List Host.Cell) (a : Nat) : Nat := leNat (memBytes m a 8)

/-- Writing a 64-bit value. -/
def memWr64 (m : List Host.Cell) (a x : Nat) : List Host.Cell := memPut m a (leBytes 8 x)

/-! ## Wings and units (R19, R327) -/

/-- The other wing. -/
def otherWing : Wing → Wing
  | .sl => .sr
  | .sr => .sl

/-- A wing's number: 0 SL, 1 SR. -/
def wingIx : Wing → Nat
  | .sl => 0
  | .sr => 1

/-- The wing of a number. -/
def wingOf (n : Nat) : Wing := if n % 2 = 0 then .sl else .sr

/-- A core's number: 0 CC-L, 1 CC-R. -/
def coreIx : CoreId → Fin 2
  | .l => 0
  | .r => 1

/-- The other core. -/
def otherCore : CoreId → CoreId
  | .l => .r
  | .r => .l

/-- The core that serves a wing in normal service (R39). -/
def homeCore : Wing → CoreId
  | .sl => .l
  | .sr => .r

/-- The wing that a core serves in normal service (R39). -/
def homeWing : CoreId → Wing
  | .l => .sl
  | .r => .sr

/-- The wing of a stream port. -/
def portWing (p : Fin 64) : Wing := if p.val < 32 then .sl else .sr

/-- The wing of a request port. -/
def rqpWing (q : Fin 4) : Wing := if q.val < 2 then .sl else .sr

/-- The wing of a memory port. -/
def mpWing (m : Fin 4) : Wing := if m.val < 2 then .sl else .sr

/-- The wing of a lane (R27). -/
def laneWing (l : Fin 28) : Wing := if l.val < 14 then .sl else .sr

/-- The wing of a cue: CUE[7:0] SL, CUE[15:8] SR (R74). -/
def cueWing (c : Fin 16) : Wing := if c.val < 8 then .sl else .sr

/-- The code of a link state (R329). -/
def Link.code : Link → Nat
  | .joined => 0
  | .partitioned => 1
  | .farLost => 2
  | .rejoinReady => 3

/-- A wing's state. -/
def State.wing (s : State) : Wing → WingSt
  | .sl => s.sl
  | .sr => s.sr

/-- Writing a wing's state. -/
def State.setWing (s : State) (w : Wing) (x : WingSt) : State :=
  match w with
  | .sl => { s with sl := x }
  | .sr => { s with sr := x }

/-- Changing a wing's state. -/
def State.modWing (s : State) (w : Wing) (f : WingSt → WingSt) : State := s.setWing w (f (s.wing w))

/-- Changing a stream port. -/
def State.modPort (s : State) (p : Fin 64) (f : Port → Port) : State :=
  { s with ports := s.ports.set p (f s.ports[p]) }

/-- Changing a request port. -/
def State.modRqp (s : State) (q : Fin 4) (f : RqPort → RqPort) : State :=
  { s with rqps := s.rqps.set q (f s.rqps[q]) }

/-- Changing a memory port. -/
def State.modMp (s : State) (m : Fin 4) (f : MPort → MPort) : State :=
  { s with mps := s.mps.set m (f s.mps[m]) }

/-- Changing a lane. -/
def State.modLane (s : State) (l : Fin 28) (f : LaneRec → LaneRec) : State :=
  { s with lanes := s.lanes.set l (f s.lanes[l]) }

/-- Changing a region. -/
def State.modRegion (s : State) (r : Fin 64) (f : Region → Region) : State :=
  { s with regions := s.regions.set r (f s.regions[r]) }

/-- Changing a cue. -/
def State.modCue (s : State) (c : Fin 16) (f : Cue → Cue) : State :=
  { s with cues := s.cues.set c (f s.cues[c]) }

/-- Changing a mailbox channel. -/
def State.modChan (s : State) (n : Fin 8) (f : Chan → Chan) : State :=
  { s with chans := s.chans.set n (f s.chans[n]) }

/-- Changing a control core. -/
def State.modCore (s : State) (c : CoreId) (f : Core → Core) : State :=
  { s with cores := s.cores.set (coreIx c) (f s.cores[coreIx c]) }

/-- A control core. -/
def State.core (s : State) (c : CoreId) : Core := s.cores[coreIx c]

/-- Changing the vault. -/
def State.modVlt (s : State) (f : Vault → Vault) : State := { s with vlt := f s.vlt }

/-- RT in ns (R12). -/
def State.rt (s : State) : Nat := s.vlt.rt

/-- The next free value (assumption 2). -/
def State.freeVal (s : State) : Nat := Config.freeValue s.freeCtr

/-- Taking the next free value. -/
def State.takeFree (s : State) : State := { s with freeCtr := s.freeCtr + 1 }

/-- A draw of `k` bytes from the CTR_DRBG (R270), one output of the source for each draw. -/
def State.draw (s : State) (k : Nat) : Bytes × State :=
  (leBytes k (Config.drbg s.vlt.drbgN), s.modVlt fun v => { v with drbgN := v.drbgN + 1 })

/-- Whether the Script is ready (R383). -/
def State.isReady (s : State) : Bool := decide (s.boot.phase = .ready)

/-- Folding over the wings, SL first (R369). -/
def State.eachWing (s : State) (f : State → Wing → State) : State := f (f s .sl) .sr

/-! ## Counts (R118) -/

/-- Adding to a count of a vector. -/
def bumpAt {n : Nat} (v : Vector Nat n) (i : Fin n) (k : Nat) : Vector Nat n := v.set i (satAdd v[i] k)

/-- Adding 1 to a port's count. -/
def State.countPort (s : State) (p : Fin 64) (c : PCnt) : State :=
  s.modPort p fun x => { x with cnt := bumpAt x.cnt c.ix 1 }

/-- Adding 1 to a wing's count. -/
def State.countWing (s : State) (w : Wing) (c : WCnt) : State :=
  s.modWing w fun x => { x with cnt := bumpAt x.cnt c.ix 1 }

/-- Adding to a region's count (R214). -/
def State.countRegion (s : State) (r : Fin 64) (i : Fin 10) (k : Nat) : State :=
  s.modRegion r fun x => { x with cnt := bumpAt x.cnt i k }

/-! ## Prompt time and Call Boards -/

/-- Prompt's time in units of 2^-32 ns as a timestamp (R11). -/
def tsOf (t epoch : Nat) : Ts :=
  let ns := t / 2 ^ 32
  { sec := ns / 1000000000, ns := ns % 1000000000, frac := (t % 2 ^ 32) / 2 ^ 16, epoch := epoch % 2 ^ 16 }

/-- A timestamp's time in units of 2^-32 ns. -/
def tsTime (t : Ts) : Nat := ((t.sec * 1000000000 + t.ns) * 2 ^ 16 + t.frac) * 2 ^ 16

/-- Prompt time now in a wing (R308). -/
def State.now (s : State) (w : Wing) : Ts := tsOf (s.wing w).prm.t (s.wing w).prm.epoch

/-- A timestamp in its four words (R11). -/
def tsWords (t : Ts) : List Word :=
  [wd t.ns, wd t.sec, wd ((t.sec >>> 32) % 2 ^ 16 + (t.frac % 2 ^ 16) * 2 ^ 16), wd (t.epoch % 2 ^ 16)]

/-- A timestamp from its four words (R11). -/
def tsOfWords (l : List Word) (i : Nat) : Ts :=
  { ns := wordAt l i, sec := wordAt l (i + 1) + fld (wordAt l (i + 2)) 15 0 * 2 ^ 32,
    frac := fld (wordAt l (i + 2)) 31 16, epoch := fld (wordAt l (i + 3)) 15 0 }

/-- The signed difference of two epochs modulo 2^16 (R13). -/
def epochDiff (a b : Nat) : Int := toSigned 16 ((a + 2 ^ 16 - b % 2 ^ 16) % 2 ^ 16)

/-- Whether a wing's time-of-day inputs are held in reset (R48, R71). -/
def Power.todRst (p : Power) : Wing → Bool
  | .sl => p.todRstSl
  | .sr => p.todRstSr

/-- The later of two epochs. -/
def laterEpoch (a b : Nat) : Nat := if 0 < epochDiff b a then b else a

/-- Whether a timestamp orders before another (R13). -/
def tsLt (a b : Ts) : Bool :=
  if a.epoch = b.epoch then decide (tsTime a < tsTime b) else decide (epochDiff a.epoch b.epoch < 0)

/-- Unread entries of a Call Board (R389). -/
def Cbd.fill (c : Cbd) : Nat := (c.head - c.tail).toNat

/-- Writing an entry of 8 words: where the ring is full, the oldest unread entry is lost (R390). -/
def Cbd.push (c : Cbd) (e : List Word) : Cbd :=
  let c := if c.fill < 4096 then c
    else { c with tail := c.tail + 1, lost := true, lostCount := min (c.lostCount + 1) 0xFFFF }
  { c with ring := tput c.ring (c.head.toNat % 4096) e, head := c.head + 1 }

/-- Writing an entry on a wing's Call Board. -/
def State.logWords (s : State) (w : Wing) (e : List Word) : State :=
  s.modWing w fun x => { x with cbd := x.cbd.push e }

/-- The words of an event at a timestamp (R377). -/
def evWords (w : Wing) (e : Ev) (unit subj a b : Nat) (t : Ts) : List Word :=
  [wd (e.code + wingIx w * 256 + (unit % 2 ^ 16) * 2 ^ 16), wd subj, wd a, wd b] ++ tsWords t

/-- Writing an event of the layout of R377 on a wing's Call Board. -/
def State.log (s : State) (w : Wing) (e : Ev) (unit subj a b : Nat) : State :=
  s.logWords w (evWords w e unit subj a b (s.now w))

/-- Writing an event on both wings' Call Boards (R41). -/
def State.logBoth (s : State) (e : Ev) (unit subj a b : Nat) : State :=
  s.eachWing fun s w => s.log w e unit subj a b

/-- The event of an entry that fails parity in a structure to which R378 gives no code (R36, R42, assumption 47): `kind` is 0
for a lane's context tag, 1 for a region descriptor, 2 for a line of the metadata cache. -/
def State.logEntry (s : State) (w : Wing) (kind entry : Nat) : State :=
  s.logWords w ([wd (Config.entryCode kind % 256 + wingIx w * 256), wd entry, wd (entry / 2 ^ 32), wd kind] ++ tsWords (s.now w))

/-- A unit name (R349 word 0 [16:0]). -/
def unitName (kind ix : Nat) (w : Wing) : Nat := kind % 16 + (ix % 2 ^ 12) * 16 + wingIx w * 2 ^ 16

/-! ## Rehearsal records (R398 to R402) -/

/-- Record words in use in a block. -/
def RBlock.used (b : RBlock) : Nat := b.recs.foldl (fun a r => a + r.words) 0

/-- Whether a logger takes records now: recording, and not past its POST_BLOCKS (R402). -/
def Rhl.taking (r : Rhl) : Bool := (r.st = .trace ∨ r.st = .record) ∧ r.post ≠ some 0

/-- Closing the current block where it holds a record. -/
def Rhl.closeBlock (r : Rhl) (rt : Nat) : Rhl :=
  if r.cur.recs.isEmpty then r
  else { r with full := r.full ++ [r.cur], post := r.post.map (· - 1),
                cur := { seq := r.cur.seq + 1, rt0 := rt, before := r.nRecs % 2 ^ 32 } }

/-- Appending one record to the block, after a new block where it does not fit (R399). In TRACE the ring of 256 blocks keeps the
newest, the current one among them (R394). -/
def Rhl.append (r : Rhl) (rt type : Nat) (clear sealed : Bytes) (words : Nat) : Rhl :=
  let r := if r.cur.used + words ≤ 1012 then r else r.closeBlock rt
  if r.post = some 0 then r
  else
    let first := r.cur.recs.isEmpty
    let cur := if first then { r.cur with rt0 := rt } else r.cur
    { r with nRecs := r.nRecs + 1, lastRt := rt, full := if r.st = .trace then r.full.drop (r.full.length - 255) else r.full,
             cur := { cur with recs := cur.recs ++
               [{ type := type, dt := if first then 0 else min (rt - r.lastRt) 1048575, clear := clear,
                  sealed := sealed, words := words }] } }

/-- Appending one record, and a CHECK after every 1,024 records (R398). -/
def Rhl.put (r : Rhl) (rt type : Nat) (clear sealed : Bytes) (words : Nat) (digest : Bytes) : Rhl :=
  let x := r.append rt type clear sealed words
  if x.nRecs ≠ r.nRecs ∧ x.nRecs % 1024 = 0 then x.append rt 0x0F (leBytes 4 x.nRecs) digest 4 else x

/-- A wing's replayable state (R396). -/
def State.snapshot (s : State) (w : Wing) : Snap :=
  let x := s.wing w
  { sas := x.sas, trie := x.trie, box := x.box, ush := x.ush, mpe := x.mpe, classCfg := x.classCfg, grq := x.grq, prm := x.prm,
    regions := (List.finRange 64).filterMap fun r =>
      if s.regions[r].st ≠ .notInstalled ∧ s.regions[r].d.owner = w then some (r.val, s.regions[r]) else none,
    lanes := ((List.finRange 28).filter fun l => laneWing l = w).map fun l => s.lanes[l].st,
    meshEtype := x.meshEtype, unkeyedTtl := x.unkeyedTtl, saTimeout := x.saTimeout, regTimeout := x.regTimeout,
    evtRoute := x.evtRoute, wearCfg := x.wearCfg }

/-- A digest of a record (R398): the first 4 bytes of the AES-CMAC of the bytes under the log key. -/
def State.rhlDigest (s : State) (b : Bytes) : Bytes := (cmac (s.vlt.keys.rhlLog.getD []) b).take 4

/-- The state digest of a wing under a log key (R398): the first 8 bytes of the AES-CMAC of its replayable state. -/
def State.stateDigest (s : State) (w : Wing) (key : Bytes) : Bytes :=
  (cmac key ((List.range 8).flatMap fun k => Config.snapBytes k (s.snapshot w))).take 8

/-- Stopping in FROZEN: the current block is closed and RHL_FROZEN written (R402). -/
def State.rhlStop (s : State) (w : Wing) (cause bits : Nat) : State :=
  let s := s.modWing w fun x =>
    { x with rhl := { x.rhl.closeBlock s.rt with st := .frozen, cause := cause, held := true, post := none } }
  s.log w .rhlFrozen 0 (cause + bits * 256) 0 0

/-- One record into the ring of a logger that takes records. In RECORD a ring without a free block freezes the log after a
FREEZE record, for which its last block keeps two words (R401, R402; assumption 37); in POST_BLOCKS it only stops there. -/
def State.rhlPut1 (s : State) (w : Wing) (type : Nat) (clear sealed : Bytes) (words : Nat) : State :=
  let r := (s.wing w).rhl
  let spare := if type = 0x11 then 0 else 2
  if !r.taking then s
  else if r.st = .record ∧ 255 ≤ r.full.length ∧ 1012 < r.cur.used + words + spare then
    let s := s.modWing w fun x => { x with rhl := x.rhl.append s.rt 0x11 [3, 0] [] 2 }
    if r.post.isSome then s.rhlStop w 1 r.postBits else s.rhlStop w 3 0
  else
    let digest := s.stateDigest w (s.vlt.keys.rhlLog.getD [])
    s.modWing w fun x => { x with rhl := x.rhl.put s.rt type clear sealed words digest }

/-- One record in the log, after a TIME record where DT would not fit (R398). -/
def State.rhlPut (s : State) (w : Wing) (type : Nat) (clear sealed : Bytes) (words : Nat) : State :=
  let r := (s.wing w).rhl
  let s := if r.cur.recs.isEmpty = false ∧ 1048575 < s.rt - r.lastRt then s.rhlPut1 w 1 [] (leBytes 8 s.rt) 3 else s
  s.rhlPut1 w type clear sealed words

/-- Bits of a list, the first least significant. -/
def bitsNat (l : List Bool) : Nat := l.foldr (fun b n => b2n b + 2 * n) 0

/-- The clear fields of a GRANTS record: arbiter, count, grant bits. -/
def grantBytes (arbiter : Nat) (l : List Bool) : Bytes := leBytes 1 arbiter ++ leBytes 1 l.length ++ leBytes 4 (bitsNat l)

/-- Writing a record with its clear and sealed fields, after those of the grants that have gathered (R398). -/
def State.rhlRec (s : State) (w : Wing) (type : Nat) (clear sealed : Bytes) (words : Nat) : State :=
  if (s.wing w).rhl.taking then
    let s := (s.wing w).rhl.grants.foldl (fun s e => s.rhlPut w 0x0E (grantBytes e.1 e.2) [] 3) s
    let s := s.modWing w fun x => { x with rhl := { x.rhl with grants := [] } }
    s.rhlPut w type clear sealed words
  else s

/-- A grant of an arbiter of a wing (R25, R398): its record is written once 32 have gathered at the arbiter, or before a record
of another type. How arbiters are numbered and what a grant's bit says is not stated (DESIGN CHOICE, assumption 37). -/
def State.rhlGrant (s : State) (w : Wing) (arbiter : Nat) (bit : Bool) : State :=
  let r := (s.wing w).rhl
  if r.taking ∧ (r.st = .record ∨ r.cfg.grants) then
    let l := (tget r.grants arbiter).getD [] ++ [bit]
    let put (l : List Bool) (s : State) : State := s.modWing w fun x => { x with rhl := { x.rhl with grants := tput x.rhl.grants arbiter l } }
    if l.length < 32 then put l s
    else (s.modWing w fun x => { x with rhl := { x.rhl with grants := tdel x.rhl.grants arbiter } }).rhlPut w 0x0E
      (grantBytes arbiter l) [] 3
  else s

/-- A core takes a wing over: the grant of its service, in both wings (R411). -/
def State.takeGrant (s : State) (c : CoreId) : State := s.eachWing fun s w => s.rhlGrant w 19 (decide (c = .r))

/-- A close and work of the same moment meet at a unit: the work goes first (R25, R345). -/
def State.closeGrant (s : State) (w : Wing) (met : Bool) : State := if met then s.rhlGrant w 18 false else s

/-- A DRBG draw that is not a key is used (R104, R290, R398): how its purpose is coded is not stated. -/
def State.rhlSeed (s : State) (w : Wing) (purpose : Nat) (value : Bytes) : State :=
  s.rhlRec w 0x0D (leBytes 1 purpose) value (min 10 (2 + (value.length + 3) / 4))

/-- A freeze trigger (R401, R402, R411). In SNAPSHOT an ALARM waits for the snapshot's end, the others stop at once. In
POST_BLOCKS a further trigger is only recorded. Whether the block that holds the FREEZE record counts among the POST_BLOCKS is
not stated: here it is their first (DESIGN CHOICE, assumption 37). -/
def State.rhlFreeze (s : State) (w : Wing) (cause bits : Nat) : State :=
  let r := (s.wing w).rhl
  if r.st = .snapshot then
    if cause = 1 then s.modWing w fun x => { x with rhl := { x.rhl with afterSnap := some (x.rhl.afterSnap.getD bits) } }
    else (s.modWing w fun x => { x with rhl := x.rhl.append s.rt 0x11 (leBytes 1 cause ++ leBytes 1 bits) [] 2 }).rhlStop w cause bits
  else if r.taking then
    let s := s.rhlRec w 0x11 (leBytes 1 cause ++ leBytes 1 bits) [] 2
    if r.post.isSome ∨ (s.wing w).rhl.st = .frozen then s
    else if cause = 1 then
      s.modWing w fun x => { x with rhl := { x.rhl with post := some x.rhl.cfg.postBlocks, postBits := bits } }
    else s.rhlStop w cause bits
  else s

/-- Recording a fault: kind and unit name (R398). -/
def State.rhlFault (s : State) (w : Wing) (kind unit : Nat) : State := s.rhlRec w 0x0B (leBytes 1 kind ++ leBytes 4 unit) [] 3

/-! ## Alarms (R387) -/

/-- Setting an alarm cause, which may freeze either wing's log (R401). -/
def State.raiseAlarm (s : State) (a : Alarm) : State :=
  let s := { s with sys := { s.sys with alarm := s.sys.alarm ||| 2 ^ a.bit } }
  s.eachWing fun s w =>
    if (s.wing w).rhl.cfg.freezeMask.testBit a.bit then s.rhlFreeze w 1 (2 ^ a.bit) else s

/-! ## Parity and rows (R36, R354) -/

/-- Rewriting an entry gives it good parity. -/
def State.fix (s : State) (e : Ent) : State := { s with upsets := s.upsets.filter (· ≠ e) }

/-- The key of a bank in the table of remapped rows. -/
def bankKey (w : Wing) (bank : Nat) : Nat := unitName 1 bank w

/-- The wing in whose SRAM banks an entry lies for good; cached lines, key cells and context tags do not (assumption 36). -/
def entWing : Ent → Option Wing
  | .trie w _ _ _ | .group w _ _ | .box w _ | .sa w _ | .rule w _ _ | .dflt w _ _ | .mg w _ _ | .region w _ => some w
  | .key _ _ _ | .mline _ _ | .ctx _ => none

/-- Whether an entry lies in an SRAM bank that is out of service (R26). -/
def State.bankOut (s : State) (e : Ent) : Bool :=
  (entWing e).any fun w => (s.wing w).struck.any fun n => n = bankKey w (Config.rowOf e).1

/-- Whether an entry fails parity; one in a bank that is out of service cannot be read either (assumption 36). -/
def State.bad (s : State) (e : Ent) : Bool := s.upsets.contains e || s.bankOut e

/-- Changing the wear record of a monitored unit (R349). -/
def State.modWear (s : State) (name : Nat) (f : WearRec → WearRec) : State :=
  { s with wear := tput s.wear name (f ((tget s.wear name).getD {})) }

/-- Marking a monitored unit critical (R348). -/
def State.markCritical (s : State) (w : Wing) (name : Nat) : State :=
  let t := s.now w
  s.modWear name fun r => { r with critical := true, changed := if r.critical then r.changed else t }

/-- A monitored unit's ROLE changes (R349): one that is struck is critical no more. -/
def State.roleChanged (s : State) (w : Wing) (name : Nat) (struck : Bool) : State :=
  let t := s.now w
  s.modWear name fun r => { r with critical := r.critical && !struck, changed := t }

/-- Remapping a row to a spare, or reporting that none is left (R354). -/
def State.remapRow (s : State) (w : Wing) (bank row : Nat) : State :=
  let k := bankKey w bank
  let used := (tget s.rows k).getD []
  if used.length < Config.spareRows bank then
    let s := { s with rows := tput s.rows k (used ++ [(row, used.length)]) }
    s.log w .rowRemapped 0 k row 0
  else
    ((s.log w .rowsExhausted 0 k 0 0).markCritical w k).raiseAlarm .wear

/-- A parity error found in an entry: recorded, and the second in one row within a wear check period remaps the
row (R354). -/
def State.parityHit (s : State) (w : Wing) (e : Ent) : State :=
  let (bank, row) := Config.rowOf e
  let s := s.rhlFault w 0 (bankKey w bank)
  let twice := s.rowErrs.any fun x => x.1 = bankKey w bank ∧ x.2.1 = row
  if twice then
    ({ s with rowErrs := s.rowErrs.filter fun x => ¬(x.1 = bankKey w bank ∧ x.2.1 = row) }).remapRow w bank row
  else { s with rowErrs := s.rowErrs ++ [(bankKey w bank, row, s.rt)] }

/-! ## Life-cycle state (R237, R278) -/

/-- Physical copies of a fuse bit that are burnt. -/
def LcBit.count (b : LcBit) : Nat := b2n b.c0 + b2n b.c1 + b2n b.c2

end Sys2Proof.Machine
end

