-- ==== Sys2Proof/Machine/LaneOps.lean ====
section
/-! DEFINITION. The lanes: roles, the Lead budget, the dispatcher, and the tokens a lane takes (05_lanes_classes.md). -/

namespace Sys2Proof.Machine

/-- Lane roles (R152). -/
inductive Role where
  | reserved | shared | lent | understudy | struck
deriving DecidableEq, Repr

/-- The lanes of a wing in service, lowest first. -/
def State.inService (s : State) (w : Wing) : List (Fin 28) :=
  (List.finRange 28).filter fun l => laneWing l = w ∧ s.lanes[l].st = .inService

/-- Whether both wings are JOINED. -/
def State.joined (s : State) : Bool := decide (s.sl.link = .joined ∧ s.sr.link = .joined)

/-- Whether work crosses the bridge now: neither wing has declared it lost, and it carries tokens both ways (R331, R333). -/
def State.bridgeOk (s : State) : Bool := s.joined && Config.bridgeUp false s.rt && Config.bridgeUp true s.rt

/-- Whether a wing may lend: it has not declared the bridge lost, and each core serves its own wing (R159, R334). -/
def State.lending (s : State) (w : Wing) : Bool :=
  (s.wing w).link = .joined ∧ s.sl.served = .l ∧ s.sr.served = .r ∧ s.sl.headless = false ∧ s.sr.headless = false

/-- Lanes that a wing lends now: LEND_OUT, less the lanes taken back so that more than LEAD_LANES + 2 of its own
remain (R160). -/
def State.lendCount (s : State) (w : Wing) : Nat :=
  let c := (s.wing w).classCfg
  if s.lending w then min c.lendOut ((s.inService w).length - (c.leadLanes + 3)) else 0

/-- The role a lane holds (R152, R172). -/
def State.role (s : State) (l : Fin 28) : Role :=
  match s.lanes[l].st with
  | .struck => .struck
  | .understudy => .understudy
  | .inService =>
    let w := laneWing l
    let ls := s.inService w
    let lend := s.lendCount w
    let ix := ls.idxOf l
    if ix < (s.wing w).classCfg.leadLanes then .reserved
    else if ls.length - lend ≤ ix then .lent
    else .shared

/-- Slots that an item of `d` data blocks and one mask costs (R150). -/
def slotCost (d : Nat) : Nat := max d 4

/-- Slots waiting in a lane. -/
def LaneRec.slots (x : LaneRec) : Nat := x.items.foldl (fun a i => a + i.left) 0

/-- Lead slots waiting in a lane. -/
def LaneRec.leadSlots (x : LaneRec) : Nat := x.items.foldl (fun a i => if i.cls = 0 then a + i.left else a) 0

/-- Whether an item of Classes 1 to 3 assigned to the lane waits for its first block to enter (R156). -/
def LaneRec.blocked (x : LaneRec) : Bool := x.items.any fun i => i.cls ≠ 0 ∧ i.left = i.cost

/-- The lane with the least measure, the lowest-numbered among equals (R154). -/
def leastLane (f : Fin 28 → Nat) : List (Fin 28) → Option (Fin 28)
  | [] => none
  | l :: t => match leastLane f t with
    | some m => if f m < f l then some m else some l
    | none => some l

/-- Whether a lane takes Class 1–3 items of wing `w` by the weighted rounds now (R156). -/
def State.eligible (s : State) (w : Wing) (l : Fin 28) : Bool :=
  let x := s.lanes[l]
  !x.blocked && !x.testing && match s.role l with
    | .shared => laneWing l = w
    | .reserved => laneWing l = w ∧ x.leadSlots = 0
    | .lent => laneWing l ≠ w ∧ (s.wing w).link = .joined
    | _ => false

/-- Whether an understudy lane takes a Class 3 item of wing `w` in full house (R158). -/
def State.houseLane (s : State) (w : Wing) (l : Fin 28) : Bool :=
  let x := s.lanes[l]
  s.role l = .understudy ∧ laneWing l = w ∧ (s.wing w).classCfg.fullHouse ∧ !x.testing ∧ !x.closing ∧ !x.blocked

/-- Appending an item to a lane. -/
def State.giveLane (s : State) (l : Fin 28) (i : LItem) : State :=
  s.modLane l fun x => { x with items := x.items ++ [i] }

/-- Changing a wing's dispatcher. -/
def State.modDisp (s : State) (w : Wing) (f : Disp → Disp) : State :=
  s.modWing w fun x => { x with disp := f x.disp }

/-- The weights of a round. -/
def ClassCfg.weights (c : ClassCfg) : Vector Nat 3 := #v[c.weight1, c.weight2, c.weight3]

/-- The next class's turn; a new round takes the weights then in force (R153, R173). -/
def Disp.nextTurn (d : Disp) (c : ClassCfg) : Disp :=
  { d with turn := d.turn + 1, fresh := true, wts := if d.turn = 2 then c.weights else d.wts }

/-- With no item of Classes 1 to 3 waiting the rounds of R156 run idle: every deficit is 0, and the next item meets the start
of a round. -/
def Disp.idle (d : Disp) (c : ClassCfg) : Disp :=
  { d with deficit := Vector.replicate 3 0, turn := 0, fresh := true, wts := c.weights }

/-- What one move of the dispatcher does. -/
inductive DMove where
  | stop
  | go (s : State)

/-- One move of the dispatcher of a wing: a waiting Lead item to a RESERVED lane, a Class 3 item to an understudy in
full house, or the next action of the round of R156. Which of several waiting items goes is a grant (R25). -/
def State.dispatchMove (s : State) (w : Wing) : DMove :=
  let d := (s.wing w).disp
  let take (i : LItem) (l : Fin 28) : State :=
    let s := if 1 < d.wait.length then s.rhlGrant w 15 (decide (d.wait.head? ≠ some i)) else s
    (s.modDisp w fun d => { d with wait := d.wait.erase i }).giveLane l i
  let reserved := (List.finRange 28).filter fun l => laneWing l = w ∧ s.role l = .reserved
  match d.wait.find? (·.cls = 0), leastLane (fun l => s.lanes[l].leadSlots) reserved with
  | some i, some l => .go (take i l)
  | _, _ =>
  match d.wait.find? (·.cls = 3), leastLane (fun l => s.lanes[l].slots)
      ((List.finRange 28).filter fun l => s.houseLane w l) with
  | some i, some l => .go (take i l)
  | _, _ =>
    if d.wait.all (·.cls = 0) then .stop
    else match d.wait.find? (·.cls = d.turn.val + 1), d.fresh with
      | none, true => .go (s.modDisp w fun d =>
          Disp.nextTurn { d with deficit := d.deficit.set d.turn 0 } (s.wing w).classCfg)
      | none, false => .go (s.modDisp w fun d => d.nextTurn (s.wing w).classCfg)
      | some _, true =>
        let q := d.wts[d.turn] * 16
        .go (s.modDisp w fun d => { d with deficit := d.deficit.set d.turn (d.deficit[d.turn] + q), fresh := false })
      | some i, false =>
        if i.cost ≤ d.deficit[d.turn] then
          match leastLane (fun l => s.lanes[l].slots)
              ((List.finRange 28).filter fun l => s.eligible w l && (!i.own || decide (laneWing l = w))) with
          | some l => .go ((take i l).modDisp w fun d =>
              { d with deficit := d.deficit.set d.turn (d.deficit[d.turn] - i.cost) })
          | none => .stop
        else .go (s.modDisp w fun d => d.nextTurn (s.wing w).classCfg)

/-- The dispatcher of a wing, for at most `n` moves. -/
def State.dispatchLoop : Nat → Wing → State → State
  | 0, _, s => s
  | n + 1, w, s => if (s.wing w).disp.wait.isEmpty then s else
    match s.dispatchMove w with
    | .stop => s
    | .go s' => State.dispatchLoop n w s'

/-- The dispatcher of a wing: 4,096 moves let any item's deficit build up (R156). -/
def State.dispatch (s : State) (w : Wing) : State :=
  let s := State.dispatchLoop 4096 w s
  if (s.wing w).disp.wait.all (·.cls = 0) then s.modDisp w fun d => d.idle (s.wing w).classCfg else s

/-- Admitting an item to the dispatcher. Items of no cost use no lane (R150). -/
def State.admitItem (s : State) (w : Wing) (of : ItemOf) (key : CtxKey) (cls cost : Nat) : State :=
  if cost = 0 then s
  else
    let i : LItem := { of := of, key := key, wing := w, cls := cls, cost := cost, left := cost }
    (s.modDisp w fun d => { d with wait := d.wait ++ [i] }).dispatch w

/-- Removing an item wherever it is. -/
def State.dropItem (s : State) (of : ItemOf) : State :=
  let s := s.eachWing fun s w => s.modDisp w fun d =>
    { d with wait := d.wait.filter (·.of ≠ of), stray := d.stray.filter (·.of ≠ of) }
  let s := { s with lanes := s.lanes.map fun (x : LaneRec) => { x with items := x.items.filter (·.of ≠ of) } }
  s.eachWing fun s w => s.dispatch w

/-- Whether an item's lane work is done: it neither waits in a dispatcher nor has tokens left in a lane. -/
def State.itemDone (s : State) (of : ItemOf) : Bool :=
  s.sl.disp.wait.all (·.of ≠ of) && s.sr.disp.wait.all (·.of ≠ of)
    && s.sl.disp.stray.all (·.of ≠ of) && s.sr.disp.stray.all (·.of ≠ of)
    && s.lanes.all fun x => x.items.all fun i => i.of ≠ of ∨ i.left = 0

/-- Lanes on which the Lead budget of a wing is computed (R167, R172). -/
def State.budgetLanes (s : State) (w : Wing) : Nat :=
  min (s.wing w).classCfg.leadLanes (s.inService w).length

/-- Counting the slots of a Lead item over the sliding window of 1 us: past the budget LEAD_OVER counts, and with
LEAD_POLICE = 1 the item is admitted as Class 1, which keeps the budget; else the wing's Lead items are outside the guarantee
for 1 us (R167, R168). Answers the class admitted. -/
def State.leadAdmit (s : State) (w : Wing) (cls cost : Nat) : Nat × State :=
  if cls ≠ 0 then (cls, s)
  else
    let d := (s.wing w).disp
    let win := d.lead.filter fun x => s.rt < x.1 + 1000
    let sum := win.foldl (fun a x => a + x.2) cost
    if s.budgetLanes w * 812 < sum then
      let s := s.countWing w .leadOver
      if (s.wing w).classCfg.leadPolice then (1, (s.countWing w .leadDemoted).modDisp w fun d => { d with lead := win })
      else (0, s.modDisp w fun d => { d with lead := win ++ [(s.rt, cost)], overAt := some s.rt })
    else (0, s.modDisp w fun d => { d with lead := win ++ [(s.rt, cost)] })

/-- Changing the frame or line of an item. -/
def State.modWork (s : State) (of : ItemOf) (fo : OutFrame → OutFrame) (fi : InFrame → InFrame) (fl : MLine → MLine) : State :=
  match of with
  | .out p id => s.modPort p fun x => { x with staging := x.staging.map fun f => if f.id = id then fo f else f }
  | .inb p id => s.modPort p fun x => { x with inbound := x.inbound.map fun f => if f.id = id then fi f else f }
  | .mem q seq line => s.modRqp q fun x =>
      { x with accs := x.accs.map fun a => if a.seq = seq then { a with lines := a.lines.modify line fl } else a }
  | .page _ _ _ => s

/-- Whether an item counts as Lead from now on: one admitted as Class 1 does not (R168). -/
def State.setLead (s : State) (of : ItemOf) (b : Bool) : State :=
  s.modWork of (fun f => { f with lead := b }) (fun f => { f with lead := b }) (fun l => { l with lead := b })

/-- Whether the Lead items that a wing admits now are outside the guarantee (R168). -/
def State.leadOutside (s : State) (w : Wing) : Bool := (s.wing w).disp.overAt.any fun t => decide (s.rt < t + 1000)

/-- An item is outside the guarantee from its admission on (R168). -/
def State.markOutside (s : State) (of : ItemOf) : State :=
  s.modWork of (fun f => { f with outside := true }) (fun f => { f with outside := true }) (fun l => { l with outside := true })

/-- An item was on a lane that the watchdog struck (R166 condition 6). -/
def State.markWd (s : State) (of : ItemOf) : State :=
  s.modWork of (fun f => { f with wd := true }) (fun f => { f with wd := true }) (fun l => { l with wd := true })

/-- Putting an item that has left a lane back to the dispatcher, from its first block and at its full cost (R29, R150); a Lead
item counts to the budget again (R167, R168). -/
def State.restartItem (s : State) (l : Fin 28) (i : LItem) : State :=
  let (c, s) := if i.cls = 0 then s.leadAdmit i.wing 0 i.cost else (i.cls, s)
  let s := if i.cls = 0 ∧ c ≠ 0 then s.setLead i.of false else s
  let s := if i.cls = 0 ∧ c = 0 ∧ s.leadOutside i.wing then s.markOutside i.of else s
  s.modDisp i.wing fun d =>
    { d with wait := d.wait ++ [{ i with left := i.cost, cls := c, own := i.own || decide (laneWing l ≠ i.wing) }] }

/-- Whether the lane work of an item has ended: its slots have passed and, for an outbound frame, whose GHASH is that of the frame
as it leaves, it has been released; a written line that has been issued has left its lane (R29, R133). -/
def LItem.ended (i : LItem) : Bool :=
  match i.of with
  | .out _ _ => false
  | .inb _ _ => decide (i.left = 0)
  | .mem _ _ _ => decide (i.left = 0)
  | .page _ _ _ => decide (i.left = 0)

/-- Whether an item needs no lane any more, even where its lane stops at once: a line that has been issued for writing (R171). -/
def State.laneSpent (s : State) (i : LItem) : Bool :=
  match i.of with
  | .mem q seq k => (s.rqps[q].accs.find? (·.seq = seq)).any fun a => (a.lines[k]?).any fun l => l.phase = .writing ∨ l.phase = .done
  | _ => false

/-- Putting the items of a lane that have not finished lane work back to the dispatcher (R170). `keep` says which items stay,
though they have not; with `dead`, of a lane that stops at once, those go too whose slots have passed (R171). -/
def State.restartLane (s : State) (l : Fin 28) (keep : LItem → Bool) (dead : Bool := false) : State :=
  let stays (i : LItem) : Bool := keep i || s.laneSpent i || (!dead && i.ended)
  let out := s.lanes[l].items.filter fun i => !stays i
  let s := s.modLane l fun x => { x with items := x.items.filter stays }
  let s := out.foldl (fun s i => s.restartItem l i) s
  s.eachWing fun s w => s.dispatch w

/-- Whether an item is an inbound frame in cut-through delivery (R146). An outbound frame in release is no item any more:
`LsOut.lane` names its lane. -/
def State.inRelease (s : State) (i : LItem) : Bool :=
  match i.of with
  | .inb p id => s.ports[p].inbound.any fun f => f.id = id ∧ f.began.isSome
  | _ => false

/-- Whether a lane works on the frame in release of a port. -/
def State.releasing (s : State) (l : Fin 28) (p : Fin 64) : Bool :=
  s.ports[p].lsOut.any fun o => o.lane = some l ∧ !o.done

/-- Whether a lane has work in release or in delivery. -/
def State.holdsRelease (s : State) (l : Fin 28) : Bool :=
  s.lanes[l].items.any s.inRelease || (List.finRange 64).any (s.releasing l)

/-- The token that a lane takes next, by place in its list (R155): on a RESERVED lane a Lead token first, the first
block of the oldest item not yet entered, then the next block of the oldest started; else its items in order. -/
def LaneRec.nextToken (x : LaneRec) (reserved : Bool) : Option Nat :=
  let first := x.items.findIdx? fun i => i.cls = 0 ∧ i.left = i.cost ∧ i.left ≠ 0
  let lead := x.items.findIdx? fun i => i.cls = 0 ∧ i.left ≠ 0
  let any := x.items.findIdx? fun i => i.left ≠ 0
  if reserved then first.orElse fun _ => lead.orElse fun _ => any else any

/-- Whether the role that a lane holds carries an item (R152). -/
def State.carries (s : State) (l : Fin 28) (i : LItem) : Bool :=
  match s.role l with
  | .reserved => i.wing = laneWing l
  | .shared => i.wing = laneWing l ∧ i.cls ≠ 0
  | .lent => i.wing ≠ laneWing l ∧ i.cls ≠ 0
  | .understudy => i.wing = laneWing l ∧ i.cls = 3 ∧ (s.wing i.wing).classCfg.fullHouse
  | .struck => false

/-- Whether every in-service lane of a wing is RESERVED under the roles given (R172). -/
def allReserved (role : Fin 28 → Role) (w : Wing) : Bool :=
  (List.finRange 28).all fun l => laneWing l ≠ w ∨ (role l ≠ .shared ∧ role l ≠ .lent)

/-- Roles are assigned again after a change (R152): a lane that leaves a role closes for it. Items that have not
finished lane work and that the new role does not carry restart (R160, R173); items in release stay. Where a wing has come to
have only RESERVED lanes it reports LANES_SHORT (R172). `old` gives the roles before. -/
def State.reassign (s : State) (old : Fin 28 → Role) : State :=
  let s := (List.finRange 28).foldl (fun s l =>
    if old l = s.role l then s
    else
      let s := s.restartLane l fun i => s.carries l i || s.inRelease i
      s.modLane l fun x => { x with closing := x.closing || s.holdsRelease l }) s
  s.eachWing fun s w =>
    let s := if allReserved s.role w ∧ !allReserved old w then s.log w .lanesShort 0 (s.inService w).length 0 0 else s
    s.dispatch w

/-- Counting a Lead item that exceeded its bound: LEAD_LATE, and a LEAD_BOUND_MISS event at most once per
millisecond with the misses since the last, the path and condition code of the first (R169). -/
def State.leadLate (s : State) (w : Wing) (path cond : Nat) : State :=
  let s := s.countWing w .leadLate
  let s := s.modDisp w fun d =>
    { d with misses := d.misses + 1, firstMiss := if d.misses = 0 then (path, cond) else d.firstMiss }
  let d := (s.wing w).disp
  if d.missAt.all fun t => t + 1000000 ≤ s.rt then
    (s.log w .leadBoundMiss 0 d.misses d.firstMiss.1 d.firstMiss.2).modDisp w fun d =>
      { d with misses := 0, missAt := some s.rt }
  else s

/-- Whether condition 7 of R166 is broken, as far as the block can tell: a supply or Tj reads out of its range, or the
environment is past the Lead limits (assumption 15). -/
def State.envBroken (s : State) : Bool :=
  !s.pwr.vddc || !s.pwr.vddh || decide (s.vlt.cond[5] ≠ 0 ∨ s.vlt.cond[6] ≠ 0 ∨ s.vlt.cond[7] ≠ 0 ∨ s.vlt.cond[8] ≠ 0)
    || Config.pastLead s.rt

/-- The first condition of R166 found broken for an item of a wing: `outside` says that the item is outside the guarantee (R168),
`pinned` whether its SA or region is pinned and resident, `hold` whether condition 3 is broken, `ordered` condition 5, `struck`
condition 6. -/
def State.leadCond (s : State) (w : Wing) (outside pinned hold ordered struck : Bool) : Nat :=
  let due (t : Option Nat) (ns : Nat) : Bool := t.any fun t => decide (s.rt < t + ns)
  if outside || s.leadOutside w then 1
  else if !pinned then 2
  else if hold then 3
  else if due s.sl.disp.declaredAt 20000 || due s.sr.disp.declaredAt 20000 then 4
  else if ordered then 5
  else if struck then 6
  else if s.envBroken then 7
  else 0

end Sys2Proof.Machine
end

