-- ==== Sys2Proof/Machine/VaultOps.lean ====
section
/-! DEFINITION. The vault's shared operations: life-cycle fuses and context, derivation, the retention SRAM with its
header, tables, journal and retention Call Board, key references, key checks and uses. -/

namespace Sys2Proof.Machine

/-! ## Life-cycle fuses (R277, R278) -/

/-- Places of the logical LC bits: PROV, COMM, SVC, FS[0] to FS[15], RET. -/
def lcProv : Fin 20 := 0
/-- COMM. -/
def lcComm : Fin 20 := 1
/-- SVC. -/
def lcSvc : Fin 20 := 2
/-- RET. -/
def lcRet : Fin 20 := 19

/-- A logical bit any copy of which is burnt: start-up completes it (R278). -/
def LcBit.any (b : LcBit) : Bool := b.c0 || b.c1 || b.c2

/-- A logical bit with every copy burnt. -/
def LcBit.full : LcBit := ⟨true, true, true⟩

/-- A logical bit read by majority (R277). -/
def LcBit.read (b : LcBit) : Bool := decide (2 ≤ b.count)

/-- The FS bits as they read. -/
def fsBits (v : Vector LcBit 20) : List Bool := ((v.toList.drop 3).take 16).map LcBit.read

/-- LC_SEQ: logical bits burnt (R277). -/
def lcSeqOf (v : Vector LcBit 20) : Nat := v.toList.foldl (fun a b => a + b2n b.read) 0

/-- The state code of the LC fuses (R278, R237). -/
def lcCodeOf (v : Vector LcBit 20) : Nat :=
  if v[lcRet].read then 6
  else if v[lcSvc].read then (if (fsBits v).countP id % 2 = 1 then 5 else 4)
  else if v[lcComm].read then 3
  else if v[lcProv].read then 2
  else 1

/-- FS bits burnt lowest first (R277). -/
def fsOrdered : List Bool → Bool
  | [] => true
  | true :: t => fsOrdered t
  | false :: t => t.all (! ·)

/-- A pattern that a sequence of moves can produce (R278, R280). RET may follow any state. -/
def lcValid (v : Vector LcBit 20) : Bool :=
  (!v[lcComm].read || v[lcProv].read) && (!v[lcSvc].read || v[lcComm].read)
    && ((fsBits v).all (! ·) || v[lcSvc].read) && fsOrdered (fsBits v)

/-! ## Context and derivation (R237, R239, R241 to R244) -/

/-- A context word in the layout of header word 1 (R239). -/
def ctxWord (epoch lc seq : Nat) : Nat := epoch % 2 ^ 9 + lc % 2 ^ 8 * 2 ^ 16 + seq % 2 ^ 8 * 2 ^ 24

/-- The present context. -/
def Vault.ctx (v : Vault) : Nat := ctxWord v.epoch v.lcCode v.lcSeq

/-- DID, byte 0 first (R242). -/
def didBytes : Bytes := leBytes 16 Config.did.toNat

/-- ROOT. -/
def rootBytes : Bytes := leBytes 32 Config.root.toNat

/-- The 52-byte KDF context (R242) for block counter `i` under the device context word `ctx`. -/
def kdfContext (label : String) (ctx bits : Nat) (extra : Bytes) (i : Nat) : Bytes :=
  leBytes 4 i ++ padTo 8 (asciiBytes label)
    ++ [0, BitVec.ofNat 8 (fld ctx 23 16), BitVec.ofNat 8 (fld ctx 31 24), 0]
    ++ leBytes 2 (fld ctx 8 0) ++ leBytes 2 bits ++ didBytes ++ padTo 16 extra

/-- A derivation (R241). -/
def derive (key : Bytes) (label : String) (ctx bits : Nat) (extra : Bytes) : Bytes :=
  kdfCtr key bits (kdfContext label ctx bits extra)

/-- The retention key of a context (R243). -/
def retKeyOf (ctx : Nat) : Bytes := derive rootBytes "RETN-MAC" ctx 128 []

/-- The WKR of a context (R243). -/
def wkrOf (ctx : Nat) : Bytes := derive rootBytes "WKR-WRAP" ctx 256 []

/-- A P-384 private key from a 448-bit output (R244). -/
def ecPriv (out : Bytes) : Nat := beNat out % (ecN - 1) + 1

/-- The attestation private key of a context (R243). -/
def attestKeyOf (ctx : Nat) : Nat := ecPriv (derive rootBytes "ATTEST-K" ctx 448 [])

/-- The transport private key of a context (R243). -/
def transKeyOf (ctx : Nat) : Nat := ecPriv (derive rootBytes "TRANSPRT" ctx 448 [])

/-- Every key of R243 but the retention key, for the present context and boot nonce. -/
def Vault.deriveAll (v : Vault) : Vault :=
  let c := v.ctx
  let w := wkrOf c
  { v with keys :=
      { v.keys with
        wkr := some w
        attest := some (attestKeyOf c)
        trans := some (transKeyOf c)
        saStore := some (derive w "SA-STORE" c 256 v.bootNonce)
        saTree := some (derive w "SA-TREE-" c 256 v.bootNonce)
        saSpill := some (derive w "SA-SPILL" c 256 v.bootNonce)
        rhlLog := some (derive w "RHL-LOG-" c 256 [])
        rhlSpill := some (derive w "RHLSPILL" c 256 v.bootNonce)
        rhlTree := some (derive w "RHLTREE-" c 256 v.bootNonce) } }

/-! ## The header (R238, R239) -/

/-- HDR_MAC under a key. -/
def hdrMac (key : Bytes) (m : List Host.Cell) : Bytes := cmac key (memBytes m 0 48)

/-- Rewriting HDR_MAC under the retention key held. -/
def Vault.macHeader (v : Vault) : Vault :=
  match v.keys.ret with
  | some k => { v with sram := memPut v.sram 48 (hdrMac k v.sram) }
  | none => v

/-- Writing a new header (R240, R275): the retention SRAM then counts as lost no more. -/
def Vault.newHeader (v : Vault) (prev : Nat) (iron : Bool) : Vault :=
  let m := memPut v.sram 0 (leBytes 4 1 ++ leBytes 4 v.ctx ++ leBytes 4 prev ++ leBytes 4 (b2n iron)
    ++ List.replicate 32 0)
  Vault.macHeader { v with sram := m, sramLost := false }

/-- IRON_HELD (R239). -/
def Vault.ironHeld (v : Vault) : Bool := (memRd32 v.sram 12).testBit 0

/-- Writing IRON_HELD and HDR_MAC (R299, R302). -/
def Vault.setIron (v : Vault) (x : Bool) : Vault := Vault.macHeader { v with sram := memWr32 v.sram 12 (b2n x) }

/-- PREV (R239). -/
def Vault.prev (v : Vault) : Nat := memRd32 v.sram 8

/-! ## Tables (R238) -/

/-- Version table entry of a Class A key ID. -/
def Vault.version (v : Vault) (id : Nat) : Nat := memRd64 v.sram (0x200 + 8 * id)

/-- Writing a version table entry. -/
def Vault.setVersion (v : Vault) (id x : Nat) : Vault := { v with sram := memWr64 v.sram (0x200 + 8 * id) x }

/-- A lease table entry: SAI, PN64 and NEXT_GRANT where VALID (R271). -/
def Vault.lease (v : Vault) (i : Nat) : Option (Nat × Bool × Nat) :=
  let w0 := memRd32 v.sram (0x600 + 16 * i)
  if w0.testBit 21 then some (fld w0 19 0, w0.testBit 20, memRd64 v.sram (0x608 + 16 * i)) else none

/-- The entry that holds an SAI. -/
def Vault.leaseIx (v : Vault) (sai : Nat) : Option Nat :=
  (List.range 64).find? fun i => (v.lease i).any fun e => e.1 = sai

/-- The first free entry. -/
def Vault.leaseFree (v : Vault) : Option Nat := (List.range 64).find? fun i => (v.lease i).isNone

/-- Writing a lease table entry. -/
def Vault.setLease (v : Vault) (i sai : Nat) (pn64 : Bool) (next : Nat) : Vault :=
  let m := memWr32 v.sram (0x600 + 16 * i) (sai + b2n pn64 * 2 ^ 20 + 2 ^ 21)
  { v with sram := memWr64 (memWr32 m (0x604 + 16 * i) 0) (0x608 + 16 * i) next }

/-- Clearing a lease table entry (R271). -/
def Vault.clearLease (v : Vault) (sai : Nat) : Vault :=
  match v.leaseIx sai with
  | some i => { v with sram := memPut v.sram (0x600 + 16 * i) (List.replicate 16 0) }
  | none => v

/-- Region record r (R212), 16 bytes. -/
def Vault.regionRec (v : Vault) (r : Nat) : Bytes := memBytes v.sram (0xA00 + 16 * r) 16

/-- Writing region record r. -/
def Vault.setRegionRec (v : Vault) (r : Nat) (b : Bytes) : Vault :=
  { v with sram := memPut v.sram (0xA00 + 16 * r) (padTo 16 b) }

/-! ## The journal (R264 to R266) -/

/-- The slot the COMMIT word names, if it names one. -/
def activeSlotOf (m : List Host.Cell) : Option Nat :=
  if memRd32 m 0x40 = 2 then some 0 else if memRd32 m 0x40 = 1 then some 1 else none

/-- The active slot; 0 where none is named. -/
def Vault.activeSlot (v : Vault) : Nat := (activeSlotOf v.sram).getD 0

/-- The offset of a slot (R238). -/
def slotAddr (i : Nat) : Nat := if i = 0 then 0x80 else 0x140

/-- Whether a slot's SLOT_MAC verifies under a key. -/
def slotMacOk (key : Bytes) (m : List Host.Cell) (i : Nat) : Bool :=
  decide (memBytes m (slotAddr i + 176) 16 = cmac key (memBytes m (slotAddr i) 176))

/-- The stored update counter (R262). -/
def Vault.updCtr (v : Vault) : Nat := memRd64 v.sram (slotAddr v.activeSlot + 8)

/-- KUM_DIGEST of the active slot. -/
def Vault.kumDigest (v : Vault) : Bytes := memBytes v.sram (slotAddr v.activeSlot + 16) 48

/-- RTYPE of the active slot. -/
def Vault.journalType (v : Vault) : Nat := fld (memRd32 v.sram (slotAddr v.activeSlot)) 7 0

/-- BODY of the active slot. -/
def Vault.journalBody (v : Vault) : Bytes := memBytes v.sram (slotAddr v.activeSlot + 64) 108

/-- The bytes of a journal record with its SLOT_MAC. -/
def recordBytes (key : Bytes) (rtype count seq upd : Nat) (digest body : Bytes) : Bytes :=
  let b := leBytes 4 (rtype + count * 2 ^ 8) ++ leBytes 4 seq ++ leBytes 8 upd ++ padTo 48 digest
    ++ padTo 108 body ++ List.replicate 4 0
  b ++ cmac key b

/-- Applying the entries of a REGION_ROOT body (R264). -/
def Vault.applyRoots : Nat → Vault → Bytes → Vault
  | 0, v, _ => v
  | n + 1, v, b => Vault.applyRoots n (v.setRegionRec ((b.getD 0 0).toNat % 64) ((b.drop 2).take 16)) (b.drop 18)

/-- Applying a record to its table (R265). A KUM record with a blob sets the version table; the layout has no place for the action
of one without, so that what such a record still has to apply stands in `toApply` (assumption 11). -/
def Vault.applySlot (v : Vault) (i : Nat) : Vault :=
  let a := slotAddr i
  let w0 := memRd32 v.sram a
  let body := memBytes v.sram (a + 64) 108
  match fld w0 7 0 with
  | 1 => if leNat (body.take 2) = 1
      then v.setVersion (fld (leNat (body.take 4)) 22 16) (leNat ((body.drop 4).take 8)) else v
  | 2 =>
    let sai := fld (leNat (body.take 4)) 19 0
    match (v.leaseIx sai).orElse fun _ => v.leaseFree with
    | some ix => v.setLease ix sai ((leNat (body.take 4)).testBit 20) (leNat ((body.drop 4).take 8))
    | none => v
  | 3 => Vault.applyRoots (fld w0 10 8) v body
  | _ => v

/-- Writing a record into the slot that is not active and naming it in the COMMIT word (R265): the vault after
PREPARED and after COMMITTED. -/
def Vault.prepare (v : Vault) (rtype count upd : Nat) (digest body : Bytes) : Vault :=
  let other := 1 - v.activeSlot
  let seq := (memRd32 v.sram (slotAddr v.activeSlot + 4) + 1) % 2 ^ 32
  let bytes := recordBytes (v.keys.ret.getD []) rtype count seq upd digest body
  { v with sram := memPut v.sram (slotAddr other) bytes }

/-- Writing the COMMIT word to name the slot that was not active. -/
def Vault.commit (v : Vault) : Vault :=
  { v with sram := memWr32 v.sram 0x40 (if v.activeSlot = 0 then 1 else 2) }

/-! ## The retention Call Board (R304, R305) -/

/-- Whether the VDDC domain is powered and not asleep. -/
def Power.awake (p : Power) : Bool := p.vddc && !p.slpAck

/-- Whether the VDDC domain takes its inputs: present and out of reset (R81). -/
def State.cpUp (s : State) : Bool := s.pwr.awake && decide (s.boot.phase ≠ .off)

/-- The words of an entry in the layout of R304, with a wing's time. -/
def State.rcbWords (s : State) (w : Wing) (e : Ev) (source cond level newEpoch : Nat) (atBoot : Bool) : List Word :=
  let up := s.pwr.awake
  let valid := if up then decide ((s.wing w).prm.st ≠ .unset) else s.vlt.sleepValid
  let t := if up then s.now w else s.vlt.sleepTs
  [wd (e.code + source * 2 ^ 8 + cond * 2 ^ 12 + s.vlt.lcCode * 2 ^ 16 + level * 2 ^ 19 + b2n (!up) * 2 ^ 21
      + b2n atBoot * 2 ^ 22 + b2n valid * 2 ^ 23),
   wd (min ((s.vlt.vtimer - s.vlt.msBase) / 1000000) (2 ^ 32 - 1)), 0, wd newEpoch] ++ tsWords t

/-- Writing a retention Call Board entry: entries fill in order, and once all eight are unread each new one
overwrites entry 7 and counts in its DROPPED field (R305). -/
def Vault.rcbPush (v : Vault) (ws : List Word) : Vault :=
  if v.rcbFill < 8 then
    { v with sram := memPut v.sram (0xE00 + 32 * v.rcbFill) (wordsToBytes ws), rcbFill := v.rcbFill + 1,
             rcbUnread := true }
  else
    let d := min (fld (memRd32 v.sram 0xEE8) 15 0 + 1) 0xFFFF
    { v with sram := memPut v.sram 0xEE0 (wordsToBytes (ws.set 2 (wd d))), rcbUnread := true }

/-- Writing an entry that is no tamper event (R240, R295). -/
def State.rcb (s : State) (e : Ev) (newEpoch : Nat) : State :=
  let ws := s.rcbWords .sl e 0 0 0 newEpoch (decide (s.boot.phase ≠ .ready))
  s.modVlt fun v => v.rcbPush ws

/-- VLT_EVT is 1 while any entry is unread (R305). -/
def State.vltEvt (s : State) : Bool := s.pwr.vddv && s.vlt.rcbUnread

/-- SLP_ACK (R72, R420): with VDDV absent every output is 0 (R416). -/
def State.slpAck (s : State) : Bool := s.pwr.vddv && s.pwr.slpAck

/-! ## KEY_ATTR (R252) -/

/-- KEY_ATTR from its four words. -/
def KeyAttr.ofWords (l : List Word) (i : Nat) : KeyAttr :=
  let w0 := wordAt l i
  { ktype := fld w0 3 0, clsB := bitOf w0 4, generated := bitOf w0 5, expireReset := bitOf w0 6,
    world0 := bitOf w0 7, world1 := bitOf w0 8, lcAllowed := fld w0 14 9, wrapOut := bitOf w0 15,
    usage := fld w0 21 16, groups := fld (wordAt l (i + 1)) 15 0, useLimit := wordAt l (i + 2),
    expiryS := wordAt l (i + 3) }

/-- KEY_ATTR in its four words. -/
def KeyAttr.words (a : KeyAttr) : List Word :=
  [wd (a.ktype + b2n a.clsB * 2 ^ 4 + b2n a.generated * 2 ^ 5 + b2n a.expireReset * 2 ^ 6 + b2n a.world0 * 2 ^ 7
      + b2n a.world1 * 2 ^ 8 + a.lcAllowed * 2 ^ 9 + b2n a.wrapOut * 2 ^ 15 + a.usage * 2 ^ 16),
   wd a.groups, wd a.useLimit, wd a.expiryS]

/-- Reserved bits of KEY_ATTR words are 0 (R7). -/
def keyAttrClean (l : List Word) (i : Nat) : Bool :=
  decide (fld (wordAt l i) 31 22 = 0) && decide (fld (wordAt l (i + 1)) 31 16 = 0)

/-- Key length in bytes of a KTYPE (R253). -/
def ktypeLen (t : Nat) : Nat := if t = 1 ∨ t = 3 ∨ t = 5 then 16 else 32

/-- Salt length in bytes of a KTYPE (R253). -/
def ktypeSalt (t : Nat) : Nat := if t = 3 ∨ t = 4 then 4 else if t = 5 ∨ t = 6 then 12 else 0

/-- KTYPE values that are not reserved (R253). -/
def ktypeOk (t : Nat) : Bool := decide (1 ≤ t ∧ t ≤ 6)

/-- The key's own bytes. -/
def Key.material (k : Key) : Bytes := k.key.take (ktypeLen k.attr.ktype)

/-- Use of a key (R252 USAGE): STREAM, MEMORY, WRAP, DERIVE, MKA, ICV. -/
inductive Usage where
  | stream | memory | wrap | derive | mka | icv
deriving DecidableEq, Repr

/-- The USAGE bit. -/
def Usage.bit : Usage → Nat
  | .stream => 0
  | .memory => 1
  | .wrap => 2
  | .derive => 3
  | .mka => 4
  | .icv => 5

/-! ## Key references and cells (R247, R248) -/

/-- Where a key lives: a Class A key ID, a session index, a memory key slot. -/
inductive KLoc where
  | classA (id : Nat)
  | sess (j : Nat)
  | slot (k : Nat)
deriving DecidableEq, Repr

/-- A key reference (R248); none where its kind or an unused bit is reserved. -/
def kLoc (ref : Nat) : Option KLoc :=
  match fld ref 23 22 with
  | 0 => if fld ref 21 20 = 0 then some (.sess (fld ref 19 0)) else none
  | 1 => if fld ref 21 12 = 0 then some (.slot (fld ref 11 0)) else none
  | 2 => if fld ref 21 7 = 0 then some (.classA (fld ref 6 0)) else none
  | _ => none

/-- The reference that names a key. -/
def KLoc.ref : KLoc → Nat
  | .classA id => 2 * 2 ^ 22 + id
  | .sess j => j
  | .slot k => 2 ^ 22 + k

/-- The Class A cell that holds a key ID. -/
def Vault.cellOf (v : Vault) (id : Nat) : Option (Fin 64 × Key) :=
  (List.finRange 64).findSome? fun i => match v.classA[i] with
    | some (x, k) => if x = id then some (i, k) else none
    | none => none

/-- The first free Class A cell. -/
def Vault.freeCell (v : Vault) : Option (Fin 64) := (List.finRange 64).find? fun i => v.classA[i].isNone

/-- Unloading a Class A cell: zeroised, and every memory key slot that refers to it becomes empty (R247). -/
def Vault.unload (v : Vault) (id : Nat) : Vault :=
  let v := match v.cellOf id with
    | some (i, _) => { v with classA := v.classA.set i none }
    | none => v
  { v with slots := v.slots.filter fun x => x.2.ref ≠ some id }

/-- The key that a location holds; a slot that refers to a Class A cell gives that cell's key. -/
def Vault.keyAt (v : Vault) : KLoc → Option Key
  | .classA id => (v.cellOf id).map (·.2)
  | .sess j => tget v.sess j
  | .slot k => match tget v.slots k with
    | some e => match e.ref with
      | some id => (v.cellOf id).map (·.2)
      | none => e.key
    | none => none

/-- Changing the key at a location where it stands. -/
def Vault.modKey (v : Vault) (l : KLoc) (f : Key → Key) : Vault :=
  let inCell (v : Vault) (id : Nat) : Vault := match v.cellOf id with
    | some (i, k) => { v with classA := v.classA.set i (some (id, f k)) }
    | none => v
  match l with
  | .classA id => inCell v id
  | .sess j => { v with sess := tmod v.sess j f }
  | .slot k => match tget v.slots k with
    | some e => match e.ref with
      | some id => inCell v id
      | none => { v with slots := tput v.slots k { e with key := e.key.map f } }
    | none => v

/-- Zeroising the key at a location. -/
def Vault.dropKey (v : Vault) : KLoc → Vault
  | .classA id => v.unload id
  | .sess j => { v with sess := tdel v.sess j }
  | .slot k => { v with slots := tdel v.slots k }

/-- The parity entry of a location, on a wing's path (R251). -/
def KLoc.ent (w : Wing) : KLoc → Ent
  | .classA id => .key w 0 id
  | .sess j => .key w 1 j
  | .slot k => .key w 2 k

/-- Store and logical index of a KEY_PARITY event (R378). -/
def KLoc.store : KLoc → Nat × Nat
  | .classA id => (0, id)
  | .sess j => (1, j)
  | .slot k => (2, k)

/-- Whether a wing's copy of a memory key slot is written (R247, R276). -/
def Slot.inWing (e : Slot) : Wing → Bool
  | .sl => e.inSl
  | .sr => e.inSr

/-- A slot without a wing's copy. -/
def Slot.lose (e : Slot) : Wing → Slot
  | .sl => { e with inSl := false }
  | .sr => { e with inSr := false }

/-- Whether a wing holds a session key: in its cache, or in its spill area (R249). -/
def WingSt.holdsSess (x : WingSt) (j : Nat) : Bool := (x.kcache.contains j || x.kspill.contains j) && !x.klost.contains j

/-- A wing's copy of a key is empty. A memory key slot has a copy in each wing (R247); where the other wing has its own copy of a
session key (R249), only this wing, with its SAs, loses it; otherwise the key is gone. -/
def State.loseCopy (s : State) (w : Wing) (l : KLoc) : State :=
  match l with
  | .sess j =>
    let names (e : Nat × Sa) : Bool := decide (e.2.st ≠ .closed) && decide (fld e.2.r.keyRef 19 0 = j)
    let s := s.modWing w fun x => { x with
      kcache := x.kcache.erase j, kspill := x.kspill.erase j
      sas := x.sas.map fun e => if names e then (e.1, { e.2 with keyGone := true }) else e }
    if (s.wing (otherWing w)).holdsSess j then s.modWing w fun x => { x with klost := x.klost ++ [j] }
    else s.modVlt fun v => v.dropKey l
  | .slot k => s.modVlt fun v =>
      if (tget v.slots k).any fun e => e.inWing (otherWing w) then { v with slots := tmod v.slots k fun e => e.lose w }
      else v.dropKey l
  | .classA _ => s.modVlt fun v => v.dropKey l

/-- A read of one key cell over a wing's path: a cell that fails parity counts as empty, a Class A cell is then
unloaded, and the event and count go to that wing (R251, R446). -/
def State.readCell (s : State) (w : Wing) (l : KLoc) (k : Option Key) : Option Key × State :=
  if k.isSome ∧ s.bad (l.ent w) then
    let s := ((s.log w .keyParity 0 l.store.1 l.store.2 0).countWing w .keyParity).parityHit w (l.ent w)
    (none, (s.loseCopy w l).fix (l.ent w))
  else (k, s)

/-- A read of a key over a wing's path. A memory key slot is read in the wing's own copy, and where it refers to a Class A cell
that cell is read as well. -/
def State.readKey (s : State) (w : Wing) (l : KLoc) : Option Key × State :=
  match l with
  | .slot k => match tget s.vlt.slots k with
    | none => (none, s)
    | some e =>
      if !e.inWing w then (none, s)
      else if s.bad (l.ent w) then s.readCell w l (s.vlt.keyAt l)
      else match e.ref with
        | some id => s.readCell w (.classA id) (s.vlt.keyAt l)
        | none => (e.key, s)
  | .sess j => if (s.wing w).klost.contains j then (none, s) else s.readCell w l (s.vlt.keyAt l)
  | .classA _ => s.readCell w l (s.vlt.keyAt l)

/-- The code of a wing's own key cells among the stores. -/
def wingCellStore : Wing → Nat
  | .sl => 4
  | .sr => 5

/-- The key cells of R243 and R247: those of the key stores, the vault cells, and the cells that each wing has of its own. -/
inductive CellName where
  | key (l : KLoc)
  | wkr | attest | transport | retention
  | saStore (w : Wing) | saTree (w : Wing) | saSpill (w : Wing) | rhlLog (w : Wing) | rhlSpill (w : Wing) | rhlTree (w : Wing)
deriving DecidableEq, Repr

/-- The store of a cell, with its index there, by which the permutation of a start-up names it. -/
def CellName.store : CellName → Nat × Nat
  | .key l => l.store
  | .wkr => (3, 0)
  | .attest => (3, 1)
  | .transport => (3, 2)
  | .retention => (3, 3)
  | .saStore w => (wingCellStore w, 0)
  | .saTree w => (wingCellStore w, 1)
  | .saSpill w => (wingCellStore w, 2)
  | .rhlLog w => (wingCellStore w, 3)
  | .rhlSpill w => (wingCellStore w, 4)
  | .rhlTree w => (wingCellStore w, 5)

/-- The key in a cell, if it holds one; a private key is 48 bytes. -/
def Vault.cellKey (v : Vault) : CellName → Option Bytes
  | .key l => (v.keyAt l).map fun k => k.key ++ k.salt
  | .wkr => v.keys.wkr
  | .attest => v.keys.attest.map (leBytes 48)
  | .transport => v.keys.trans.map (leBytes 48)
  | .retention => v.keys.ret
  | .saStore _ => v.keys.saStore
  | .saTree _ => v.keys.saTree
  | .saSpill _ => v.keys.saSpill
  | .rhlLog _ => v.keys.rhlLog
  | .rhlSpill _ => v.keys.rhlSpill
  | .rhlTree _ => v.keys.rhlTree

/-- What each physical key cell holds (R250): K XOR M, and M from the CTR_DRBG. The draw is that of the last refresh, the cell the
one to which the permutation of this start-up maps the logical index. -/
def Vault.cellHolds (v : Vault) (c : CellName) : Option (Bytes × Bytes) :=
  (v.cellKey c).map fun k =>
    let m := leBytes k.length (Config.maskOf v.maskDraw (Config.cellAt v.perm c.store.1 c.store.2))
    (xorBytes k m, m)

/-- A key has reached its end (R255). -/
def Key.ended (k : Key) (rt : Nat) : Bool :=
  (decide (k.attr.useLimit ≠ 0) && decide (k.attr.useLimit ≤ k.uses))
    || (decide (k.attr.expiryS ≠ 0) && decide (k.at' + k.attr.expiryS * 1000000000 ≤ rt))

/-- The attribute checks of R254: USAGE, LC_ALLOWED, and GROUPS and world where they are checked. -/
def Key.allows (k : Key) (u : Usage) (lc : Nat) (who : Option (Nat × Bool)) : Bool :=
  k.attr.usage.testBit u.bit && k.attr.lcAllowed.testBit (lc - 1)
    && match who with
      | some (g, world) => k.attr.groups.testBit g && (if world then k.attr.world1 else k.attr.world0)
      | none => true

/-- The inbound SAs under a session key close (R144, R255). -/
def State.closeUnder (s : State) (l : KLoc) : State :=
  match l with
  | .sess j =>
    let close (e : Nat × Sa) : Nat × Sa :=
      if e.2.r.inb ∧ fld e.2.r.keyRef 19 0 = j ∧ e.2.st = .active then (e.1, { e.2 with st := .closing, closeAt := s.rt }) else e
    s.eachWing fun s w => s.modWing w fun x => { x with sas := x.sas.map close }
  | .slot _ => s
  | .classA _ => s

/-- A key reaches its end: KEY_SPENT, once per key, on the wing whose use ended it, and its inbound SAs close (R255, R446). -/
def State.spend (s : State) (w : Wing) (l : KLoc) : State :=
  match s.vlt.keyAt l with
  | some k =>
    let s := s.closeUnder l
    if k.spent then s
    else ((s.modVlt fun v => v.modKey l fun k => { k with spent := true }).log w .keySpent 0 l.ref 0 0).countWing w
      .keySpent
  | none => s

/-- Counting `n` uses of a key; the use that reaches USE_LIMIT ends it (R255). -/
def State.useKey (s : State) (w : Wing) (l : KLoc) (n : Nat) : State :=
  let s := s.modVlt fun v => v.modKey l fun k => { k with uses := k.uses + n }
  match s.vlt.keyAt l with
  | some k => if k.ended s.rt then s.spend w l else s
  | none => s

/-! ## The VDDC domain -/

/-- Zeroising what a reset of the VDDC domain takes from the vault's side: session keys, memory key slots, the
store keys held in the wings' cells, Class A keys with EXPIRE_RESET = 1, and every use count (R247, R255, R256). -/
def Vault.coreReset (v : Vault) : Vault :=
  { v with
    slots := [], sess := [], jq := [], burn := none, hold := false, drbgOk := false,
    keys := { v.keys with saStore := none, saTree := none, saSpill := none, rhlLog := none, rhlSpill := none,
                          rhlTree := none },
    classA := v.classA.map fun c => match c with
      | some (id, k) => if k.attr.expireReset then none else some (id, { k with uses := 0 })
      | none => none
    markSl := none, markSr := none, pathLostSl := false, pathLostSr := false }

/-- Burning a copy of a logical bit. -/
def burnCopy (v : Vector LcBit 20) (bit : Fin 20) (copy : Nat) : Vector LcBit 20 :=
  v.set bit (let b := v[bit]
    if copy = 0 then { b with c0 := true } else if copy = 1 then { b with c1 := true } else { b with c2 := true })

/-- A burn that a reset or a loss of supply cuts: whether the copy is sensed burnt is not stated (R439), a free value. -/
def State.cutBurn (s : State) : State :=
  match s.vlt.burn with
  | none => s
  | some b =>
    let s' := s.takeFree
    s'.modVlt fun v =>
      { v with burn := none, lc := if s.freeVal % 2 = 1 then burnCopy v.lc (Fin.ofNat 20 b.bit) b.copy else v.lc }

/-- Reset of the whole VDDC domain (R382, R413): every unit of the domain at its reset state; the vault keeps what
its own domain holds, and the ports' reset and hold inputs stand as they are driven. -/
def State.coreReset (s : State) : State :=
  let s := s.cutBurn
  { State.reset with
    pending := s.pending, freeCtr := s.freeCtr, pwr := { s.pwr with entering := false, saving := false },
    ports := s.ports.map fun (p : Port) =>
      { hsRst := p.hsRst, lsRst := p.lsRst, hold := p.hold, holdRsn := p.holdRsn, holdSince := s.vlt.rt }
    rqps := s.rqps.map fun (q : RqPort) => { rst := q.rst }
    mps := s.mps.map fun m => { rst := m.rst, sb := m.sb }
    vlt := s.vlt.coreReset }

/-- RT stops: what it reads is no longer the time until a start-up takes it up again (R307). -/
def State.haltRt (s : State) : State := s.modVlt fun v => { v with rtLive := false }

/-- VDDV falls below its range and above 0.70 V: retention is kept, the vault writes nothing, and the VDDC domain is
held in reset (R413, R414). -/
def State.vddvDip (s : State) : State :=
  let s := s.coreReset.haltRt
  { s with pwr := { s.pwr with vddv := false, holdOver := false } }

/-- Committing one journal record (R265) and applying it by `apply`; `cut` says where a power failure ends it
(R266). -/
def State.commitRecord (s : State) (rtype count upd : Nat) (digest body : Bytes) (cut : JCut)
    (apply : State → State) : State :=
  let s1 := s.modVlt fun v => v.prepare rtype count upd digest body
  match cut with
  | .beforeCommit => s1.vddvDip
  | .afterCommit => (s1.modVlt Vault.commit).vddvDip
  | .none => apply (s1.modVlt Vault.commit)

/-- A VAULT record: what the vault answered a wing (R398). -/
def State.rhlVault (s : State) (w : Wing) (status : Nat) (sealed : Bytes) : State :=
  s.rhlRec w 0x0C (leBytes 1 status) sealed (min 18 (2 + (sealed.length + 3) / 4))

/-- Whether a wing's path to the vault is lost (R42). -/
def State.pathLost (s : State) : Wing → Bool
  | .sl => s.vlt.pathLostSl
  | .sr => s.vlt.pathLostSr

end Sys2Proof.Machine
end

