-- ==== Sys2Proof/Machine/SaOps.lean ====
section
/-! DEFINITION. Security associations: the record (R119), its checks (R120, R253), residence (R122, R123), numbers and
the receive window (R137, R145), switching (R138, R139) and the end of a close (R144). -/

namespace Sys2Proof.Machine

/-! ## The record (R119) -/

/-- The Host fields and the PN of a record. -/
def SaRec.ofWords (l : List Word) : SaRec × Nat :=
  let w0 := wordAt l 0
  let w12 := wordAt l 12
  ({ inb := bitOf w0 1, proto := fld w0 3 2, key256 := bitOf w0 4, pn64 := bitOf w0 5, cls := fld w0 7 6,
     conf := bitOf w0 8, confOffset := fld w0 10 9, holdVerify := bitOf w0 11, pin := bitOf w0 12,
     replay := bitOf w0 13, groupPn := bitOf w0 14, sendSci := bitOf w0 15, endStation := bitOf w0 16,
     an := fld w0 18 17, wing := fld w0 20 19, portEn := wordAt l 1, keyRef := fld (wordAt l 2) 23 0,
     nextSai := fld (wordAt l 3) 19 0, nextValid := bitOf (wordAt l 3) 20,
     pnThresh := wordsNat (wordsAt l 6 2), ssci := l.getD 8 0, sci := wordsToBytes (wordsAt l 9 2),
     spi := l.getD 11 0, window := fld w12 10 0, templateLen := fld w12 21 16,
     overlapMs := fld (wordAt l 13) 15 0, template := wordsToBytes (wordsAt l 16 16) },
   wordsNat (wordsAt l 4 2))

/-- The code of an SA state (R119). -/
def SaState.code : SaState → Nat
  | .active => 1
  | .closing => 2
  | .closed => 3

/-- The words of a record as SA_READ returns them. -/
def Sa.words (x : Sa) (parErr : Bool) : List Word :=
  let r := x.r
  [wd (1 + b2n r.inb * 2 ^ 1 + r.proto * 2 ^ 2 + b2n r.key256 * 2 ^ 4 + b2n r.pn64 * 2 ^ 5 + r.cls * 2 ^ 6
      + b2n r.conf * 2 ^ 8 + r.confOffset * 2 ^ 9 + b2n r.holdVerify * 2 ^ 11 + b2n r.pin * 2 ^ 12
      + b2n r.replay * 2 ^ 13 + b2n r.groupPn * 2 ^ 14 + b2n r.sendSci * 2 ^ 15 + b2n r.endStation * 2 ^ 16
      + r.an * 2 ^ 17 + r.wing * 2 ^ 19 + x.st.code * 2 ^ 21 + b2n x.threshHit * 2 ^ 23 + b2n x.exhausted * 2 ^ 24
      + b2n x.switched * 2 ^ 25 + b2n x.resident * 2 ^ 26 + b2n parErr * 2 ^ 31),
   wd r.portEn, wd r.keyRef, wd (r.nextSai + b2n r.nextValid * 2 ^ 20)]
    ++ toWords 2 x.pn ++ toWords 2 r.pnThresh ++ [r.ssci] ++ bytesToWords (padTo 8 r.sci)
    ++ [r.spi, wd (r.window + r.templateLen * 2 ^ 16), wd r.overlapMs]
    ++ toWords 2 (if r.groupPn then x.leaseEnd else 0) ++ bytesToWords (padTo 64 r.template)

/-- Reserved bits of a record are 0 (R7); the fields of the engine are ignored (R447). -/
def saClean (l : List Word) : Bool :=
  decide (fld (wordAt l 0) 30 27 = 0 ∧ fld (wordAt l 2) 31 24 = 0 ∧ fld (wordAt l 3) 31 21 = 0
    ∧ fld (wordAt l 12) 15 11 = 0 ∧ fld (wordAt l 12) 31 22 = 0 ∧ fld (wordAt l 13) 31 16 = 0)

/-- The last number of an SA's space (R137). -/
def SaRec.lastPn (r : SaRec) : Nat := if r.pn64 then 2 ^ 64 - 1 else 2 ^ 32 - 1

/-- PN_THRESH, where 0 selects three quarters of the space. -/
def SaRec.thresh (r : SaRec) : Nat :=
  if r.pnThresh = 0 then (if r.pn64 then 0xC000000000000000 else 0xC0000000) else r.pnThresh

/-- PROTO is MACSEC. -/
def SaRec.isMacsec (r : SaRec) : Bool := r.proto = 0
/-- PROTO is MESH. -/
def SaRec.isMesh (r : SaRec) : Bool := r.proto = 3
/-- PROTO is ESP_TRANSPORT or ESP_TUNNEL. -/
def SaRec.isEsp (r : SaRec) : Bool := r.proto = 1 ∨ r.proto = 2

/-- The offset past the VLAN tag of an ESP tunnel template: 12, or 16 with a tag (R128). -/
def templateE (t : Bytes) : Nat :=
  let tpid := beNat ((t.drop 12).take 2)
  if tpid = 0x8100 ∨ tpid = 0x88A8 then 16 else 12

/-- The template of an ESP_TUNNEL outbound SA meets R128. -/
def templateOk (r : SaRec) : Bool :=
  let t := r.template
  let e := templateE t
  let ety := beNat ((t.drop e).take 2)
  let h := t.drop (e + 2)
  if ety = 0x0800 then
    decide (r.templateLen = e + 22 ∧ (h.getD 0 0).toNat = 0x45 ∧ (h.getD 9 0).toNat = 50
      ∧ bitOf (h.getD 6 0).toNat 6 = true ∧ beNat ((h.drop 4).take 2) = 0)
  else if ety = 0x86DD then
    decide (r.templateLen = e + 42 ∧ (h.getD 0 0).toNat / 16 = 6 ∧ (h.getD 6 0).toNat = 50)
  else false

/-- The restrictions of R119 and R120 on a record by itself. -/
def saRecOk (sai : Nat) (r : SaRec) (pn : Nat) : Bool :=
  (!r.isEsp || r.conf) && decide (r.confOffset ≠ 3) && (decide (r.confOffset = 0) || r.isMacsec)
    && (!r.holdVerify || r.inb) && (!r.replay || r.inb) && (!r.groupPn || !r.inb)
    && (!r.sendSci || (r.isMacsec && !r.inb)) && (!r.endStation || (r.isMacsec && !r.inb && !r.sendSci))
    && (!r.inb || decide (r.an = sai % 4))
    && decide (r.wing ≠ 3) && (decide (r.wing ≠ 2) || r.groupPn) && decide (r.window ≤ 1024)
    && decide (r.overlapMs ≤ 60000)
    && (if r.proto = 2 ∧ r.inb = false then decide (34 ≤ r.templateLen ∧ r.templateLen ≤ 58) && templateOk r
        else decide (r.templateLen = 0) && r.template.all (· = 0))
    && (if r.inb then decide (pn = 0) else decide (1 ≤ pn ∧ pn ≤ r.lastPn))
    && (!(r.groupPn && !r.isEsp) || r.pn64)

/-- Every field of a record is within the range that its row of R119 states, and a template that none uses is 0 (R7). -/
def SaRec.inRange (r : SaRec) (pn : Nat) : Bool :=
  decide (r.confOffset ≠ 3 ∧ r.wing ≠ 3 ∧ r.window ≤ 1024 ∧ r.overlapMs ≤ 60000 ∧ pn ≤ r.lastPn ∧ (r.inb ∨ 1 ≤ pn))
    && (if r.proto = 2 ∧ r.inb = false then decide (34 ≤ r.templateLen ∧ r.templateLen ≤ 58)
        else decide (r.templateLen = 0) && r.template.all (· = 0))

/-- The suite check of R253 between a record and its key. -/
def saSuiteOk (r : SaRec) (k : KeyAttr) : Bool :=
  let want := if r.isEsp then (if r.key256 then 4 else 3)
    else if r.pn64 then (if r.key256 then 6 else 5)
    else (if r.key256 then 2 else 1)
  decide (k.ktype = want) && k.usage.testBit 0

/-- The wings a record names. -/
def SaRec.wings (r : SaRec) : List Wing := if r.wing = 0 then [.sl] else if r.wing = 1 then [.sr] else [.sl, .sr]

/-! ## The table -/

/-- An installed SA of a wing. -/
def State.sa (s : State) (w : Wing) (sai : Nat) : Option Sa := tget (s.wing w).sas sai

/-- Changing an installed SA. -/
def State.modSa (s : State) (w : Wing) (sai : Nat) (f : Sa → Sa) : State :=
  s.modWing w fun x => { x with sas := tmod x.sas sai f }

/-- Counts of an SA (R148, R375). -/
inductive SaCnt where
  | outFrames | outOctets | ksRecompute | late | lateEpoch | closeDiscard | pnExhausted
  | inOk | inOctets | badTag | replay | sectagInvalid | padError | espNextHdr | windowCollapse
  | laneAbort | bridgeAbort
deriving DecidableEq, Repr

/-- The place of an SA count. -/
def SaCnt.ix : SaCnt → Fin 17
  | .outFrames => 0
  | .outOctets => 1
  | .ksRecompute => 2
  | .late => 3
  | .lateEpoch => 4
  | .closeDiscard => 5
  | .pnExhausted => 6
  | .inOk => 7
  | .inOctets => 8
  | .badTag => 9
  | .replay => 10
  | .sectagInvalid => 11
  | .padError => 12
  | .espNextHdr => 13
  | .windowCollapse => 14
  | .laneAbort => 15
  | .bridgeAbort => 16

/-- Adding to an SA's count. -/
def State.countSa (s : State) (w : Wing) (sai : Nat) (c : SaCnt) (k : Nat) : State :=
  s.modSa w sai fun x => { x with cnt := bumpAt x.cnt c.ix k }

/-- The location of an SA's key. -/
def SaRec.keyLoc (r : SaRec) : KLoc := .sess (fld r.keyRef 19 0)

/-- The ports of a wing. -/
def wingPorts (w : Wing) : List (Fin 64) := (List.finRange 64).filter fun p => portWing p = w

/-- Frames of an SA queued, in a lane or in release on a wing's ports. -/
def State.saBusy (s : State) (w : Wing) (sai : Nat) : Bool :=
  (wingPorts w).any fun p =>
    let x := s.ports[p]
    x.staging.any (·.sai = some sai) || x.inbound.any (·.sai = some sai)
      || x.lsOut.any fun o => o.sai = some sai ∧ !o.done

/-- Whether an SA is present for use: ACTIVE or, for its admitted frames, CLOSING; its record and key good (R86,
R149, R251). -/
def Sa.present (x : Sa) : Bool := x.st ≠ .closed ∧ !x.gone ∧ !x.keyGone

/-! ## Residence (R122, R123) -/

/-- The least recently used resident SA that may be evicted. -/
def State.lruSa (s : State) (w : Wing) : Option Nat :=
  ((s.wing w).sas.foldl (fun (best : Option (Nat × Nat)) e =>
    if e.2.resident ∧ !e.2.r.pin ∧ !s.saBusy w e.1 then
      match best with
      | some (_, u) => if e.2.used < u then some (e.1, e.2.used) else best
      | none => some (e.1, e.2.used)
    else best) none).map (·.1)

/-- Whether an access of the engine for a wing waits to start, is under way, or has ended and is not yet taken. -/
def State.ownAsked (s : State) (w : Wing) (u : OwnUse) : Bool :=
  (s.wing w).ownq.any (·.1 = u) || (s.wing w).ownres.any (·.1 = u)
    || s.rqps.any fun x => x.accs.any fun a => a.own = some u

/-- An access of the engine for a wing, of a class (R210, R448); one of its kind at a time. -/
def State.askOwn (s : State) (w : Wing) (u : OwnUse) (cls : Nat) : State :=
  if s.ownAsked w u then s else s.modWing w fun x => { x with ownq := x.ownq ++ [(u, cls, false)] }

/-- An SA's record leaves the cache for the store, with its counts; an inbound SA's window collapses to its top (R122 to R124,
R148). -/
def State.dropSa (s : State) (w : Wing) (sai cls : Nat) : State :=
  let s := s.modSa w sai fun x =>
    { x with resident := false, floor := if x.r.inb then x.pn + 1 else x.floor, recv := [], pend := [] }
  (s.askOwn w (.saWrite sai) cls).askOwn w (.stat sai) 3

/-- Making room in the SA cache for a record that an access of a class brings (R123). -/
def State.evictSa (s : State) (w : Wing) (cls : Nat) : State :=
  if ((s.wing w).sas.countP fun e => e.2.resident) < 32768 then s
  else match s.lruSa w with
    | some sai => s.dropSa w sai cls
    | none => s

/-- Whether a resident SA of a wing uses a session key. -/
def State.sessInUse (s : State) (w : Wing) (j : Nat) : Bool :=
  (s.wing w).sas.any fun e => e.2.resident ∧ fld e.2.r.keyRef 19 0 = j

/-- A session key enters a wing's cache of 32,768 (R247). Where that is full, the key longest in it that no resident SA uses is
spilled (R249), or that of the SA whose record is evicted for it (DESIGN CHOICE, assumption 46). -/
def State.cacheKey (s : State) (w : Wing) (j : Nat) : State :=
  let held := (s.wing w).kcache.filter fun i => (tget s.vlt.sess i).isSome
  let put (s : State) (l : List Nat) : State := s.modWing w fun x => { x with kcache := l ++ [j], kspill := x.kspill.erase j }
  let spill (s : State) (i : Nat) : State :=
    (s.modWing w fun x => { x with kspill := x.kspill.erase i ++ [i] }).askOwn w (.keyWrite i) 3
  if held.contains j then s
  else if held.length < 32768 then put s held
  else match held.find? fun i => !s.sessInUse w i with
    | some i => spill (put s (held.erase i)) i
    | none => match s.lruSa w with
      | some sai =>
        let i := (s.sa w sai).elim j fun x => fld x.r.keyRef 19 0
        spill (put (s.dropSa w sai 3) (held.erase i)) i
      | none => spill s j

/-- A session key that a wing's command makes is in that wing's cache, and spilled in neither (R249). -/
def State.freshKey (s : State) (w : Wing) (j : Nat) : State :=
  (s.eachWing fun s w => s.modWing w fun x =>
    { x with kcache := x.kcache.erase j, kspill := x.kspill.erase j, klost := x.klost.erase j }).cacheKey w j

/-- Whether a wing has to read a session key back before it can use it (R249). -/
def State.isSpilled (s : State) (w : Wing) : KLoc → Bool
  | .sess j => (tget s.vlt.sess j).isSome && (s.wing w).kspill.contains j && (s.wing w).store.isSome
  | _ => false

/-- A wing's command uses a session key: one that the wing has spilled is read back (R249). -/
def State.needKey (s : State) (w : Wing) : KLoc → State
  | .sess j =>
    if (tget s.vlt.sess j).isNone then s
    else if s.isSpilled w (.sess j) then s.askOwn w (.keyRead j) 3 else s.cacheKey w j
  | _ => s

/-- A command, or the end of a key, that needs the record of an SA that is not resident fetches it, in Class 3 (R122, R448); it does not
wait for the record (DESIGN CHOICE, assumption 46). -/
def State.needSa (s : State) (w : Wing) (sai : Nat) : State :=
  if (s.sa w sai).any fun x => x.resident ∨ x.gone ∨ x.keyGone then s
  else if (s.sa w sai).isNone then s
  else s.askOwn w (.saRead sai) 3

/-! ## Switching and closing (R138, R139, R144) -/

/-- A read of an SA's record: one that fails parity is reported, and the SA is absent from then on (R36, R149). -/
def State.readSa (s : State) (w : Wing) (sai : Nat) : State :=
  match s.sa w sai with
  | some x =>
    if s.bad (.sa w sai) ∧ !x.gone then
      ((s.log w .saParity 0 sai 0 0).parityHit w (.sa w sai)).modSa w sai fun x => { x with gone := true }
    else s
  | none => s

/-- Whether an SA may serve as the next of another on a port: ACTIVE, outbound, enabled and not SWITCHED (R139).
`p` is none where no port is concerned. -/
def State.nextOk (s : State) (w : Wing) (sai : Nat) (p : Option (Fin 64)) : Bool :=
  match s.sa w sai with
  | some x => x.st = .active ∧ x.present ∧ !x.r.inb ∧ !x.switched ∧ !s.bad (.sa w sai)
      ∧ (p.all fun p => x.r.portEn.testBit (p.val % 32))
  | none => false

/-- Zeroising an SA's session key once it has reported CLOSED, in both wings for WING = 2 (R144, R274), which clears
the lease entry of a group SA (R271). -/
def State.zeroSaKey (s : State) (sai : Nat) (r : SaRec) : State :=
  let closed (w : Wing) : Bool := match s.sa w sai with
    | some x => x.st = .closed
    | none => true
  if r.wings.all closed then
    s.modVlt fun v => let v := v.dropKey r.keyLoc
      if r.groupPn then v.clearLease sai else v
  else s

/-- The end of an SA's close: CLOSED, SA_CLOSED, its key zeroised (R144). -/
def State.endSaClose (s : State) (w : Wing) (sai : Nat) (forced : Bool) : State :=
  match s.sa w sai with
  | some x =>
    ((s.modSa w sai fun x => { x with st := .closed, forced := forced }).log w .saClosed 0 sai (b2n forced) 0).zeroSaKey
      sai x.r
  | none => s

/-- The start of an SA's close (R144). -/
def State.startSaClose (s : State) (w : Wing) (sai : Nat) : State :=
  let met := (wingPorts w).any fun p => s.ports[p].staging.any (fun f => f.sai = some sai ∧ s.rt ≤ f.admRt)
    || s.ports[p].inbound.any fun f => f.sai = some sai ∧ f.admRt = s.rt
  ((s.closeGrant w met).needSa w sai).modSa w sai fun x => if x.st = .active then { x with st := .closing, closeAt := s.rt } else x

/-- Moving an outbound SA's queue to its next SA and starting its close (R138). For a frame of a port that the next SA is not enabled
for the next SA is absent (R139): it stays staged (R140). -/
def State.switchSa (s : State) (w : Wing) (sai next : Nat) : State :=
  let s := s.modSa w sai fun x => { x with switched := true }
  let s := (wingPorts w).foldl (fun s p => if s.nextOk w next (some p) then s.modPort p fun x =>
    { x with staging := x.staging.map fun f => if f.sai = some sai then { f with sai := some next } else f } else s) s
  (s.log w .saSwitched 0 sai next 0).startSaClose w sai

/-- Exhaustion: a switch to a valid next SA, else PN_EXHAUSTED and binding stops (R138, R140). `p` is the port of the frame that
took the last number. -/
def State.exhaustSa (s : State) (w : Wing) (sai : Nat) (p : Option (Fin 64)) : State :=
  match s.sa w sai with
  | some x =>
    let s := s.modSa w sai fun x => { x with exhausted := true }
    let s := if x.r.nextValid then s.readSa w x.r.nextSai else s
    if x.r.nextValid ∧ s.nextOk w x.r.nextSai p then s.switchSa w sai x.r.nextSai
    else if x.exhausted then s
    else s.log w .pnExhausted 0 sai 0 0
  | none => s

/-! ## Numbers -/

/-- Raising the SA cause on the channel that EVT_ROUTE names for a wing (R137, R373). -/
def State.saCause (s : State) (w : Wing) : State :=
  match (s.wing w).evtRoute[3] with
  | some n => s.modChan n fun c => match w with
      | .sl => { c with evSaSl := true }
      | .sr => { c with evSaSr := true }
  | none => s

/-- A number at or above PN_THRESH bound or accepted: THRESH_HIT, and the first time an event and the SA cause
(R137). The threshold is the one that the frame was admitted with (R121). -/
def State.checkThresh (s : State) (w : Wing) (sai pn thresh : Nat) : State :=
  match s.sa w sai with
  | some x =>
    if thresh ≤ pn ∧ !x.threshHit then
      ((s.modSa w sai fun x => { x with threshHit := true }).log w .pnThreshold 0 sai (pn % 2 ^ 32) (pn / 2 ^ 32)).saCause w
    else s
  | none => s

/-- Whether number `p` is received. -/
def Sa.received (x : Sa) (p : Nat) : Bool := decide (p < x.floor) || x.recv.contains p

/-- The receive check (R145). -/
def Sa.accepts (x : Sa) (p : Nat) : Bool :=
  if x.r.replay then
    !x.pend.contains p && (decide (x.pn < p) || (decide (x.pn - p < x.r.window) && !x.received p))
  else true

/-- Marking a number pending. -/
def Sa.markPending (x : Sa) (p : Nat) : Sa := { x with pend := x.pend ++ [p] }

/-- Clearing a pending mark. -/
def Sa.clearPending (x : Sa) (p : Nat) : Sa := { x with pend := x.pend.erase p }

/-- Marking a number received and raising TOP; only the last 1,024 numbers are held (R145). -/
def Sa.markReceived (x : Sa) (p : Nat) : Sa :=
  let top := max x.pn p
  { x with pn := top, pend := x.pend.erase p, recv := (x.recv ++ [p]).filter fun q => decide (top < q + 1024) }

/-- A 64-bit number recovered from its low 32 bits and the lowest number acceptable, TOP + 1 less the window (IEEE
802.1AE-2018 for MACsec, RFC 4303 Appendix A for ESP; assumption 10). -/
def recoverPn (top low window : Nat) (esp : Bool) : Nat :=
  let base := top + 1 - window
  let hi := base / 2 ^ 32
  if esp then (if base % 2 ^ 32 ≤ low then hi * 2 ^ 32 + low else (hi + 1) * 2 ^ 32 + low)
  else if 2 ^ 31 ≤ base % 2 ^ 32 ∧ low < 2 ^ 31 then (hi + 1) * 2 ^ 32 + low
  else hi * 2 ^ 32 + low

/-! ## Install -/

/-- Installing an SA in one of the wings its record names; a group SA asks for its first lease (R119, R142). -/
def State.installSa (s : State) (w : Wing) (sai : Nat) (r : SaRec) (pn : Nat) : State :=
  let s := ((s.evictSa w 3).fix (.sa w sai)).cacheKey w (fld r.keyRef 19 0)
  let sa : Sa := { r := r, pn := pn, used := s.rt,
                   leaseAsk := if r.groupPn then some s.rt else none }
  s.modWing w fun x => { x with sas := tput x.sas sai sa }

/-- Changing the fields of an SA that `mask` names (R121): CLASS, PORT_EN, NEXT_SAI and NEXT_VALID, PN_THRESH, WINDOW,
HOLD_VERIFY, OVERLAP_MS, PIN, PN. -/
def Sa.modify (x : Sa) (mask : Nat) (r : SaRec) (pn : Nat) : Sa :=
  let c := x.r
  let c := if bitOf mask 0 then { c with cls := r.cls } else c
  let c := if bitOf mask 1 then { c with portEn := r.portEn } else c
  let c := if bitOf mask 2 then { c with nextSai := r.nextSai, nextValid := r.nextValid } else c
  let c := if bitOf mask 3 then { c with pnThresh := r.pnThresh } else c
  let c := if bitOf mask 4 then { c with window := r.window } else c
  let c := if bitOf mask 5 then { c with holdVerify := r.holdVerify } else c
  let c := if bitOf mask 6 then { c with overlapMs := r.overlapMs } else c
  let c := if bitOf mask 7 then { c with pin := r.pin } else c
  { x with r := c, pn := if bitOf mask 8 then max x.pn pn else x.pn }

/-- Whether the next SA that is now set for an exhausted one is valid for a port with frames staged under it, or, where none is
staged, for any (R139, R140). -/
def State.nextFits (s : State) (w : Wing) (sai next : Nat) : Bool :=
  let ps := (wingPorts w).filter fun p => s.ports[p].staging.any (·.sai = some sai)
  if ps.isEmpty then s.nextOk w next none else ps.any fun p => s.nextOk w next (some p)

/-- A change of an SA when it becomes visible (R121). An exhausted SA that has stopped binding goes on under a valid
NEXT_SAI that is now set (R140). -/
def State.modifySa (s : State) (w : Wing) (sai mask : Nat) (r : SaRec) (pn : Nat) : State :=
  let s := (s.needSa w sai).modSa w sai fun x => x.modify mask r pn
  match s.sa w sai with
  | some x =>
    if x.exhausted ∧ !x.switched ∧ x.r.nextValid ∧ s.nextFits w sai x.r.nextSai then s.switchSa w sai x.r.nextSai else s
  | none => s

end Sys2Proof.Machine
end

