-- ==== Sys2Proof/Machine/Frames.lean ====
section
/-! DEFINITION. Frames: fields (R82, R83), the outbound key (R87), sender keys (R99, R100), the transformations of
R125 to R130 and R445. -/

namespace Sys2Proof.Machine

/-! ## Fields (R82, R83) -/

/-- `n` bytes at `o`, absent past byte 127 or past the frame's end. -/
def fieldAt (b : Bytes) (o n : Nat) : Option Bytes :=
  if o + n ≤ min b.length 128 then some ((b.drop o).take n) else none

/-- A field as a number, most significant byte first. -/
def numAt (b : Bytes) (o n : Nat) : Option Nat := (fieldAt b o n).map beNat

/-- A VLAN tag begins at `o`. -/
def vlanAt (b : Bytes) (o : Nat) : Bool := numAt b o 2 = some 0x8100 ∨ numAt b o 2 = some 0x88A8

/-- The offset E of the EtherType, after up to two VLAN tags. -/
def etypeOff (b : Bytes) : Nat := if vlanAt b 12 then (if vlanAt b 16 then 20 else 16) else 12

/-- The EtherType. -/
def etype (b : Bytes) : Option Nat := numAt b (etypeOff b) 2

/-- Walking IPv6 extension headers of the given types, at most `n`: the offset after them, the place of the last
next-header field and its value, bytes read through `rd`. A header that a field past its limits hides is absent. -/
def ip6Walk (rd : Nat → Option Nat) (types : List Nat) : Nat → Nat → Nat → Nat → Option (Nat × Nat × Nat)
  | 0, off, nhAt, nh => some (off, nhAt, nh)
  | n + 1, off, nhAt, nh =>
    if types.contains nh then
      match rd off, rd (off + 1) with
      | some nh', some len => ip6Walk rd types n (off + 8 * (len + 1)) off nh'
      | _, _ => none
    else some (off, nhAt, nh)

/-- A byte under the limits of R83. -/
def byteAt (b : Bytes) (o : Nat) : Option Nat := numAt b o 1

/-- The outbound key of R87, key byte 0 first; none where it is absent. -/
def outKey (key mesh : Nat) (b : Bytes) : Option Nat :=
  let ip := etypeOff b + 2
  let et := etype b
  let v6 := numAt b (ip + 24) 16
  let v4 := (numAt b (ip + 16) 4).map fun a => 0xFFFF * 2 ^ 32 + a
  match key with
  | 0 => if et = some 0x86DD then v6 else none
  | 1 => if et = some 0x0800 then v4 else none
  | 2 => if et = some 0x86DD then v6 else if et = some 0x0800 then v4 else none
  | 3 => if et = some mesh then (numAt b ip 8).map fun a => 2 ^ 64 + a else none
  | 4 => (numAt b 0 6).map fun a => 2 * 2 ^ 64 + a
  | _ => none

/-! ## Inbound recognition (R99, R100) -/

/-- What an inbound frame is recognised as: a key type and KEY bytes with the AN of its SecTAG, or how it is
handled without a lookup. -/
inductive Sender where
  | key (ktype : Nat) (key : Bytes) (an : Nat)
  | sectag
  | fragment
  | notSecured
deriving DecidableEq, Repr

/-- KEY bytes filled to 20 (R103). -/
def keyBytes (b : Bytes) : Bytes := padTo 20 b

/-- Recognising MACsec: EtherType 0x88E5 at byte 12. -/
def macsecSender (c : PortCls) (b : Bytes) : Sender :=
  match byteAt b 14, fieldAt b 15 5 with
  | some tci, some _ =>
    let sc := bitOf tci 5
    if bitOf tci 7 then .sectag
    else if b.length < 12 + (if sc then 16 else 8) + 16 then .sectag
    else if sc then match fieldAt b 20 8 with
      | some k => .key 1 (keyBytes k) (tci % 4)
      | none => .sectag
    else if bitOf tci 6 then match fieldAt b 6 6 with
      | some k => .key 1 (keyBytes (k ++ [0, 1])) (tci % 4)
      | none => .sectag
    else if c.sciValid then .key 1 (keyBytes (leBytes 4 c.sciLo.toNat ++ leBytes 4 c.sciHi.toNat)) (tci % 4)
    else .sectag
  | _, _ => .sectag

/-- Recognising ESP over IPv4. -/
def esp4Sender (b : Bytes) : Sender :=
  let ip := etypeOff b + 2
  match byteAt b ip, byteAt b (ip + 9), numAt b (ip + 6) 2 with
  | some v, some 50, some fr =>
    if fr % 2 ^ 14 ≠ 0 then .fragment
    else match fieldAt b (ip + 4 * (v % 16)) 4, fieldAt b (ip + 16) 4 with
      | some spi, some dst => .key 2 (keyBytes (spi ++ dst)) 0
      | _, _ => .sectag
  | _, _, _ => .notSecured

/-- Recognising ESP over IPv6. -/
def esp6Sender (b : Bytes) : Sender :=
  let ip := etypeOff b + 2
  match byteAt b (ip + 6) with
  | some nh => match ip6Walk (byteAt b) [0, 43, 60] 2 (ip + 40) (ip + 6) nh with
    | some (off, _, 50) => match fieldAt b off 4, fieldAt b (ip + 24) 16 with
      | some spi, some dst => .key 3 (keyBytes (spi ++ dst)) 0
      | _, _ => .sectag
    | _ => .notSecured
  | none => .notSecured

/-- Recognising a mesh frame. -/
def meshSender (b : Bytes) : Sender :=
  let e := etypeOff b
  match byteAt b (e + 18) with
  | some ctl =>
    if !bitOf ctl 7 then .notSecured
    else if b.length < e + 30 + 16 then .sectag
    else match fieldAt b (e + 10) 8 with
      | some k => .key 4 (keyBytes k) 0
      | none => .sectag
  | none => .sectag

/-- Recognising an inbound frame. -/
def senderOf (c : PortCls) (mesh : Nat) (b : Bytes) : Sender :=
  if numAt b 12 2 = some 0x88E5 then macsecSender c b
  else match etype b with
    | some 0x0800 => esp4Sender b
    | some 0x86DD => esp6Sender b
    | some et => if et = mesh then meshSender b else .notSecured
    | none => .notSecured

/-! ## The IV (R125) -/

/-- The 96-bit IV, byte 0 most significant. -/
def ivOf (r : SaRec) (salt : Bytes) (pn : Nat) : Nat :=
  if r.isEsp then beNat (padTo 4 salt) * 2 ^ 64 + (if r.pn64 then pn % 2 ^ 64 else pn % 2 ^ 32)
  else if r.pn64 then (beNat (leBytes 4 r.ssci.toNat) * 2 ^ 64 + pn % 2 ^ 64) ^^^ beNat (padTo 12 salt)
  else beNat (padTo 8 r.sci) * 2 ^ 32 + pn % 2 ^ 32

/-! ## IP headers -/

/-- The one's complement checksum of an IPv4 header whose checksum field is left out. -/
def ip4Sum (h : Bytes) : Nat :=
  let sum := (List.range (h.length / 2)).foldl (fun a i =>
    if i = 5 then a else a + beNat ((h.drop (2 * i)).take 2)) 0
  let fold (x : Nat) : Nat := x % 2 ^ 16 + x / 2 ^ 16
  0xFFFF - fold (fold (fold sum))

/-- Writing bytes into a frame. -/
def putAt (b : Bytes) (o : Nat) (x : Bytes) : Bytes := b.take o ++ x ++ b.drop (o + x.length)

/-- Correcting the checksum of the IPv4 header at `ip`. -/
def fixSum (b : Bytes) (ip : Nat) : Bytes :=
  let ihl := 4 * ((b.getD ip 0).toNat % 16)
  putAt b (ip + 10) (beBytes 2 (ip4Sum ((b.drop ip).take ihl)))

/-- Where an ESP header goes or stands in a frame, after the IPv4 header or the IPv6 fixed header and extension
headers of the types: the offset, the place of the protocol or last next-header field, and whether IPv4. -/
def ipEnd (b : Bytes) (types : List Nat) : Option (Nat × Nat × Bool) :=
  let ip := etypeOff b + 2
  match etype b with
  | some 0x0800 =>
    let ihl := (b.getD ip 0).toNat % 16
    if (fieldAt b ip 20).isSome ∧ 5 ≤ ihl ∧ ip + 4 * ihl ≤ b.length then some (ip + 4 * ihl, ip + 9, true) else none
  | some 0x86DD =>
    if (fieldAt b ip 40).isSome then
      match ip6Walk (byteAt b) types 2 (ip + 40) (ip + 6) ((b.getD (ip + 6) 0).toNat) with
      | some (off, nhAt, _) => if off ≤ b.length then some (off, nhAt, false) else none
      | none => none
    else none
  | _ => none

/-- Correcting the protocol field, the total or payload length by a signed growth and the checksum (R127). -/
def fixIp (b : Bytes) (v4 : Bool) (nhAt proto : Nat) (grow : Int) : Bytes :=
  let ip := etypeOff b + 2
  let b := putAt b nhAt [BitVec.ofNat 8 proto]
  let at' := if v4 then ip + 2 else ip + 4
  let b := putAt b at' (beBytes 2 (ofSigned 16 ((beNat ((b.drop at').take 2) : Int) + grow)))
  if v4 then fixSum b ip else b

/-! ## Outbound transformations (R126 to R130, R445) -/

/-- A frame ready to be sealed: what leaves in clear before the ciphertext, the AAD, what is encrypted, and the
octets that OUT_OCTETS counts. -/
structure Sealing where
  head : Bytes
  aad : Bytes
  plain : Bytes
  octets : Nat
deriving DecidableEq, Repr

/-- Length of the frame that leaves. -/
def Sealing.length (f : Sealing) : Nat := f.head.length + f.plain.length + 16

/-- Slots of lane work of the frame (R150). -/
def Sealing.slots (f : Sealing) (conf : Bool) : Nat := slotCost (if conf then (f.plain.length + 15) / 16 else 0)

/-- Bytes of a MACsec confidentiality offset. -/
def confBytes (n : Nat) : Nat := if n = 1 then 30 else if n = 2 then 50 else 0

/-- MACsec (R126). -/
def macsecOut (r : SaRec) (pn : Nat) (b : Bytes) : Sealing :=
  let secure := b.drop 12
  let tci := b2n r.endStation * 64 + b2n r.sendSci * 32 + b2n r.conf * 12 + r.an % 4
  let tag := [0x88, 0xE5, BitVec.ofNat 8 tci, BitVec.ofNat 8 (if secure.length < 48 then secure.length else 0)]
    ++ beBytes 4 pn ++ (if r.sendSci then padTo 8 r.sci else [])
  let clear := if r.conf then confBytes r.confOffset else secure.length
  let head := b.take 12 ++ tag ++ secure.take clear
  { head := head, aad := head, plain := secure.drop clear, octets := secure.length }

/-- Mesh frames (R129). -/
def meshOut (r : SaRec) (pn : Nat) (b : Bytes) : Sealing :=
  let o := etypeOff b + 18
  let hdr := [BitVec.ofNat 8 (128 + b2n r.conf * 64 + b2n r.pn64 * 32), 0, 0, 0]
    ++ beBytes 8 (if r.pn64 then pn else pn % 2 ^ 32)
  let body := b.drop o
  let head := b.take o ++ hdr ++ (if r.conf then [] else body)
  { head := head, aad := head, plain := if r.conf then body else [], octets := body.length }

/-- ESP header and IV of a number. -/
def espHead (r : SaRec) (pn : Nat) : Bytes :=
  leBytes 4 r.spi.toNat ++ beBytes 4 pn ++ beBytes 8 (if r.pn64 then pn else pn % 2 ^ 32)

/-- ESP AAD of a number. -/
def espAad (r : SaRec) (pn : Nat) : Bytes := leBytes 4 r.spi.toNat ++ beBytes (if r.pn64 then 8 else 4) pn

/-- ESP payload with its pad, pad length and next header. -/
def espPlain (payload : Bytes) (nh : Nat) : Bytes :=
  let pad := (4 - (payload.length + 2) % 4) % 4
  payload ++ (List.range pad).map (fun i => BitVec.ofNat 8 (i + 1)) ++ [BitVec.ofNat 8 pad, BitVec.ofNat 8 nh]

/-- ESP transport mode (R127). Bytes past the IP total length belong to the payload (DESIGN CHOICE, assumption 18). -/
def espOut (r : SaRec) (pn : Nat) (b : Bytes) : Option Sealing :=
  (ipEnd b [0, 43]).map fun (off, nhAt, v4) =>
    let plain := espPlain (b.drop off) (b.getD nhAt 0).toNat
    let grow := 16 + (plain.length - (b.length - off)) + 16
    let b' := fixIp b v4 nhAt 50 grow
    { head := b'.take off ++ espHead r pn, aad := espAad r pn, plain := plain, octets := b.length - off }

/-- ESP tunnel mode (R128). -/
def tunnelOut (r : SaRec) (pn : Nat) (b : Bytes) : Option Sealing :=
  let packet := b.drop (etypeOff b + 2)
  let go (nh : Nat) : Sealing :=
    let plain := espPlain packet nh
    let t := r.template.take r.templateLen
    let ip := templateE t + 2
    let v4 := beNat ((t.drop (ip - 2)).take 2) = 0x0800
    let len := t.length - ip + 16 + plain.length + 16
    let t := putAt t (if v4 then ip + 2 else ip + 4) (beBytes 2 (if v4 then len else len - 40))
    let t := if v4 then fixSum t ip else t
    { head := t ++ espHead r pn, aad := espAad r pn, plain := plain, octets := packet.length }
  match etype b with
  | some 0x0800 => some (go 4)
  | some 0x86DD => some (go 41)
  | _ => none

/-- The transformation of an SA on a frame, none where it cannot take it (R445). -/
def outForm (r : SaRec) (mesh pn : Nat) (b : Bytes) : Option Sealing :=
  if r.isMacsec then (if b.length < 12 then none else some (macsecOut r pn b))
  else if r.isMesh then
    (if etype b = some mesh ∧ (fieldAt b (etypeOff b + 2) 16).isSome then some (meshOut r pn b) else none)
  else if r.proto = 1 then espOut r pn b
  else tunnelOut r pn b

/-- Sealing under a key: AES-GCM with the IV of R125. -/
def sealFrame (r : SaRec) (k : Key) (pn : Nat) (f : Sealing) : Bytes :=
  let ks := aesKeys k.material
  let iv := ivOf r k.salt pn
  let ct := xorBytes f.plain (gcmStream ks iv f.plain.length)
  f.head ++ ct ++ gcmTag ks iv f.aad ct

/-! ## Inbound transformations -/

/-- A received frame ready to be opened. -/
structure Opening where
  aad : Bytes
  ct : Bytes
  icv : Bytes
deriving DecidableEq, Repr

/-- The low part of the number a frame carries; none where the field is absent. -/
def pnField (r : SaRec) (b : Bytes) : Option Nat :=
  if r.isMacsec then (fieldAt b 16 4).map beNat
  else if r.isMesh then (fieldAt b (etypeOff b + 22) 8).map beNat
  else match ipEnd b [0, 43, 60] with
    | some (off, _, _) => numAt b (off + 4) 4
    | none => none

/-- The number of a frame, its high bits recovered (R126, R127). -/
def pnOf (r : SaRec) (top : Nat) (b : Bytes) : Option Nat :=
  (pnField r b).map fun p =>
    if r.isMesh ∨ !r.pn64 then p else recoverPn top p r.window r.isEsp

/-- The header checks of R126 and R129 on an inbound frame; the number of an XPN frame is checked once it is recovered. -/
def inHeaderOk (r : SaRec) (b : Bytes) : Bool :=
  if r.isMacsec then
    let tci := (b.getD 14 0).toNat
    let sl := (b.getD 15 0).toNat
    let secure := b.length - (if bitOf tci 5 then 28 else 20) - 16
    decide (sl = 0 ∨ sl = secure) && decide (bitOf tci 3 = r.conf) && decide (bitOf tci 2 = r.conf)
      && (r.pn64 || decide (pnField r b ≠ some 0))
  else if r.isMesh then
    let o := etypeOff b + 18
    let ctl := (b.getD o 0).toNat
    decide (ctl % 32 = 0) && decide (beNat ((b.drop (o + 1)).take 3) = 0) && decide (bitOf ctl 6 = r.conf)
      && decide (bitOf ctl 5 = r.pn64) && (r.pn64 || decide (beNat ((b.drop (o + 4)).take 4) = 0))
  else true

/-- Where the protected part of an inbound frame begins: the end of its SecTAG, security header or ESP IV. -/
def inBody (r : SaRec) (b : Bytes) : Nat :=
  if r.isMacsec then (if bitOf (b.getD 14 0).toNat 5 then 28 else 20)
  else if r.isMesh then etypeOff b + 30
  else match ipEnd b [0, 43, 60] with
    | some (off, _, _) => off + 16
    | none => b.length

/-- The length of the frame that a cut-through frame leaves as (R126, R129). -/
def cutLen (r : SaRec) (b : Bytes) : Nat := b.length - (inBody r b - (if r.isMacsec then 12 else etypeOff b + 18)) - 16

/-- A received frame taken apart; none where it is too short to hold its ICV. -/
def inForm (r : SaRec) (pn : Nat) (b : Bytes) : Option Opening :=
  let o := inBody r b
  if b.length < o + 16 then none
  else
    let body := (b.take (b.length - 16)).drop o
    let icv := b.drop (b.length - 16)
    if r.isEsp then some { aad := espAad r pn, ct := body, icv := icv }
    else
      let clear := if r.conf then (if r.isMacsec then confBytes r.confOffset else 0) else body.length
      some { aad := b.take o ++ body.take clear, ct := body.drop clear, icv := icv }

/-- Slots of lane work of an inbound frame (R150). -/
def inSlots (r : SaRec) (b : Bytes) : Nat :=
  slotCost (match inForm r 0 b with
    | some f => if r.conf then (f.ct.length + 15) / 16 else 0
    | none => 0)

/-- What an opened frame comes to. -/
inductive Opened where
  | badTag
  | padError
  | nextHdr
  | ok (bytes : Bytes) (octets : Nat)
deriving DecidableEq, Repr

/-- Taking the ESP trailer off: payload and next header. -/
def espTrail (plain : Bytes) : Option (Bytes × Nat) :=
  let n := plain.length
  if n < 2 then none
  else
    let pad := (plain.getD (n - 2) 0).toNat
    if n - 2 < pad then none else some (plain.take (n - 2 - pad), (plain.getD (n - 1) 0).toNat)

/-- The frame that leaves on HS_O from a frame and its decrypted part. -/
def rebuild (r : SaRec) (b plain : Bytes) : Opened :=
  if r.isMacsec then
    let o := inBody r b
    let body := (b.take (b.length - 16)).drop o
    let data := body.take (body.length - plain.length) ++ plain
    .ok (b.take 12 ++ data) data.length
  else if r.isMesh then
    let o := etypeOff b + 18
    let body := (b.take (b.length - 16)).drop (o + 12)
    let data := body.take (body.length - plain.length) ++ plain
    .ok (b.take o ++ data) data.length
  else match espTrail plain with
    | none => .padError
    | some (payload, nh) =>
      if r.proto = 2 then
        (if nh = 4 then .ok (b.take 12 ++ [0x08, 0x00] ++ payload) payload.length
         else if nh = 41 then .ok (b.take 12 ++ [0x86, 0xDD] ++ payload) payload.length
         else .nextHdr)
      else match ipEnd b [0, 43, 60] with
        | some (off, nhAt, v4) =>
          let grow : Int := (payload.length : Int) - ((b.length - off : Nat) : Int)
          .ok ((fixIp b v4 nhAt nh grow).take off ++ payload) payload.length
        | none => .padError

/-- Opening a received frame under a key. -/
def openFrame (r : SaRec) (k : Key) (pn : Nat) (b : Bytes) : Opened :=
  match inForm r pn b with
  | none => .badTag
  | some f =>
    let ks := aesKeys k.material
    let iv := ivOf r k.salt pn
    if gcmTag ks iv f.aad f.ct = f.icv then rebuild r b (xorBytes f.ct (gcmStream ks iv f.ct.length))
    else .badTag

/-- The decrypted bytes of a cut-through frame whatever its tag says (R146). -/
def openedBytes (r : SaRec) (k : Key) (pn : Nat) (b : Bytes) : Bytes :=
  match inForm r pn b with
  | none => b
  | some f => match rebuild r b (xorBytes f.ct (gcmStream (aesKeys k.material) (ivOf r k.salt pn) f.ct.length)) with
    | .ok x _ => x
    | _ => b

end Sys2Proof.Machine
end

