-- ==== Sys2Proof/Machine/PortOps.lean ====
section
/-! DEFINITION. Stream ports: credits, staging, delivery on HS_O, the Green Room, transparent clock (R318 to R320) and
the ends of frames. -/

namespace Sys2Proof.Machine

/-- Cells of 64 bytes that a length takes (R52). -/
def cells (n : Nat) : Nat := (n + 63) / 64

/-- Port number within its wing. -/
def portIx (p : Fin 64) : Nat := p.val % 32

/-- Port `i` of a wing. -/
def portOf (w : Wing) (i : Nat) : Fin 64 := Fin.ofNat 64 (wingIx w * 32 + i % 32)

/-- Whether a wing's data path works: ready, not failed, awake. -/
def State.flowing (s : State) (w : Wing) : Bool := (s.wing w).ready && !(s.wing w).failed && s.pwr.awake

/-- Whether the engine grants credits and takes requests: no tamper hold (R293), not entering sleep (R420). A frame that its
sender presents under credits it was granted before is still taken (R52; DEDUCED). -/
def State.taking (s : State) (w : Wing) : Bool := s.flowing w && !s.vlt.hold && !s.pwr.entering

/-- Whether a port is absent as a whole, so that it cannot be open: a reset of either side is asserted (R48, R49; DESIGN CHOICE,
assumption 23), or its unit is struck. -/
def Port.absent (x : Port) : Bool := x.hsRst || x.lsRst || x.struck

/-- Whether the inputs of one side of a port are ignored: its own reset is asserted (R48), or the port is struck. -/
def Port.sideGone (x : Port) (line : Bool) : Bool := (if line then x.lsRst else x.hsRst) || x.struck

/-- Bytes waiting inbound in a port's staging. -/
def Port.inBytes (x : Port) : Nat := x.inbound.foldl (fun a f => a + f.bytes.length) 0

/-- Bytes in a port's staging. -/
def Port.staged (x : Port) : Nat := x.staging.foldl (fun a f => a + f.bytes.length) 0 + x.inBytes

/-! ## Credits (R52 to R54, R134, R146) -/

/-- Whether a wing's lanes can take no more of an input (R24, R157): items wait that no lane is eligible for. While Lead items
can still be admitted only the inputs of Classes 1 to 3 are held back (DEDUCED, assumption 18). -/
def State.laneFull (s : State) (w : Wing) (lead : Bool) : Bool :=
  let wait := (s.wing w).disp.wait
  if lead then wait.any (·.cls = 0) else !wait.isEmpty

/-- Cells for which a port's staging of 64 KiB has room beside the bytes staged, the frames that wait to be admitted again and
the credits its senders hold (R134). -/
def Port.room (x : Port) : Nat :=
  (65536 - (x.staged + x.readmit.foldl (fun a f => a + f.bytes.length) 0)) / 64 - (x.hsIHeld + x.lsIHeld)

/-- Returning the cells of completed frames: on HS_I and LS_I as the room in staging allows (R134), on LS_I while the inbound
frames and the credits held stay within 16 KiB (R146), and on each only while the lanes can take more (R157). -/
def State.credit (s : State) (p : Fin 64) : State :=
  let x := s.ports[p]
  let w := portWing p
  if x.st = .opened ∧ s.taking w then
    let kh := if x.hsIFail ∨ s.laneFull w x.hsLead then 0 else min x.hsIUsed x.room
    let kl := if x.lsIFail ∨ s.laneFull w x.lsLead then 0
      else min x.lsIUsed (min (x.room - kh) ((16384 - x.inBytes) / 64 - x.lsIHeld))
    s.modPort p fun x =>
      { x with hsIHeld := x.hsIHeld + kh, hsIUsed := x.hsIUsed - kh, lsIHeld := x.lsIHeld + kl,
               lsIUsed := x.lsIUsed - kl, pulses := (x.pulses.set 0 (x.pulses[0] + kh)).set 1 (x.pulses[1] + kl) }
  else s

/-- Opening a port: cells of frames that completed while it was closed come back, and credits are granted until 384 are
outstanding (R53, R54); while the engine admits no new work they are withheld (R293, R420), to be granted as it does again. A port
that is opened again keeps the settings of PORT_CLS_SET and PORT_SP_SET (R84; DESIGN CHOICE, assumption 48). -/
def State.openPort (s : State) (p : Fin 64) : State :=
  let now := s.taking (portWing p)
  s.modPort p fun x =>
    let kh := if x.hsIFail then 0 else 384 - x.hsIHeld
    let kl := if x.lsIFail then 0 else 384 - x.lsIHeld
    let y := { x with st := .opened, hsINotOpen := false, lsINotOpen := false, forced := false, mixed := false }
    if now then
      { y with pulses := (x.pulses.set 0 (x.pulses[0] + kh)).set 1 (x.pulses[1] + kl),
               hsIHeld := x.hsIHeld + kh, hsIUsed := 0, lsIHeld := x.lsIHeld + kl, lsIUsed := 0 }
    else { y with hsIUsed := kh, lsIUsed := kl }

/-- Taking the cells of a frame on HS_I (`line` false) or LS_I from the sender's credits. -/
def State.takeCells (s : State) (p : Fin 64) (line : Bool) (n : Nat) : State :=
  s.modPort p fun x => if line then { x with lsIHeld := x.lsIHeld - n, lsIUsed := x.lsIUsed + n }
    else { x with hsIHeld := x.hsIHeld - n, hsIUsed := x.hsIUsed + n }

/-! ## Rehearsal records of a port (R395, R398) -/

/-- Whether a wing's logger records a port. -/
def State.rhlPort (s : State) (p : Fin 64) : Bool :=
  let r := (s.wing (portWing p)).rhl
  r.st = .record ∨ r.cfg.portMask.testBit (portIx p)

/-- Bytes kept per FRAME record. -/
def Rhl.keep (r : Rhl) : Nat :=
  if r.st = .record then 128
  else if r.cfg.headerBytes = 0 then 0
  else 16 * 2 ^ r.cfg.headerBytes

/-- A FRAME record on channel `c` (0 HS_I, 1 LS_I, 2 HS_O, 3 LS_O) with the sideband `side`, after a CREDIT record where pulses were
seen. The digest is that of the frame's bytes. -/
def State.rhlFrame (s : State) (p : Fin 64) (c : Fin 4) (len status : Nat) (side bytes : Bytes) : State :=
  if s.rhlPort p then
    let w := portWing p
    let n := s.ports[p].pulses[c]
    let s := if n = 0 then s
      else (s.rhlRec w 0x03 (leBytes 1 p.val ++ leBytes 1 c.val ++ leBytes 2 n) [] 2).modPort p fun x => { x with pulses := x.pulses.set c 0 }
    let k := (s.wing w).rhl.keep
    s.rhlRec w 0x02 (leBytes 1 p.val ++ leBytes 1 c.val ++ leBytes 2 len ++ leBytes 1 status ++ s.rhlDigest bytes)
      (padTo 11 side ++ bytes.take (min len k)) (6 + k / 4)
  else s

/-! ## The transparent clock (R317 to R320) -/

/-- The PTP header of a frame on a port: its offset and, over UDP, the offset of the UDP header and whether IPv4. -/
def ptpAt (c : PtpCfg) (b : Bytes) : Option (Nat × Option (Nat × Bool)) :=
  let ip := etypeOff b + 2
  match etype b with
  | some 0x88F7 => if c.l2 then some (ip, none) else none
  | some 0x0800 =>
    let u := ip + 4 * ((b.getD ip 0).toNat % 16)
    if c.udp4 ∧ byteAt b (ip + 9) = some 17 ∧ numAt b (u + 2) 2 = some 319 then some (u + 8, some (u, true)) else none
  | some 0x86DD =>
    let u := ip + 40
    if c.udp6 ∧ byteAt b (ip + 6) = some 17 ∧ numAt b (u + 2) 2 = some 319 then some (u + 8, some (u, false)) else none
  | _ => none

/-- A version 2 event message: header offset, UDP header and message type; Sync and Delay_Req only where their
correctionField lies in bytes 0 to 127 (R318). -/
def ptpEvent (c : PtpCfg) (b : Bytes) : Option (Nat × Option (Nat × Bool) × Nat) :=
  if c.tcEn then
    match ptpAt c b with
    | some (o, u) => match byteAt b o, byteAt b (o + 1) with
      | some t, some v =>
        if v % 16 = 2 ∧ t % 16 ≤ 3 ∧ (2 ≤ t % 16 ∨ (fieldAt b (o + 8) 8).isSome) then some (o, u, t % 16) else none
      | _, _ => none
    | none => none
  else none

/-- One's complement sum of 16-bit words. -/
def onesSum (b : Bytes) : Nat :=
  (List.range (b.length / 2)).foldl (fun a i =>
    let x := a + beNat ((b.drop (2 * i)).take 2)
    x % 2 ^ 16 + x / 2 ^ 16) 0

/-- Incremental correction of the UDP checksum at `u` for a field that changed from `a` to `b'` (R319). -/
def fixUdp (b : Bytes) (u : Nat) (v4 : Bool) (a b' : Bytes) : Bytes :=
  let old := beNat ((b.drop (u + 6)).take 2)
  if v4 ∧ old = 0 then b
  else
    let fold (x : Nat) : Nat := x % 2 ^ 16 + x / 2 ^ 16
    let sum := fold (fold ((0xFFFF - old) + (0xFFFF - onesSum a) + onesSum b'))
    let new := 0xFFFF - sum
    putAt b (u + 6) (beBytes 2 (if new = 0 then 0xFFFF else new))

/-- The frame with residence and asymmetry added to its correctionField (R319). -/
def ptpCorrect (c : PtpCfg) (outbound : Bool) (asym : Word) (resid : Int) (b : Bytes) : Bytes :=
  match ptpEvent c b with
  | some (o, u, t) =>
    if c.oneStep ∧ t < 2 then
      let a := asym.toInt
      let add := resid + (if t = 0 ∧ !outbound then a else if t = 1 ∧ outbound then -a else 0)
      let old := (b.drop (o + 8)).take 8
      let new := beBytes 8 (ofSigned 64 (toSigned 64 (beNat old) + add))
      let b := putAt b (o + 8) new
      match u with
      | some (uo, v4) => fixUdp b uo v4 old new
      | none => b
    else b
  | none => b

/-- The export record of an event message, in the wing's queue of 512 (R320). -/
def State.ptpExport (s : State) (p : Fin 64) (inb : Bool) (arr egr : Ts) (resid : Int) (b : Bytes) : State :=
  let w := portWing p
  let c := s.ports[p].ptp
  match ptpEvent c b with
  | some (o, _, t) =>
    if c.expt then
      if (s.wing w).tsq.length < 512 then
        let r : TsRec := { port := p.val, inb := inb, mtype := t, domain := (byteAt b (o + 4)).getD 0,
                           seqId := (numAt b (o + 30) 2).getD 0, ingress := arr, egress := egr, resid := resid }
        s.modWing w fun x => { x with tsq := x.tsq ++ [r] }
      else s.countWing w .tsExportDropped
    else s
  | none => s

/-- Residence in units of 2^-16 ns since the counter stood at `r0` (R318). -/
def State.residence (s : State) (w : Wing) (r0 : Int) : Int := ((s.wing w).prm.resid - r0) / 2 ^ 16

/-! ## Delivery on HS_O (R50, R56) -/

/-- A beat of a frame that the engine presents: X_SOF, X_EOF, X_LEN of its SOF beat, X_DATA. -/
structure Beat where
  sof : Bool
  eof : Bool
  len : Nat
  data : BitVec 128
deriving DecidableEq, Repr

/-- The beats of a frame of which `bytes` pass: byte i in beat i / 16, in DATA bits [8(i mod 16)+7 : 8(i mod 16)], the bytes past
the end of the last beat driven as 0 (R51). -/
def beatsOut (len : Nat) (bytes : Bytes) : List Beat :=
  let n := (bytes.length + 15) / 16
  (List.range n).map fun k =>
    { sof := decide (k = 0), eof := decide (k + 1 = n), len := if k = 0 then len else 0,
      data := BitVec.ofNat 128 (leNat ((bytes.drop (16 * k)).take 16)) }

/-- The beats of the frame delivered on HS_O. -/
def HsOut.beats (o : HsOut) : List Beat := beatsOut o.len o.bytes

/-- The beats of the frame presented on LS_O. -/
def LsOut.beats (o : LsOut) : List Beat := beatsOut o.bytes.length o.bytes

/-- Whether the receiver has granted the cells that a frame takes on HS_O. -/
def Port.canDeliver (x : Port) (len : Nat) : Bool := decide (cells len ≤ x.hsOCred)

/-- Whether a frame may be delivered on HS_O: its delivery has begun, or none is open and the receiver has its cells. -/
def Port.mayDeliver (x : Port) (f : InFrame) (len : Nat) : Bool :=
  f.began.isSome || (x.canDeliver len && x.inbound.all fun g => g.began.isNone)

/-- Delivering a frame on HS_O, whose SOF beat may have been presented before. -/
def State.deliver (s : State) (p : Fin 64) (sof : Option Sof) (bytes : Bytes) (sai cls status : Nat) : State :=
  let s := s.modPort p fun x =>
    { x with hsOCred := if sof.isSome then x.hsOCred else x.hsOCred - cells bytes.length,
             hsOut := some { len := bytes.length, bytes := bytes, sai := sai, cls := cls, status := status,
                             ts := (sof.map (·.ts)).getD (s.now (portWing p)) } }
  s.rhlFrame p 2 bytes.length status (leBytes 3 (sai + cls * 2 ^ 20)) bytes

/-! ## The Green Room (R112 to R116) -/

/-- The queue of a reason (R112): 0 KEYING, 1 POLICY, 2 HOST. -/
def grqQueue (reason : Nat) : Fin 3 := if reason ≤ 4 then 0 else if reason ≤ 9 then 1 else 2

/-- Cells that a queue holds. -/
def Grq.used (g : Grq) (q : Nat) : Nat := g.frames.foldl (fun a f => if f.queue = q then a + cells f.bytes.length else a) 0

/-- Cells of a queue in the shared space. -/
def Grq.excess (g : Grq) (q : Nat) : Nat := g.used q - 4096

/-- Room for `n` cells in a queue and a free descriptor (R113). -/
def Grq.room (g : Grq) (q : Fin 3) (n : Nat) : Bool :=
  let others := (List.range 3).foldl (fun a i => if i = q.val then a else a + g.excess i) 0
  decide (g.frames.length < 4096 ∧ (g.used q + n - 4096) + others ≤ 4096)

/-- The next handle that no held frame has (R114). -/
def Grq.handle (g : Grq) : Nat → Nat → Nat
  | 0, h => h
  | n + 1, h => if g.frames.any (·.handle = h) then Grq.handle g n ((h + 1) % 65536) else h

/-- Placing a frame in the Green Room, or discarding it and counting GRQ_FULL (R113). -/
def State.toGrq (s : State) (w : Wing) (f : GFrame) : State :=
  let g := (s.wing w).grq
  let q := grqQueue f.reason
  if g.room q (cells f.bytes.length) then
    let h := g.handle 4097 (g.next % 65536)
    let held : GFrame := { f with handle := h, queue := q, admRt := s.rt }
    s.modWing w fun x =>
      { x with grq := { x.grq with frames := x.grq.frames ++ [held], next := (h + 1) % 65536 } }
  else s.modWing w fun x =>
    { x with grq := { x.grq with full := bumpAt x.grq.full q 1, sumFull := bumpAt x.grq.sumFull q 1 } }

/-- Whether a queue is not empty (R116). -/
def Grq.pendingQ (g : Grq) (q : Nat) : Bool := g.frames.any (·.queue = q)

/-! ## Ends of outbound frames -/

/-- Removing a staged frame with its lane work. -/
def State.unstage (s : State) (p : Fin 64) (id : Nat) : State :=
  ((s.modPort p fun x => { x with staging := x.staging.filter (·.id ≠ id) }).dropItem (.out p id)).credit p

/-- Counting on a frame's SA. -/
def State.countFrameSa (s : State) (p : Fin 64) (sai : Option Nat) (c : SaCnt) : State :=
  match sai with
  | some a => s.countSa (portWing p) a c 1
  | none => s

/-- Discarding a staged frame with a count of its SA. -/
def State.discardOut (s : State) (p : Fin 64) (f : OutFrame) (c : SaCnt) : State :=
  (s.countFrameSa p f.sai c).unstage p f.id

/-- A time in units of 2^-32 ns as the pins carry a launch time (R50). -/
def pinTime (t : Nat) : Nat :=
  let ns := t / 2 ^ 32
  ns / 1000000000 % 2 ^ 32 * 2 ^ 32 + ns % 1000000000

/-- The Green Room frame of a staged frame. -/
def OutFrame.toG (f : OutFrame) (p : Fin 64) (reason : Nat) : GFrame :=
  { handle := 0, reason := reason, inb := false, port := p, cls := f.cls, bytes := f.bytes,
    sai := f.sai.getD 0xFFFFF, tag := 0, arr := f.arr, queue := 0, saiIn := f.saiIn, clsIn := f.side,
    curtain := f.curtain, ltime := f.ltime.map pinTime, resIn := f.resIn }

/-! ## Ends of inbound frames -/

/-- Removing an inbound frame with its lane work. -/
def State.unInbound (s : State) (p : Fin 64) (id : Nat) : State :=
  ((s.modPort p fun x => { x with inbound := x.inbound.filter (·.id ≠ id) }).dropItem (.inb p id)).credit p

/-- Clearing the pending mark of an inbound frame (R145). -/
def State.unpend (s : State) (p : Fin 64) (f : InFrame) : State :=
  match f.sai with
  | some a => s.modSa (portWing p) a fun x => x.clearPending f.pn
  | none => s

/-- Whether an inbound frame must wait for an earlier one: of its SA, or on an ordered port (R161, R162). -/
def Port.inBehind (x : Port) (f : InFrame) : Bool :=
  x.inbound.any fun g => g.id < f.id ∧ (g.sai = f.sai ∨ x.sp.ordered)

/-- Whether the cut-through delivery of an inbound frame may begin (R146): its SA does not hold it, its first block has entered
a lane, no earlier frame goes before it, and HS_O takes it. -/
def State.mayBegin (s : State) (p : Fin 64) (f : InFrame) : Bool :=
  let x := s.ports[p]
  !f.held && !f.wait && f.began.isNone && !x.sideGone false && !x.inBehind f
    && ((List.finRange 28).any fun l => s.lanes[l].items.any fun i => i.of = .inb p f.id ∧ i.left < i.cost)
    && ((f.sai.bind (s.sa (portWing p))).any fun y => x.mayDeliver f (cutLen y.r f.bytes))

/-- The bytes that a frame in delivery leaves as; without its key they are not to be had, so free. -/
def State.openedNow (s : State) (p : Fin 64) (f : InFrame) : Bytes :=
  match f.sai.bind (s.sa (portWing p)) with
  | some x => match s.vlt.keyAt x.r.keyLoc with
    | some k => openedBytes x.r k f.pn f.bytes
    | none => leBytes f.bytes.length s.freeVal
  | none => f.bytes

/-- Bytes whose first `k` have passed, and zeros. -/
def zeroFrom (b : Bytes) (k : Nat) : Bytes := b.take k ++ List.replicate (b.length - k) 0

/-- A delivery that ends with ABORTED (R147): how much had passed is a free value. -/
def State.deliverAborted (s : State) (p : Fin 64) (sof : Option Sof) (out : Bytes) (sai cls : Nat) : State :=
  let k := s.freeVal % (out.length + 1)
  (s.takeFree.deliver p sof out sai cls 3).modPort p fun x => { x with hsOut := x.hsOut.map fun o => { o with bytes := o.bytes.take k } }

/-- Ending an inbound frame by force: a frame in delivery ends with ABORTED (R147), another is discarded. -/
def State.abortIn (s : State) (p : Fin 64) (f : InFrame) : State :=
  let s1 := s.unpend p f
  let s1 := if f.began.isSome then s1.takeFree.deliverAborted p f.began (s.openedNow p f) (f.sai.getD 0xFFFFF) f.cls else s1
  s1.unInbound p f.id

/-! ## The end of the frame in release -/

/-- Cutting the frame in release once `k` of its bytes have passed: it has bound its number, and its remaining bytes and
ICV leave as 0 (R171). -/
def State.zeroTailAt (s : State) (p : Fin 64) (k : Nat) : State :=
  s.modPort p fun x => { x with lsOut := x.lsOut.map fun o =>
    if o.done then o else { o with bytes := zeroFrom o.bytes (min k (o.bytes.length - 16)), done := true } }

/-- Cutting it at a place that is not stated. -/
def State.zeroTail (s : State) (p : Fin 64) : State := (s.takeFree).zeroTailAt p s.freeVal

end Sys2Proof.Machine
end

