-- ==== Sys2Proof/Machine/BoxOps.lean ====
section
/-! DEFINITION. The Box Office: buckets (R104), lookup (R106, R111), placing (R105), station conflicts (R109, R110). -/

namespace Sys2Proof.Machine

/-- The key record of 21 bytes (R103). -/
def keyRecord (ktype : Nat) (key : Bytes) : Bytes := BitVec.ofNat 8 ktype :: padTo 20 key

/-- The bucket of a key in a table (R104). -/
def Box.bucket (b : Box) (table ktype : Nat) (key : Bytes) : Nat :=
  (if table = 0 then crc32c (leBytes 4 b.seed0.toNat ++ keyRecord ktype key)
   else crc32 (leBytes 4 b.seed1.toNat ++ keyRecord ktype key)) % 2 ^ 14

/-- The four slots of a bucket. -/
def bucketSlots (table bucket : Nat) : List Nat := (List.range 4).map fun i => table * 65536 + bucket * 4 + i

/-- The stash slots. -/
def stashSlots : List Nat := (List.range 16).map fun i => 131072 + i

/-- The places where a key can live: one bucket in each table, and the stash. -/
def Box.places (b : Box) (ktype : Nat) (key : Bytes) : List Nat :=
  bucketSlots 0 (b.bucket 0 ktype key) ++ bucketSlots 1 (b.bucket 1 ktype key) ++ stashSlots

/-- The locator of a slot (R377). -/
def locator (slot : Nat) : Nat :=
  if 131072 ≤ slot then 2 * 2 ^ 16 + (slot - 131072) else slot / 65536 * 2 ^ 16 + slot % 65536 / 4 + slot % 4 * 2 ^ 14

/-- The slot of a locator. -/
def ofLocator (l : Nat) : Option Nat :=
  if l / 2 ^ 18 ≠ 0 then none
  else match fld l 17 16 with
    | 0 => some (fld l 13 0 * 4 + fld l 15 14)
    | 1 => some (65536 + fld l 13 0 * 4 + fld l 15 14)
    | 2 => if fld l 15 4 = 0 then some (131072 + fld l 3 0) else none
    | _ => none

/-- Changing a wing's Box Office. -/
def State.modBox (s : State) (w : Wing) (f : Box → Box) : State := s.modWing w fun x => { x with box := f x.box }

/-- The slots that hold a key; a slot that fails parity is treated as absent (R111). -/
def State.boxHits (s : State) (w : Wing) (ktype : Nat) (key : Bytes) : List (Nat × BoxEnt) :=
  let b := (s.wing w).box
  (b.places ktype key).filterMap fun i =>
    if s.bad (.box w i) then none
    else match tget b.slots i with
      | some e => if e.ktype = ktype ∧ e.key = padTo 20 key then some (i, e) else none
      | none => none

/-- The copy of a key that a lookup uses: of two, the one whose GEN is one greater than the other's (R106). -/
def State.boxFind (s : State) (w : Wing) (ktype : Nat) (key : Bytes) : Option (Nat × BoxEnt) :=
  match s.boxHits w ktype key with
  | a :: b :: _ => if b.2.gen = (a.2.gen + 1) % 16 then some b else some a
  | l => l.head?

/-- The failing slots that a frame's lookup reads: each counted for the port, and logged the first time (R111). -/
def State.boxParity (s : State) (w : Wing) (p : Fin 64) (ktype : Nat) (key : Bytes) : State :=
  (((s.wing w).box.places ktype key).filter fun i => s.bad (.box w i)).foldl (fun s i =>
    let s := s.countPort p .boxParity
    if (s.wing w).box.badLogged.contains i then s
    else ((s.modBox w fun b => { b with badLogged := b.badLogged ++ [i] }).log w .boxParity 0 (locator i) 0 0).parityHit w
      (.box w i)) s

/-- Writing a slot: one that failed parity is repaired (R111). -/
def State.boxPut (s : State) (w : Wing) (slot : Nat) (e : BoxEnt) : State :=
  let s := if s.bad (.box w slot) then
      ((s.fix (.box w slot)).modBox w fun b => { b with badLogged := b.badLogged.erase slot }).log w .slotRepaired 0
        (locator slot) 0 0
    else s
  s.modBox w fun b => { b with slots := tput b.slots slot e }

/-- Clearing a slot. -/
def State.boxClear (s : State) (w : Wing) (slot : Nat) : State := s.modBox w fun b => { b with slots := tdel b.slots slot }

/-- Whether a slot is free: empty, or failing parity, and in a bank that is in service. -/
def State.boxFree (s : State) (w : Wing) (slot : Nat) : Bool :=
  ((tget (s.wing w).box.slots slot).isNone || s.bad (.box w slot)) && !s.bankOut (.box w slot)

/-- The slots of the other table where the entry in a slot can go. -/
def State.boxAlt (s : State) (w : Wing) (slot : Nat) : List Nat :=
  let b := (s.wing w).box
  match tget b.slots slot with
  | some e => let t := 1 - slot / 65536
    bucketSlots t (b.bucket t e.ktype e.key)
  | none => []

/-- The breadth-first search for a path of relocations that ends in a free slot, the free slot first (R105). -/
def State.boxPath (s : State) (w : Wing) : Nat → List (List Nat) → Option (List Nat)
  | 0, _ => none
  | n + 1, paths =>
    let next := paths.flatMap fun path => match path with
      | [] => []
      | x :: _ => (s.boxAlt w x).filterMap fun y => if path.contains y then none else some (y :: path)
    match next.find? fun path => match path with
        | y :: _ => s.boxFree w y
        | [] => false with
    | some p => some p
    | none => State.boxPath s w n next

/-- Carrying out the moves of a path from its far end, each with GEN incremented (R105, R106): the slot freed. -/
def State.boxMoves (s : State) (w : Wing) : List Nat → State × Option Nat
  | [] => (s, none)
  | [x] => (s, some x)
  | y :: x :: rest =>
    let s := match tget (s.wing w).box.slots x with
      | some e => (s.boxPut w y { e with gen := (e.gen + 1) % 16 }).boxClear w x
      | none => s
    State.boxMoves s w (x :: rest)

/-- Placing a new entry by steps 3 to 6 of R105: the slot it takes. An entry in the stash stays there: R106 speaks of moves out of it
and no rule gives their occasion (DESIGN CHOICE, assumption 16). -/
def State.boxPlace (s : State) (w : Wing) (e : BoxEnt) : Option Nat × State :=
  let b := (s.wing w).box
  let cand := bucketSlots 0 (b.bucket 0 e.ktype e.key) ++ bucketSlots 1 (b.bucket 1 e.ktype e.key)
  let put (s : State) (i : Nat) : Option Nat × State :=
    let s := s.boxPut w i e
    (some i, s.modBox w fun b =>
      { b with recent := (b.recent ++ [(i, keyRecord e.ktype e.key, s.now w)]).drop (b.recent.length + 1 - 256) })
  match cand.find? (s.boxFree w) with
  | some i => put s i
  | none => match s.boxPath w 4 (cand.map fun i => [i]) with
    | some path => match s.boxMoves w path with
      | (s, some i) => put s i
      | (s, none) => (none, s)
    | none => match stashSlots.find? (s.boxFree w) with
      | some i => put s i
      | none => (none, s)

/-- Unkeyed entries that a port holds. -/
def Box.unkeyed (b : Box) (port : Nat) : Nat := b.slots.countP fun e => e.2.state = 1 ∧ e.2.port = port

/-- A station conflict: counted, and logged once with the winner's time where it is known (R109, R110, R377). -/
def State.stationConflict (s : State) (w : Wing) (p : Fin 64) (slot : Nat) (e : BoxEnt) (arr : Ts) : State :=
  let s := s.countPort p .stationConflict
  if e.conflict then s
  else
    let s := s.modBox w fun b => { b with slots := tmod b.slots slot fun e => { e with conflict := true } }
    let win := (((s.wing w).box.recent.reverse.find? fun x => x.2.1 = keyRecord e.ktype e.key)).map (·.2.2)
    let delta : Option Nat := win.bind fun t =>
      if t.epoch = arr.epoch ∧ tsTime t ≤ tsTime arr then some ((tsTime arr - tsTime t) / 2 ^ 16) else none
    let ns := (delta.getD 0) / 2 ^ 16
    let valid := delta.isSome && decide (ns < 2 ^ 32)
    s.logWords w ([wd (Ev.code .stationConflict + wingIx w * 2 ^ 8 + b2n valid * 2 ^ 9 + e.port * 2 ^ 16 + portIx p * 2 ^ 21),
      wd (locator slot), wd (min ns (2 ^ 32 - 1)), wd (delta.getD 0 % 2 ^ 16)] ++ tsWords arr)

end Sys2Proof.Machine
end

