-- ==== Sys2Proof/Machine/Operands.lean ====
section
/-! DEFINITION. The operand forms: packing and unpacking of the structures that requests, responses and stores carry,
each in the layout of its rule. An `ok` says that reserved bits are 0 and every field is in its range (R7). -/

namespace Sys2Proof.Machine

/-! ## PORT_CLS (R84), PORT_SP (R131), PTP_CFG (R317) -/

/-- PORT_CLS from the words at `i`. -/
def PortCls.ofWords (l : List Word) (i : Nat) : PortCls :=
  let w := wordAt l i
  { outKey := fld w 2 0, noKeyAct := fld w 4 3, noMatchAct := fld w 6 5, noSaAct := fld w 8 7, nosecAct := fld w 10 9,
    eapolBypass := bitOf w 11, learnEn := bitOf w 12, learnLog := bitOf w 13, lockNew := bitOf w 14,
    learnLimit := fld w 31 16, sciLo := l.getD (i + 1) 0, sciHi := l.getD (i + 2) 0, sciValid := bitOf (wordAt l (i + 3)) 0 }

/-- PORT_CLS in its words. -/
def PortCls.words (c : PortCls) : List Word :=
  [wd (c.outKey + c.noKeyAct * 2 ^ 3 + c.noMatchAct * 2 ^ 5 + c.noSaAct * 2 ^ 7 + c.nosecAct * 2 ^ 9
      + b2n c.eapolBypass * 2 ^ 11 + b2n c.learnEn * 2 ^ 12 + b2n c.learnLog * 2 ^ 13 + b2n c.lockNew * 2 ^ 14
      + c.learnLimit * 2 ^ 16), c.sciLo, c.sciHi, wd (b2n c.sciValid)]

/-- PORT_CLS words are within R84. -/
def portClsOk (l : List Word) (i : Nat) : Bool :=
  let w := wordAt l i
  decide (fld w 2 0 ≤ 4 ∧ fld w 4 3 ≤ 1 ∧ fld w 6 5 ≤ 1 ∧ fld w 8 7 ≤ 1 ∧ fld w 10 9 ≤ 2 ∧ fld w 15 15 = 0
    ∧ fld (wordAt l (i + 3)) 31 1 = 0)

/-- PORT_SP from the words at `i`. -/
def PortSp.ofWords (l : List Word) (i : Nat) : PortSp :=
  { mtu := fld (wordAt l i) 13 0, ordered := bitOf (wordAt l i) 14, holdLimit := fld (wordAt l (i + 1)) 13 0,
    launchTol := fld (wordAt l (i + 2)) 19 0 }

/-- PORT_SP in its words. -/
def PortSp.words (c : PortSp) : List Word := [wd (c.mtu + b2n c.ordered * 2 ^ 14), wd c.holdLimit, wd c.launchTol]

/-- PORT_SP words are within R131. -/
def portSpOk (l : List Word) (i : Nat) : Bool :=
  let c := PortSp.ofWords l i
  decide (64 ≤ c.mtu ∧ 1 ≤ c.holdLimit ∧ c.holdLimit ≤ 10000 ∧ c.launchTol ≤ 1000000
    ∧ fld (wordAt l i) 31 15 = 0 ∧ fld (wordAt l (i + 1)) 31 14 = 0 ∧ fld (wordAt l (i + 2)) 31 20 = 0)

/-- PTP_CFG from the words at `i`; ASYM is the engine's (R447). -/
def PtpCfg.ofWords (l : List Word) (i : Nat) : PtpCfg :=
  let w := wordAt l i
  { tcEn := bitOf w 0, oneStep := bitOf w 1, expt := bitOf w 2, l2 := bitOf w 3, udp4 := bitOf w 4, udp6 := bitOf w 5,
    asym := l.getD (i + 1) 0, asymNext := l.getD (i + 2) 0, asymTout := fld (wordAt l (i + 3)) 2 0,
    asymPending := bitOf (wordAt l (i + 3)) 3 }

/-- PTP_CFG in its words. -/
def PtpCfg.words (c : PtpCfg) : List Word :=
  [wd (b2n c.tcEn + b2n c.oneStep * 2 + b2n c.expt * 4 + b2n c.l2 * 8 + b2n c.udp4 * 16 + b2n c.udp6 * 32), c.asym,
   c.asymNext, wd (c.asymTout + b2n c.asymPending * 8)]

/-- PTP_CFG words have no reserved bit. -/
def ptpCfgOk (l : List Word) (i : Nat) : Bool := decide (fld (wordAt l i) 31 6 = 0 ∧ fld (wordAt l (i + 3)) 31 4 = 0)

/-! ## Policy records (R93), trie entries (R92), Box Office entries (R102), Green Room descriptors (R114) -/

/-- A policy record from the words at `i`. -/
def Policy.ofWords (l : List Word) (i : Nat) : Policy :=
  let w := wordAt l i
  { action := fld w 1 0, group := bitOf w 2, classOvr := bitOf w 3, cls := fld w 5 4, target := fld w 27 8,
    tag := l.getD (i + 1) 0 }

/-- A policy record in its words. -/
def Policy.words (p : Policy) : List Word :=
  [wd (p.action + b2n p.group * 4 + b2n p.classOvr * 8 + p.cls * 16 + p.target * 2 ^ 8), p.tag]

/-- A policy record is within R93. -/
def policyOk (l : List Word) (i : Nat) : Bool :=
  let p := Policy.ofWords l i
  decide (fld (wordAt l i) 7 6 = 0 ∧ fld (wordAt l i) 31 28 = 0)
    && (decide (p.action = 0) || decide (p.group = false ∧ p.target = 0)) && (!p.group || decide (p.target < 4096))

/-- A trie entry from the words at `i`. -/
def TEnt.ofWords (l : List Word) (i : Nat) : TEnt :=
  let a := wordAt l i
  let b := wordAt l (i + 1)
  { policyIx := fld a 16 0, matchLen := fld a 24 17, matchValid := bitOf a 25, child := fld b 13 0,
    childValid := bitOf b 14 }

/-- A trie entry in its words. -/
def TEnt.words (e : TEnt) (parErr : Bool) : List Word :=
  [wd (e.policyIx + e.matchLen * 2 ^ 17 + b2n e.matchValid * 2 ^ 25),
   wd (e.child + b2n e.childValid * 2 ^ 14 + b2n parErr * 2 ^ 31)]

/-- A trie entry's words are within R92. -/
def tentOk (l : List Word) (i : Nat) : Bool :=
  let e := TEnt.ofWords l i
  decide (fld (wordAt l i) 31 26 = 0 ∧ fld (wordAt l (i + 1)) 30 15 = 0) && (!e.matchValid || decide (1 ≤ e.matchLen ∧ e.matchLen ≤ 128))

/-- A Box Office entry from the words at `i`. -/
def BoxEnt.ofWords (l : List Word) (i : Nat) : BoxEnt :=
  let w := wordAt l i
  { ktype := fld w 2 0, state := fld w 4 3, port := fld w 13 9, lock := bitOf w 14, sai := fld (wordAt l (i + 1)) 19 0,
    key := wordsToBytes (wordsAt l (i + 2) 5) }

/-- A Box Office entry in its words. LEARN_MS is RT at insertion in ms. -/
def BoxEnt.words (e : BoxEnt) (parErr : Bool) : List Word :=
  [wd (e.ktype + e.state * 2 ^ 3 + e.gen % 16 * 2 ^ 5 + e.port * 2 ^ 9 + b2n e.lock * 2 ^ 14 + b2n e.conflict * 2 ^ 15
      + b2n e.learned * 2 ^ 16 + b2n parErr * 2 ^ 31), wd e.sai]
    ++ toWords 5 (leNat (e.key.take 20)) ++ [wd (e.at' / 1000000)]

/-- Reserved bits of an entry's words are 0. -/
def boxClean (l : List Word) (i : Nat) : Bool := decide (fld (wordAt l i) 30 17 = 0 ∧ fld (wordAt l (i + 1)) 31 20 = 0)

/-- KEY bytes that a type does not use are 0 (R103). -/
def boxKeyOk (ktype : Nat) (key : Bytes) : Bool :=
  let used := if ktype = 1 ∨ ktype = 2 ∨ ktype = 4 then 8 else 20
  decide (1 ≤ ktype ∧ ktype ≤ 4) && (key.drop used).all (· = 0)

/-- A Green Room descriptor. -/
def GFrame.words (f : GFrame) : List Word :=
  [wd (f.handle + f.reason * 2 ^ 16 + b2n f.inb * 2 ^ 20 + f.port.val * 2 ^ 21 + f.cls * 2 ^ 27), wd f.bytes.length,
   wd f.sai, f.tag] ++ tsWords f.arr

/-! ## CLASS_CFG (R153), WEAR_CFG (R347), PRM_CFG (R309), TOUT_CFG (R323), export records (R320) -/

/-- CLASS_CFG from a word. -/
def ClassCfg.ofWord (w : Nat) : ClassCfg :=
  { leadLanes := fld w 2 0, fullHouse := bitOf w 3, leadPolice := bitOf w 4, lendOut := fld w 7 5,
    weight1 := fld w 15 8, weight2 := fld w 23 16, weight3 := fld w 31 24 }

/-- CLASS_CFG within R153. -/
def ClassCfg.ok (c : ClassCfg) : Bool :=
  decide (1 ≤ c.leadLanes ∧ c.leadLanes ≤ 6 ∧ c.lendOut ≤ 4 ∧ 0 < c.weight1 ∧ 0 < c.weight2 ∧ 0 < c.weight3
    ∧ c.leadLanes + c.lendOut ≤ 9)

/-- WEAR_CFG from the words at `i`. -/
def WearCfg.ofWords (l : List Word) (i : Nat) : WearCfg :=
  { warn := fld (wordAt l i) 15 0, strike := fld (wordAt l i) 31 16, period := fld (wordAt l (i + 1)) 16 0,
    autoStrike := bitOf (wordAt l (i + 2)) 0, promoteEn := bitOf (wordAt l (i + 2)) 1 }

/-- WEAR_CFG words within R347. -/
def wearCfgOk (l : List Word) (i : Nat) : Bool :=
  let c := WearCfg.ofWords l i
  decide (300 ≤ c.warn ∧ c.warn ≤ 3000 ∧ 100 ≤ c.strike ∧ c.strike ≤ 1500 ∧ c.strike < c.warn ∧ 60 ≤ c.period
    ∧ c.period ≤ 86400 ∧ fld (wordAt l (i + 1)) 31 17 = 0 ∧ fld (wordAt l (i + 2)) 31 2 = 0)

/-- PRM_CFG from the words at `i`. -/
def PrmCfg.ofWords (l : List Word) (i : Nat) : PrmCfg :=
  { clkHz := fld (wordAt l i) 27 0, holdoverMs := fld (wordAt l (i + 1)) 13 0, alarmNs := wordAt l (i + 2),
    useLock := bitOf (wordAt l (i + 3)) 0 }

/-- PRM_CFG words within R309: the default TOD_CLK_HZ of 0 is accepted. -/
def prmCfgOk (l : List Word) (i : Nat) : Bool :=
  let c := PrmCfg.ofWords l i
  (decide (c.clkHz = 0) || decide (10000000 ≤ c.clkHz ∧ c.clkHz ≤ 250000000))
    && decide (2 ≤ c.holdoverMs ∧ c.holdoverMs ≤ 10000 ∧ 100 ≤ c.alarmNs ∧ c.alarmNs ≤ 1000000000
      ∧ fld (wordAt l i) 31 28 = 0 ∧ fld (wordAt l (i + 1)) 31 14 = 0 ∧ fld (wordAt l (i + 3)) 31 1 = 0)

/-- TOUT_CFG from the words at `i`: the cue and its setting. -/
def cueOfWords (l : List Word) (i : Nat) : Fin 16 × Cue :=
  let w := wordAt l i
  (Fin.ofNat 16 (fld w 3 0),
   { mode := fld w 5 4, polarity := bitOf w 6, outEn := bitOf w 7, widthNs := wordAt l (i + 1),
     periodNs := wordsNat (wordsAt l (i + 2) 2), start := tsOfWords l (i + 4) })

/-- TOUT_CFG in its words. -/
def Cue.words (t : Cue) (c : Fin 16) : List Word :=
  [wd (c.val + t.mode * 16 + b2n t.polarity * 64 + b2n t.outEn * 128), wd t.widthNs] ++ toWords 2 t.periodNs ++ tsWords t.start

/-- Reserved bits of a TOUT_CFG and of its timestamp are 0. -/
def cueClean (l : List Word) (i : Nat) : Bool := decide (fld (wordAt l i) 31 8 = 0 ∧ fld (wordAt l (i + 7)) 31 16 = 0)

/-- An export record in its 12 words. -/
def TsRec.words (r : TsRec) : List Word :=
  [wd (r.port + b2n r.inb * 2 ^ 6 + r.mtype * 2 ^ 7 + r.domain * 2 ^ 11), wd r.seqId] ++ tsWords r.ingress
    ++ tsWords r.egress ++ toWords 2 (ofSigned 64 r.resid)

/-! ## REGION_DESC (R175) -/

/-- A descriptor from the words at `i`: the region it names and its Host fields. -/
def rdescOfWords (l : List Word) (i : Nat) : Fin 64 × RDesc :=
  let w := wordAt l i
  let byp := fld w 7 6 = 0
  let ad (k : Nat) : Nat := wordAt l (i + k) + fld (wordAt l (i + k + 1)) 7 0 * 2 ^ 32
  (Fin.ofNat 64 (fld w 5 0),
   { mode := fld w 7 6, owner := wingOf (fld w 8 8), pin := bitOf w 9, vfirst := bitOf w 10, repair := bitOf w 11,
     retain := bitOf w 12, resume := bitOf w 13, mpMap := fld w 15 14, base := ad 1, last := ad 3,
     ctrBase := if byp then 0 else ad 5, treeBase := if byp then 0 else ad 7, tagBase := if byp then 0 else ad 9,
     treeKey := if byp then 0 else fld (wordAt l (i + 11)) 23 0 })

/-- Reserved bits of a descriptor are 0, and a BYPASS region names no metadata and no tree key (R7, R175). -/
def rdescClean (l : List Word) (i : Nat) : Bool :=
  let hi (k : Nat) : Bool := decide (fld (wordAt l (i + k)) 31 8 = 0)
  let byp := fld (wordAt l i) 7 6 = 0
  decide (fld (wordAt l i) 30 23 = 0) && hi 2 && hi 4 && hi 6 && hi 8 && hi 10
    && decide (fld (wordAt l (i + 11)) 31 24 = 0) && decide (wordAt l (i + 14) = 0 ∧ wordAt l (i + 15) = 0)
    && (!byp || (List.range 7).all fun k => wordAt l (i + 5 + k) = 0)

/-- The code of a region state. -/
def RState.code : RState → Nat
  | .notInstalled => 0
  | .init => 1
  | .active => 2
  | .closing => 3
  | .closed => 4

/-- A descriptor in its words with the engine's fields. -/
def RDesc.words (d : RDesc) (r : Nat) (st depth : Nat) (parErr : Bool) (root : Nat) : List Word :=
  let ad (x : Nat) : List Word := [wd x, wd (x / 2 ^ 32)]
  [wd (r + d.mode * 2 ^ 6 + wingIx d.owner * 2 ^ 8 + b2n d.pin * 2 ^ 9 + b2n d.vfirst * 2 ^ 10 + b2n d.repair * 2 ^ 11
      + b2n d.retain * 2 ^ 12 + b2n d.resume * 2 ^ 13 + d.mpMap * 2 ^ 14 + st * 2 ^ 16 + depth * 2 ^ 19
      + b2n parErr * 2 ^ 31)] ++ ad d.base ++ ad d.last ++ ad d.ctrBase ++ ad d.treeBase ++ ad d.tagBase
    ++ [wd d.treeKey] ++ toWords 2 root ++ [0, 0]

/-- The bytes over which a retained record's descriptor check is taken (R212): words 0 to 11 with RETAIN, RESUME and
every engine field 0. -/
def RDesc.checkBytes (d : RDesc) (r : Nat) : Bytes :=
  wordsToBytes ((RDesc.words { d with retain := false, resume := false } r 0 0 false 0).take 12)

/-! ## USH_RULE (R219), USH_DEFAULT (R221), MG_MAP (R216) -/

/-- A rule from the words at `i`. -/
def URule.ofWords (l : List Word) (i : Nat) : URule :=
  let w := wordAt l i
  { valid := bitOf w 7, read := bitOf w 8, write := bitOf w 9, world0 := bitOf w 10, world1 := bitOf w 11,
    defOnly := bitOf w 12, debugOk := bitOf w 13, floor := fld w 15 14, kixValid := bitOf w 16, defKix := fld w 28 17,
    groups := fld (wordAt l (i + 1)) 15 0, start := wordAt l (i + 2) + fld (wordAt l (i + 3)) 7 0 * 2 ^ 32,
    last := wordAt l (i + 4) + fld (wordAt l (i + 5)) 7 0 * 2 ^ 32 }

/-- The address words of a rule or default entry are within R219 and R220. -/
def uaddrOk (l : List Word) (i : Nat) (start last : Nat) : Bool :=
  decide (start % 64 = 0 ∧ last % 64 = 63 ∧ start ≤ last ∧ fld (wordAt l (i + 1)) 31 8 = 0
    ∧ fld (wordAt l (i + 3)) 31 8 = 0)

/-- Rule words within R219 and R220. -/
def uruleOk (l : List Word) (i : Nat) : Bool :=
  let r := URule.ofWords l i
  decide (fld (wordAt l i) 30 29 = 0 ∧ fld (wordAt l (i + 1)) 31 16 = 0) && uaddrOk l (i + 2) r.start r.last

/-- A rule in its words. -/
def URule.words (r : URule) (ix : Nat) (parErr : Bool) : List Word :=
  [wd (ix + b2n r.valid * 2 ^ 7 + b2n r.read * 2 ^ 8 + b2n r.write * 2 ^ 9 + b2n r.world0 * 2 ^ 10 + b2n r.world1 * 2 ^ 11
      + b2n r.defOnly * 2 ^ 12 + b2n r.debugOk * 2 ^ 13 + r.floor * 2 ^ 14 + b2n r.kixValid * 2 ^ 16 + r.defKix * 2 ^ 17
      + b2n parErr * 2 ^ 31), wd r.groups, wd r.start, wd (r.start / 2 ^ 32), wd r.last, wd (r.last / 2 ^ 32)]

/-- A default entry from the words at `i`, as a rule without KIX_MODE, DEBUG_OK and CLASS_FLOOR. -/
def udefOfWords (l : List Word) (i : Nat) : URule :=
  let w := wordAt l i
  { valid := bitOf w 3, read := bitOf w 4, write := bitOf w 5, world0 := bitOf w 6, world1 := bitOf w 7,
    kixValid := bitOf w 8, defKix := fld w 20 9, start := wordAt l (i + 1) + fld (wordAt l (i + 2)) 7 0 * 2 ^ 32,
    last := wordAt l (i + 3) + fld (wordAt l (i + 4)) 7 0 * 2 ^ 32 }

/-- Default entry words within R221. -/
def udefOk (l : List Word) (i : Nat) : Bool :=
  let r := udefOfWords l i
  decide (fld (wordAt l i) 30 21 = 0) && uaddrOk l (i + 1) r.start r.last

/-- A default entry in its words. -/
def udefWords (r : URule) (ix : Nat) (parErr : Bool) : List Word :=
  [wd (ix + b2n r.valid * 2 ^ 3 + b2n r.read * 2 ^ 4 + b2n r.write * 2 ^ 5 + b2n r.world0 * 2 ^ 6 + b2n r.world1 * 2 ^ 7
      + b2n r.kixValid * 2 ^ 8 + r.defKix * 2 ^ 9 + b2n parErr * 2 ^ 31),
   wd r.start, wd (r.start / 2 ^ 32), wd r.last, wd (r.last / 2 ^ 32)]

/-- An MG_MAP entry from its byte. -/
def MgEnt.ofByte (b : Nat) : MgEnt := { group := fld b 3 0, priv := bitOf b 4, debug := bitOf b 5, valid := bitOf b 6 }

/-- An MG_MAP entry's byte. -/
def MgEnt.byte (e : MgEnt) : Nat := e.group + b2n e.priv * 16 + b2n e.debug * 32 + b2n e.valid * 64

/-! ## RHL_CFG (R395) -/

/-- The settings of an RHL_CFG at `i`. -/
def RhlCfg.ofWords (l : List Word) (i : Nat) : RhlCfg :=
  let w := wordAt l i
  { headerBytes := fld w 3 2, grants := bitOf w 4, freezeMask := fld w 10 5, postBlocks := fld w 25 16,
    portMask := wordAt l (i + 1), rqpMask := fld (wordAt l (i + 2)) 1 0, ctrl := bitOf (wordAt l (i + 2)) 2,
    record := decide (fld w 1 0 = 2) }

/-- Reserved bits of an RHL_CFG are 0. -/
def rhlCfgClean (l : List Word) (i : Nat) : Bool :=
  decide (fld (wordAt l i) 15 11 = 0 ∧ fld (wordAt l i) 31 26 = 0 ∧ fld (wordAt l (i + 2)) 31 3 = 0)
    && (decide (fld (wordAt l i) 1 0 = 3) || (List.range 28).all fun k => wordAt l (i + 3 + k) = 0)

end Sys2Proof.Machine
end

