-- ==== Sys2Proof/Machine/TrieOps.lean ====
section
/-! DEFINITION. The policy trie: entries (R89 to R92), lookup (R90, R98), staged changes and the building of a version
(R96, R97). -/

namespace Sys2Proof.Machine

/-- Key bits that lead to a node of stage `t`, and bits read through stage `t`. -/
def bitsTo (t : Nat) : Nat := if t = 0 then 0 else 16 + 8 * (t - 1)

/-- The stage that holds a prefix (R89). -/
def stageOf (len : Nat) : Nat := if len ≤ 16 then 0 else (len - 16 + 7) / 8

/-- The first `n` bits of a 128-bit key. -/
def keyTop (key n : Nat) : Nat := key >>> (128 - n)

/-- The nodes on a prefix's path: stage and leading bits. -/
def Pfx.path (p : Pfx) : List (Nat × Nat) :=
  (List.range (stageOf p.len)).map fun i => (i + 1, keyTop p.key (bitsTo (i + 1)))

/-- The index of a node. -/
def TrieVer.node (v : TrieVer) (t pre : Nat) : Option Nat :=
  (v.names.find? fun n => n.1 = t ∧ n.2.1 = pre).map (·.2.2)

/-- The entry that the installed prefixes give at stage `t` where the bits read through it are `bits`. -/
def TrieVer.computed (v : TrieVer) (t bits : Nat) : TEnt :=
  let n := bitsTo (t + 1)
  let best := v.pfxs.foldl (fun (b : Option Pfx) p =>
    if p.len ≠ 0 ∧ stageOf p.len = t ∧ keyTop p.key p.len = bits >>> (n - p.len) then
      (match b with
       | some q => if q.len < p.len then some p else b
       | none => some p)
    else b) none
  let child := v.node (t + 1) bits
  { policyIx := (best.map (·.ix)).getD 0, matchLen := (best.map (·.len)).getD 0, matchValid := best.isSome,
    child := child.getD 0, childValid := child.isSome }

/-- An entry of a version: of the root at stage 0, else of a node with its leading bits. -/
def TrieVer.entry (v : TrieVer) (t pre ix : Nat) : TEnt :=
  if t = 0 then (tget v.root ix).getD (v.computed 0 ix)
  else match v.node t pre with
    | some n => (tget ((tget v.nodes n).getD []) ix).getD (v.computed t (pre * 256 + ix))
    | none => {}

/-- The name of a node by its index. -/
def TrieVer.named (v : TrieVer) (t n : Nat) : Option Nat := (v.names.find? fun x => x.1 = t ∧ x.2.2 = n).map (·.2.1)

/-- What a lookup comes to: a policy record, a miss, or a parity failure naming stage, node and entry. -/
inductive TLook where
  | policy (p : Policy)
  | miss
  | parity (stage node entry : Nat)
deriving DecidableEq, Repr

/-- Walking the trie, at most `n` stages, remembering the longest match. A child that a rewritten entry names is the
node of that index at the next stage; where there is none, it reads as a node of empty entries, and the walk ends with the best match
so far (R90; DESIGN CHOICE, assumption 30). -/
def TrieVer.walk (v : TrieVer) (bad : Nat → Nat → Nat → Bool) (key : Nat) :
    Nat → Nat → Nat → Nat → Option Nat → Option Nat ⊕ (Nat × Nat × Nat)
  | 0, _, _, _, best => .inl best
  | n + 1, t, node, pre, best =>
    let ix := if t = 0 then keyTop key 16 else keyTop key (bitsTo (t + 1)) % 256
    let (nd, en) := if t = 0 then (ix / 256, ix % 256) else (node, ix)
    if bad t nd en then .inr (t, nd, en)
    else
      let e := v.entry t pre ix
      let best := if e.matchValid then some e.policyIx else best
      if e.childValid ∧ t < 14 then
        TrieVer.walk v bad key n (t + 1) e.child ((v.named (t + 1) e.child).getD (2 ^ 128)) best
      else .inl best

/-- The default policy's index. -/
def TrieVer.dflt (v : TrieVer) : Option Nat := (v.pfxs.find? (·.len = 0)).map (·.ix)

/-- A policy record in use (R90). -/
def TrieVer.policyAt (v : TrieVer) (ix : Nat) : Option Policy :=
  if v.pfxs.any (·.ix = ix) then tget v.policies ix else none

/-- A lookup in the version in force (R90, R98). A stage that is out of service reads as entries that fail parity (R26, assumption
36). -/
def State.trieLook (s : State) (w : Wing) (key : Nat) : TLook :=
  let v := (s.wing w).trie.cur
  let out (t : Nat) : Bool := (s.wing w).struck.contains (unitName 2 t w)
  match v.walk (fun t n e => out t || s.bad (.trie w t n e)) key 15 0 0 0 none with
  | .inr (t, n, e) => .parity t n e
  | .inl (some ix) => (match v.policyAt ix with
    | some p => .policy p
    | none => .miss)
  | .inl none => (match v.dflt.bind v.policyAt with
    | some p => .policy p
    | none => .miss)

/-- The member of an SA group for a port; 0xFFFFF where it was never written (R95). -/
def TrieVer.member (v : TrieVer) (g m : Nat) : Nat := ((tget v.groups g).getD []).getD m 0xFFFFF

/-! ## Building a version (R96, R97) -/

/-- One staged change on the prefixes, policies and groups. -/
def TrieVer.change (v : TrieVer) : TChange → TrieVer
  | .add len key pol =>
    match v.pfxs.find? fun p => p.len = len ∧ p.key = key with
    | some p => { v with policies := tput v.policies p.ix pol }
    | none =>
      let ix := ((List.range (v.pfxs.length + 1)).find? fun i => v.pfxs.all (·.ix ≠ i)).getD 0
      { v with pfxs := v.pfxs ++ [{ len := len, key := key, ix := ix }], policies := tput v.policies ix pol }
  | .remove len key =>
    match v.pfxs.find? fun p => p.len = len ∧ p.key = key with
    | some p => { v with pfxs := v.pfxs.erase p, policies := tdel v.policies p.ix }
    | none => v
  | .group g members => { v with groups := tput v.groups g members }

/-- The prefix that a staged change alters in a version; none for a group, and none for the removal of a prefix that is not
installed, which changes nothing (R96). -/
def TrieVer.alters (v : TrieVer) : TChange → Option Pfx
  | .add len key _ => some { len := len, key := key, ix := 0 }
  | .remove len key => if v.pfxs.any fun p => p.len = len ∧ p.key = key then some { len := len, key := key, ix := 0 } else none
  | .group _ _ => none

/-- The prefixes that staged changes alter, one after another. -/
def alteredPfxs : TrieVer → List TChange → List Pfx
  | _, [] => []
  | v, c :: cs => (v.alters c).toList ++ alteredPfxs (v.change c) cs

/-- Naming the nodes of a version: a node that no change touches keeps its index, another takes the lowest index that
neither version holds. -/
def nameNodes (old : List (Nat × Nat × Nat)) (changed : List (Nat × Nat)) :
    List (Nat × Nat) → List (Nat × Nat × Nat) → List (Nat × Nat × Nat)
  | [], acc => acc
  | (t, pre) :: rest, acc =>
    if acc.any fun n => n.1 = t ∧ n.2.1 = pre then nameNodes old changed rest acc
    else
      let keep := if changed.contains (t, pre) then none else (old.find? fun n => n.1 = t ∧ n.2.1 = pre).map (·.2.2)
      let ix := keep.getD (((List.range 32769).find? fun i => old.all (·.2.2 ≠ i) ∧ acc.all (·.2.2 ≠ i)).getD 32768)
      nameNodes old changed rest (acc ++ [(t, pre, ix)])

/-- The version that the staged changes make of one in force. Entries written by PT_WRITE_ENTRY live on in paths that no change
touches; one written, while the commit is built, to a node that both versions share is not carried over (DESIGN CHOICE, assumption
30). -/
def TrieVer.build (v : TrieVer) (cs : List TChange) : TrieVer :=
  let n := cs.foldl TrieVer.change v
  let altered := alteredPfxs v cs
  let names := nameNodes v.names (altered.flatMap Pfx.path) (n.pfxs.flatMap Pfx.path) []
  let touched (ix : Nat) : Bool := altered.any fun p =>
    p.len ≠ 0 ∧ keyTop p.key (min p.len 16) = ix >>> (16 - min p.len 16)
  { n with names := names, root := n.root.filter fun e => !touched e.1,
           nodes := n.nodes.filter fun e => names.any (·.2.2 = e.1) }

/-- The status that building comes to (R97): the limits of R91, then room for both versions at once. -/
def buildStatus (old new : TrieVer) : Status :=
  let keep := old.names.length
  let fresh := (new.names.filter fun n => !old.names.contains n).length
  if 131072 < new.pfxs.length ∨ 16384 < new.names.length then .trieFull
  else if 16384 < keep + fresh then .trieNodesBusy
  else .ok

/-- Changing a wing's trie. -/
def State.modTrie (s : State) (w : Wing) (f : Trie → Trie) : State := s.modWing w fun x => { x with trie := f x.trie }

end Sys2Proof.Machine
end

