-- ==== Sys2Proof/Machine/AdmitOps.lean ====
section
/-! DEFINITION. Admission of frames: outbound selection (R85 to R95), keystream (R132), release and binding (R133 to
R140), inbound selection (R99 to R101), insertions (R105) and the receive check (R145). -/

namespace Sys2Proof.Machine

/-! ## Port actions (R94, R112) -/

/-- A port action: the frame goes to the Green Room under a reason, or is discarded. -/
def State.portAct (s : State) (f : GFrame) (act reason : Nat) : State :=
  if act = 1 then s.toGrq (portWing f.port) { f with reason := reason } else s

/-- A frame's SA is absent: NO_SA and the NO_SA_ACT that it was admitted with (R84, R86, R146). -/
def State.noSaAs (s : State) (f : GFrame) (act : Nat) : State := (s.countPort f.port .noSa).portAct f act 8

/-- A frame admitted now whose SA is absent. The descriptor of one that goes to the Green Room keeps the SAI that stood in it:
the SA selected once its record was looked at, 0xFFFFF before (DESIGN CHOICE, assumption 17). -/
def State.noSa (s : State) (f : GFrame) : State := s.noSaAs f s.ports[f.port].cls.noSaAct

/-! ## Selecting an SA (R86, R139, R140) -/

/-- Reading an SA's key over its wing's path: an empty cell makes the SA absent (R251), and so does a key that may not serve a
stream in this life-cycle state (R254). -/
def State.saKey (s : State) (w : Wing) (r : SaRec) : Option Key × State :=
  let (k, s) := s.readKey w r.keyLoc
  (k.filter fun k => k.allows .stream s.vlt.lcCode none, s)

/-- What an SA index comes to for an outbound frame. -/
inductive OutSel where
  | use (sai : Nat) (x : Sa)
  | spent (sai : Nat)
  | absent
deriving DecidableEq, Repr

/-- An SA that is ACTIVE for a port. -/
def State.activeOut (s : State) (w : Wing) (p : Fin 64) (sai : Nat) : OutSel :=
  match s.sa w sai with
  | some x =>
    if x.r.inb ∨ !x.r.portEn.testBit (portIx p) ∨ s.bad (.sa w sai) ∨ x.st ≠ .active ∨ !x.present then .absent
    else if x.exhausted then .spent sai
    else .use sai x
  | none => .absent

/-- The SA under which an outbound frame that names one is admitted: a SWITCHED SA passes it on to its next SA, for one
step. -/
def State.selectOut (s : State) (w : Wing) (p : Fin 64) (sai : Nat) : OutSel :=
  match s.sa w sai with
  | some x =>
    if x.switched then
      (if x.r.inb ∨ !x.r.portEn.testBit (portIx p) ∨ s.bad (.sa w sai) ∨ x.gone ∨ !s.nextOk w x.r.nextSai (some p) then .absent
       else s.activeOut w p x.r.nextSai)
    else s.activeOut w p sai
  | none => .absent

/-! ## Staging (R132, R134, R135, R163, R168) -/

/-- Staged frames of an SA, on every port of its wing. -/
def State.saQueue (s : State) (w : Wing) (sai : Nat) : List OutFrame :=
  (wingPorts w).flatMap fun p => s.ports[p].staging.filter fun f => f.sai = some sai

/-- Frames of an SA that go before a staged one in its queue. -/
def State.ahead (s : State) (w : Wing) (sai seq : Nat) : Nat := (s.saQueue w sai).countP fun g => g.seq < seq

/-- The SA and number predicted for a frame staged on a port under an SA: past the last number, those of its next SA (R132,
R138, R139). -/
def State.predict (s : State) (w : Wing) (p : Fin 64) (sai : Nat) (x : Sa) (seq : Nat) : Nat × Nat :=
  let n := x.pn + s.ahead w sai seq
  if x.r.lastPn < n ∧ x.r.nextValid ∧ s.nextOk w x.r.nextSai (some p) then
    (x.r.nextSai, ((s.sa w x.r.nextSai).elim 0 Sa.pn) + s.ahead w x.r.nextSai seq + (n - x.r.lastPn - 1))
  else (sai, n)

/-- Bytes of keystream that a frame takes: a counter block for each 16 bytes encrypted, and one for the tag (R132). -/
def ksBytes (r : SaRec) (mesh : Nat) (b : Bytes) : Nat :=
  match outForm r mesh 0 b with
  | some form => 16 * ((if r.conf then (form.plain.length + 15) / 16 else 0) + 1)
  | none => 16

/-- Bytes in use of a wing's keystream store (R132, R441). -/
def State.ksUsed (s : State) (w : Wing) : Nat :=
  (wingPorts w).foldl (fun n p => s.ports[p].staging.foldl (fun n f => n + f.ksLen) n) 0

/-- The staged frame of a wing whose keystream is prepared next: Lead first, then in admission order, among those whose SA's
record is resident (R122, R132). -/
def State.ksNext (s : State) (w : Wing) : Option (Fin 64 × OutFrame × Nat × Sa) :=
  let waiting := (wingPorts w).flatMap fun p => s.ports[p].staging.filterMap fun f =>
    if f.ks.isSome then none
    else f.sai.bind fun a => (s.sa w a).bind fun x => if x.resident then some (p, f, a, x) else none
  waiting.foldl (fun best y => match best with
    | some z => if (y.2.1.lead && !z.2.1.lead) || (y.2.1.lead == z.2.1.lead && decide (y.2.1.seq < z.2.1.seq)) then some y else best
    | none => some y) none

/-- Preparing keystream for the staged frames of a wing, at most `n`, as far as its store of 4 MiB has room (R132, R441): each
frame's lane work goes to the dispatcher. -/
def State.prepareKs : Nat → Wing → State → State
  | 0, _, s => s
  | n + 1, w, s => match s.ksNext w with
    | none => s
    | some (p, f, a, x) =>
      let mesh := (s.wing w).meshEtype
      let len := ksBytes x.r mesh f.bytes
      if 4194304 < s.ksUsed w + len then s
      else
        let ks := s.predict w p a x f.seq
        let cost := match outForm x.r mesh 0 f.bytes with
          | some form => form.slots x.r.conf
          | none => 4
        let s := s.modPort p fun y => { y with staging := y.staging.map fun g =>
          if g.id = f.id then { g with ks := some ks, ksLen := len } else g }
        State.prepareKs n w (s.admitItem w (.out p f.id) (.sa a) (if f.lead then 0 else max 1 f.cls) cost)

/-- Preparing keystream in a wing, for as many frames as its ports can stage. -/
def State.pumpKs (s : State) (w : Wing) : State := State.prepareKs 4096 w s

/-- A launch time of the pins as Prompt time in units of 2^-32 ns: its seconds are extended to the nearest value (R135). -/
def State.launchTime (s : State) (w : Wing) (l : Nat) : Nat :=
  let now := (s.wing w).prm.t / 2 ^ 32 / 1000000000
  let lo := l / 2 ^ 32 % 2 ^ 32
  let near (h : Nat) : Nat := h * 2 ^ 32 + lo
  let dist (x : Nat) : Nat := (x - now) + (now - x)
  let h := now / 2 ^ 32
  let best := [near h, near (h + 1)].foldl (fun b x => if dist x < dist b then x else b) (near (h - 1))
  (best * 1000000000 + l % 2 ^ 32) * 2 ^ 32

/-- Placing an admitted frame in staging; its keystream is prepared in its turn. Its beats are taken to come one a nanosecond from its
command on, so that its EOF beat, from which R165 counts, comes as many later (DESIGN CHOICE, assumption 15): keystream is prepared
from its admission on, before that beat, as in the example under R136. -/
def State.stageOut (s : State) (f : GFrame) (sai : Option Nat) (cost : Nat) : State :=
  let w := portWing f.port
  let (lane, s) := if cost = 0 then (f.cls, s) else s.leadAdmit w f.cls cost
  let x := s.ports[f.port]
  let o : OutFrame := { id := x.nextId, bytes := f.bytes, sai := sai, cls := f.cls, side := f.clsIn, saiIn := f.saiIn,
                        curtain := f.curtain, ltime := f.ltime.map (s.launchTime w), epoch := (s.wing w).prm.epoch,
                        arr := f.arr, resIn := f.resIn, ks := none, admRt := s.rt + (f.bytes.length + 15) / 16 - 1, lead := decide (lane = 0),
                        outside := decide (lane = 0) && s.leadOutside w,
                        seq := (s.wing w).admSeq, barrier := x.barrier, orig := sai, noSaAct := x.cls.noSaAct,
                        thresh := (sai.bind (s.sa w)).elim 0 fun y => y.r.thresh }
  let s := s.modPort f.port fun x =>
    { x with staging := x.staging ++ [o], nextId := x.nextId + 1, hsLead := o.lead, mixed := x.mixed || !o.lead }
  (s.modWing w fun y => { y with admSeq := y.admSeq + 1 }).pumpKs w

/-- Admitting an outbound frame under an SA, or as a bypassed frame. While the hold limit of its port has run out, it goes
to the Green Room (R136); one that its SA cannot transform, or that would grow too long, is discarded (R130, R445). -/
def State.admitOut (s : State) (f : GFrame) (sel : Option (Nat × Sa)) : State :=
  let w := portWing f.port
  if s.ports[f.port].holdSpent then s.toGrq w { f with reason := 0xC }
  else match sel with
    | none => s.stageOut f none 0
    | some (sai, x) => match outForm x.r (s.wing w).meshEtype 0 f.bytes with
      | none => s.countPort f.port .saFormat
      | some form =>
        if 16383 < form.length then s.countPort f.port .growthOversize
        else
          let s := s.modSa w sai fun y => { y with used := s.rt }
          s.stageOut f (some sai) (form.slots x.r.conf)

/-- An outbound frame that names an SA, directly or through a policy (R86, R139, R140). -/
def State.outUnder (s : State) (f : GFrame) (sai : Nat) : State :=
  let w := portWing f.port
  let s := s.readSa w sai
  let s := match s.sa w sai with
    | some x => if x.switched then s.readSa w x.r.nextSai else s
    | none => s
  match s.selectOut w f.port sai with
  | .absent => s.noSa f
  | .spent a => (s.countSa w a .pnExhausted 1).portAct f s.ports[f.port].cls.noSaAct 8
  | .use a x =>
    let (k, s) := s.saKey w x.r
    if k.isNone then s.noSa f else s.admitOut { f with sai := a } (some (a, x))

/-- A trie lookup that met a parity error (R98). -/
def State.trieParity (s : State) (f : GFrame) (e : Ent) (stage node entry : Nat) : State :=
  let w := portWing f.port
  let s := ((s.countPort f.port .ptParity).log w .ptParity 0 (stage + node * 16) entry 0).parityHit w e
  s.portAct f s.ports[f.port].cls.noMatchAct 6

/-- A policy carried out (R94, R95). -/
def State.policyOut (s : State) (f : GFrame) (pol : Policy) : State :=
  let w := portWing f.port
  let f := if pol.classOvr then { f with cls := pol.cls } else f
  match pol.action with
  | 0 =>
    if pol.group then
      let m := portIx f.port
      if s.bad (.group w pol.target m) then s.trieParity f (.group w pol.target m) 15 pol.target m
      else match (s.wing w).trie.cur.member pol.target m with
        | 0xFFFFF => s.noSa f
        | sai => s.outUnder f sai
    else s.outUnder f pol.target
  | 1 => s.admitOut f none
  | 2 => s.countPort f.port .policyDiscard
  | _ => s.portAct { f with tag := pol.tag } 1 5

/-- Outbound selection (R85, R87, R90). -/
def State.selectFrame (s : State) (f : GFrame) : State :=
  let w := portWing f.port
  let c := s.ports[f.port].cls
  if f.saiIn ≠ 0xFFFFF then s.outUnder f f.saiIn
  else match outKey c.outKey (s.wing w).meshEtype f.bytes with
    | none => (s.countPort f.port .noKey).portAct f c.noKeyAct 7
    | some key => match s.trieLook w key with
      | .policy pol => s.policyOut f pol
      | .miss => (s.countPort f.port .noMatch).portAct f c.noMatchAct 6
      | .parity t n e => s.trieParity f (.trie w t n e) t n e

/-- The curtain of a frame on HS_I, which stands whatever becomes of the frame (R163). -/
def State.placeCurtain (s : State) (p : Fin 64) (curtain : Bool) : State :=
  if curtain then s.modPort p fun x => { x with barrier := x.nextId } else s

/-! ## Release (R133, R135, R136, R161 to R163) -/

/-- Whether an earlier frame must leave before a staged frame: of its own SA, before its curtain, or on an ordered port. -/
def State.outBehind (s : State) (p : Fin 64) (f : OutFrame) : Bool :=
  let x := s.ports[p]
  x.staging.any (fun g => decide (g.id < f.id ∧ (g.id < f.barrier ∨ x.sp.ordered = true)))
    || (match f.sai with
      | some a => (s.saQueue (portWing p) a).any fun g => g.seq < f.seq
      | none => false)

/-- Whether nothing but its class holds a staged frame: no hold, its launch time reached, its lane work done, no earlier
frame before it. -/
def State.outReady (s : State) (p : Fin 64) (f : OutFrame) : Bool :=
  let x := s.ports[p]
  !x.hold && (f.ltime.all fun t => decide (t ≤ (s.wing (portWing p)).prm.t))
    && (f.sai.isNone || f.ks.isSome) && s.itemDone (.out p f.id) && !s.outBehind p f

/-- Whether an SA may bind its present number. -/
def Sa.canBind (x : Sa) : Bool :=
  !x.switched && !x.exhausted && (!x.r.groupPn || decide (x.pn < x.leaseEnd))

/-- Whether the SA of a staged frame keeps it from leaving: its record is not resident, or it binds no number now. -/
def State.outStuck (s : State) (p : Fin 64) (f : OutFrame) : Bool :=
  (f.sai.bind (s.sa (portWing p))).any fun x => !x.gone && (!x.resident || !x.canBind)

/-- Whether a staged frame may be presented now: a Lead frame that can leave goes ahead of the others (R134). -/
def State.mayRelease (s : State) (p : Fin 64) (f : OutFrame) : Bool :=
  s.outReady p f && (f.lead || !(s.ports[p].staging.any fun g => g.lead && s.outReady p g && !s.outStuck p g))

/-- Whether the release of a staged frame is held by one of the reasons that R165 leaves out of its latency. -/
def State.heldOut (s : State) (p : Fin 64) (f : OutFrame) : Bool :=
  let x := s.ports[p]
  let w := portWing p
  let len := match f.sai.bind (s.sa w) with
    | some y => (outForm y.r (s.wing w).meshEtype y.pn f.bytes).elim f.bytes.length Sealing.length
    | none => f.bytes.length
  x.hold || decide (x.lsOCred < cells len) || (f.ltime.any fun t => decide ((s.wing w).prm.t < t))
    || (x.staging.any fun g => g.id < f.id ∧ g.id < f.barrier)
    || (f.sai.any fun a => (s.saQueue w a).any fun g => g.seq < f.seq ∧ !g.lead)

/-- Whether the delivery of an inbound frame is held by one of those reasons. -/
def State.heldIn (s : State) (p : Fin 64) (f : InFrame) : Bool :=
  let x := s.ports[p]
  let len := (f.sai.bind (s.sa (portWing p))).elim f.bytes.length fun y => cutLen y.r f.bytes
  !x.canDeliver len || x.inbound.any fun g => g.id < f.id ∧ g.sai = f.sai ∧ !g.lead

/-- The vault is asked for the next lease when 16,384 numbers remain; the next lease begins where the present one ends, and
a space that is spent is exhausted with it (R142, R143). -/
def State.leaseOn (s : State) (w : Wing) (sai : Nat) (p : Option (Fin 64)) : State :=
  match s.sa w sai with
  | some x =>
    if !x.r.groupPn then s
    else
      let s := if x.leaseEnd ≤ x.pn then
          match x.leaseNext with
          | some (a, b) => s.modSa w sai fun x => { x with pn := a, leaseEnd := b, leaseNext := none }
          | none => if x.leaseSpent ∧ !x.exhausted then s.exhaustSa w sai p else s
        else s
      match s.sa w sai with
      | some x =>
        if x.leaseEnd ≤ x.pn + 16384 ∧ x.leaseNext.isNone ∧ x.leaseAsk.isNone ∧ !x.leaseSpent ∧ x.st = .active then
          s.modSa w sai fun x => { x with leaseAsk := some s.rt }
        else s
      | none => s
  | none => s

/-- Binding the SA's number to a frame of a port (R133, R137, R138): PN advances, and the last number ends the SA. `thresh` is the
threshold that stands for the frame. -/
def State.bindPn (s : State) (w : Wing) (sai : Nat) (octets thresh : Nat) (p : Fin 64) : State :=
  match s.sa w sai with
  | some x =>
    let pn := x.pn
    let s := s.modSa w sai fun x => { x with pn := if x.pn < x.r.lastPn then x.pn + 1 else x.pn, used := s.rt }
    let s := ((s.countSa w sai .outFrames 1).countSa w sai .outOctets octets).checkThresh w sai pn thresh
    let s := s.useKey w x.r.keyLoc 1
    if pn = x.r.lastPn then s.exhaustSa w sai (some p) else s.leaseOn w sai (some p)
  | none => s

/-- Whether an SA meets condition 2 of R166; a bypassed frame needs none. -/
def State.saPinned (s : State) (w : Wing) (sai : Option Nat) : Bool :=
  sai.all fun a => (s.sa w a).any fun x => x.r.pin && x.resident

/-- Whether a port breaks condition 5 of R166: it is ordered, and not every frame admitted on it was Lead. -/
def Port.mixedOrder (x : Port) : Bool := x.sp.ordered && x.mixed

/-- Presenting a frame on LS_O. -/
def State.presentLs (s : State) (p : Fin 64) (f : OutFrame) (out : Bytes) (sai : Option Nat) (pn : Nat) : State :=
  let w := portWing p
  let lane := (List.finRange 28).find? fun l => s.lanes[l].items.any (·.of = .out p f.id)
  let s := s.modPort p fun x =>
    { x with lsOCred := x.lsOCred - cells out.length,
             lsOut := some { id := f.id, bytes := out, sai := sai, pn := pn, ts := s.now w, lane := lane, done := false } }
  let s := (s.rhlFrame p 3 out.length 0 [] out).ptpExport p false f.arr (s.now w) (s.residence w f.resIn) f.bytes
  let s := if f.lead ∧ 64 < s.rt - f.admRt then
      s.leadLate w 0 (s.leadCond w f.outside (s.saPinned w sai) false s.ports[p].mixedOrder f.wd)
    else s
  s.unstage p f.id

/-- The release of a staged frame that nothing holds (R133, R149). It waits while its SA's record is fetched (R122). After a
switch its threshold is that of the SA it has come to. A key that has reached its end ends the SA, and the frame stays staged (DESIGN
CHOICE, assumption 19). -/
def State.releaseOut (s : State) (p : Fin 64) (f : OutFrame) : State :=
  let w := portWing p
  let c := s.ports[p].ptp
  let resid := s.residence w f.resIn
  let bytes := ptpCorrect c true c.asym resid f.bytes
  match f.sai with
  | none => if s.ports[p].lsOCred < cells bytes.length then s else s.presentLs p f bytes none 0
  | some a => match s.sa w a with
    | none => (s.countPort p .noSa).unstage p f.id
    | some x =>
      if s.bad (.sa w a) ∨ x.gone then
        (s.readSa w a).unstage p f.id
      else if !x.resident ∨ !x.canBind then s
      else
        let (k, s) := s.saKey w x.r
        match k with
        | none => (s.countPort p .noSa).unstage p f.id
        | some k =>
          if k.ended s.rt then (s.spend w x.r.keyLoc).exhaustSa w a (some p)
          else match outForm x.r (s.wing w).meshEtype x.pn bytes with
            | none => (s.countPort p .saFormat).unstage p f.id
            | some form =>
              if 16383 < form.length then (s.countPort p .growthOversize).unstage p f.id
              else if s.ports[p].lsOCred < cells form.length then s
              else
                let out := sealFrame x.r k x.pn form
                let s := if f.ks = some (a, x.pn) then s else s.countSa w a .ksRecompute 1
                let s := s.presentLs p f out (some a) x.pn
                s.bindPn w a form.octets (if f.orig = some a then f.thresh else x.r.thresh) p

/-! ## Inbound (R99 to R101, R145, R146) -/

/-- Keeping an inbound frame until it is delivered, under its place in the port's order where it has one already. -/
def State.keepIn (s : State) (f : GFrame) (place : Option Nat) (g : InFrame) : State × Nat :=
  let id := place.getD s.ports[f.port].nextId
  (s.modPort f.port fun x => { x with inbound := x.inbound ++ [{ g with id := id }], nextId := max x.nextId (id + 1) }, id)

/-- An inbound frame that leaves unprotected. No SA or policy admitted it, so that the class it shows on HS_O is a free value
(R50, assumption 2). -/
def State.bypassIn (s : State) (f : GFrame) : State :=
  let cls := s.freeVal % 4
  let s := s.takeFree.modPort f.port fun x => { x with mixed := true }
  let g : InFrame := { id := 0, bytes := f.bytes, sai := none, pn := 0, cls := cls, kind := 2, held := false, arr := f.arr,
                       resIn := f.resIn, admRt := s.rt, asymIn := f.asymIn }
  (s.keepIn f none g).1

/-- The checks of a frame against its SA's record and window (R126, R129, R145), and its lane work. `start` is the RT at which
it was admitted and `act` its NO_SA_ACT. -/
def State.windowIn (s : State) (f : GFrame) (place : Option Nat) (start act sai : Nat) (x : Sa) : State :=
  let w := portWing f.port
  if !inHeaderOk x.r f.bytes then s.countSa w sai .sectagInvalid 1
  else match pnOf x.r x.pn f.bytes with
    | none => s.countPort f.port .sectagInvalid
    | some pn =>
      if x.r.isMacsec ∧ pn = 0 then s.countSa w sai .sectagInvalid 1
      else if !x.accepts pn then s.countSa w sai .replay 1
      else
        let s := s.modSa w sai fun x => { (if x.r.replay then x.markPending pn else x) with used := s.rt }
        let cost := inSlots x.r f.bytes
        let (lane, s) := s.leadAdmit w x.r.cls cost
        let g : InFrame := { id := 0, bytes := f.bytes, sai := some sai, pn := pn, cls := x.r.cls, kind := 0,
                             held := x.r.holdVerify || x.r.isEsp, arr := f.arr, resIn := f.resIn, admRt := start,
                             asymIn := f.asymIn, lead := decide (lane = 0), noSaAct := act, thresh := x.r.thresh,
                             window := x.r.window,
                             outside := decide (lane = 0) && s.leadOutside w }
        let (s, id) := s.keepIn f place g
        let s := s.modPort f.port fun y => { y with lsLead := g.lead, mixed := y.mixed || !g.lead }
        s.admitItem w (.inb f.port id) (.sa sai) lane cost

/-- The SA that serves an inbound frame: installed, inbound, enabled for the port, ACTIVE and good (R86, R146). -/
def State.selectIn (s : State) (w : Wing) (p : Fin 64) (sai : Nat) : Option Sa :=
  match s.sa w sai with
  | some x =>
    if x.r.inb ∧ x.r.portEn.testBit (portIx p) ∧ !s.bad (.sa w sai) ∧ x.st = .active ∧ x.present then some x else none
  | none => none

/-- An inbound frame under the SA that the Box Office gives; it waits while the record is fetched (R122). -/
def State.inUnder (s : State) (f : GFrame) (sai : Nat) : State :=
  let w := portWing f.port
  let f := { f with sai := sai }
  let s := s.readSa w sai
  match s.selectIn w f.port sai with
  | none => s.noSa f
  | some x =>
    let (k, s) := s.saKey w x.r
    match k with
    | none => s.noSa f
    | some k =>
      if k.ended s.rt then ((s.spend w x.r.keyLoc).startSaClose w sai).noSa f
      else if x.resident then s.windowIn f none s.rt s.ports[f.port].cls.noSaAct sai x
      else
        let g : InFrame := { id := 0, bytes := f.bytes, sai := some sai, pn := 0, cls := x.r.cls, kind := 0,
                             held := x.r.holdVerify || x.r.isEsp, arr := f.arr, resIn := f.resIn, admRt := s.rt,
                             asymIn := f.asymIn, wait := true, noSaAct := s.ports[f.port].cls.noSaAct, thresh := x.r.thresh,
                             window := x.r.window }
        (s.keepIn f none g).1

/-- A sender's entry found in the Box Office (R101, R109). -/
def State.boxHit (s : State) (f : GFrame) (ktype an slot : Nat) (e : BoxEnt) : State :=
  let w := portWing f.port
  if e.state = 2 then
    if e.lock ∧ e.port ≠ portIx f.port then
      let s := s.countPort f.port .portMismatch
      let s := if e.conflict then s
        else (s.modBox w fun b => { b with slots := tmod b.slots slot fun e => { e with conflict := true } }).log w
          .portMismatch f.port.val (locator slot) e.port 0
      s.toGrq w { f with reason := 4 }
    else s.inUnder f (if ktype = 1 then e.sai / 4 * 4 + an else e.sai)
  else if e.state = 3 then s.countPort f.port .blocked
  else if e.port = portIx f.port then s.toGrq w { f with reason := 1 }
  else (s.stationConflict w f.port slot e f.arr).toGrq w { f with reason := 3 }

/-- Inbound selection (R99 to R101). -/
def State.takeIn (s : State) (f : GFrame) : State :=
  let w := portWing f.port
  let c := s.ports[f.port].cls
  match senderOf c (s.wing w).meshEtype f.bytes with
  | .sectag => s.countPort f.port .sectagInvalid
  | .fragment => s.countPort f.port .fragment
  | .notSecured =>
    let s := s.countPort f.port .notSecured
    if (c.eapolBypass ∧ etype f.bytes = some 0x888E) ∨ c.nosecAct = 2 then s.bypassIn f else s.portAct f c.nosecAct 9
  | .key kt key an =>
    let s := s.boxParity w f.port kt key
    match s.boxFind w kt key with
    | some (slot, e) => s.boxHit f kt an slot e
    | none =>
      if c.learnEn then s.modBox w fun b => { b with reqs := b.reqs ++ [.learned kt key c f] }
      else s.toGrq w { f with reason := 2 }

/-- The carrier of an inbound frame as it arrives. -/
def State.inCarrier (s : State) (p : Fin 64) (bytes : Bytes) : GFrame :=
  let w := portWing p
  { handle := 0, reason := 0, inb := true, port := p, cls := 0, bytes := bytes, sai := 0xFFFFF, tag := 0, arr := s.now w,
    queue := 0, resIn := (s.wing w).prm.resid, asymIn := s.ports[p].ptp.asym }

/-- One learned insertion at the arbiter, under the profile that its frame was admitted with (R84): it merges, is refused for
LEARN_LIMIT, is placed or fails (R105, R109). -/
def State.boxLearn (s : State) (w : Wing) (kt : Nat) (key : Bytes) (c : PortCls) (f : GFrame) : State :=
  match s.boxFind w kt key with
  | some (slot, e) =>
    if e.state = 1 ∧ e.port ≠ portIx f.port then (s.stationConflict w f.port slot e f.arr).toGrq w { f with reason := 3 }
    else s.toGrq w { f with reason := 1 }
  | none =>
    if c.learnLimit ≤ (s.wing w).box.unkeyed (portIx f.port) then s.toGrq w { f with reason := 0xB }
    else
      let e : BoxEnt := { ktype := kt, state := 1, port := portIx f.port, lock := c.lockNew, learned := true,
                          key := padTo 20 key, at' := s.rt }
      match s.boxPlace w e with
      | (some slot, s) =>
        let s := if c.learnLog then s.log w .learned f.port.val (locator slot) (leNat (key.take 4))
          (leNat ((key.drop 4).take 4)) else s
        s.toGrq w { f with reason := 1 }
      | (none, s) => (s.countPort f.port .insertFail).toGrq w { f with reason := 0xA }

/-- A commanded insertion at the arbiter: an existing key is rewritten (R105, R108). -/
def State.boxInstall (s : State) (w : Wing) (e : BoxEnt) : Option Nat × State :=
  match s.boxFind w e.ktype e.key with
  | some (slot, old) => (some slot, s.boxPut w slot { e with gen := old.gen, at' := old.at' })
  | none => s.boxPlace w { e with at' := s.rt }

/-! ## Delivery (R145, R146) -/

/-- An inbound SA whose key has reached its end closes (R255). -/
def State.useIn (s : State) (w : Wing) (sai : Nat) (r : SaRec) : State :=
  let s := s.useKey w r.keyLoc 1
  if (s.vlt.keyAt r.keyLoc).any fun k => k.ended s.rt then s.startSaClose w sai else s

/-- The first frame verified under an SA starts the overlap of the inbound SAs that name it as next (R141). -/
def State.overlapOn (s : State) (w : Wing) (sai : Nat) : State :=
  s.modWing w fun x => { x with sas := x.sas.map fun e =>
    if e.2.r.inb ∧ e.2.r.nextValid ∧ e.2.r.nextSai = sai ∧ e.2.r.overlapMs ≠ 0 ∧ e.2.overlapAt.isNone
    then (e.1, { e.2 with overlapAt := some s.rt }) else e }

/-- A verified number: received, and against the threshold (R137, R145). -/
def State.verified (s : State) (w : Wing) (sai pn thresh : Nat) : State :=
  ((s.modSa w sai fun x => x.markReceived pn).checkThresh w sai pn thresh).overlapOn w sai

/-- A Lead frame's SOF beat on HS_O, timed against its bound (R165, R169). -/
def State.timeIn (s : State) (p : Fin 64) (f : InFrame) : State :=
  let w := portWing p
  if f.lead ∧ 72 < s.rt - f.admRt then
    s.leadLate w 1 (s.leadCond w f.outside (s.saPinned w f.sai) false s.ports[p].mixedOrder f.wd)
  else s

/-- The SOF beat of a frame whose delivery begins at this edge. -/
def State.sofNow (s : State) (w : Wing) : Sof := { ts := s.now w, resid := (s.wing w).prm.resid }

/-- The cut-through delivery of an inbound frame begins: its SOF beat takes the receiver's cells and the egress stamp
(R146, R316). -/
def State.beginIn (s : State) (p : Fin 64) (f : InFrame) : State :=
  let w := portWing p
  let len := (f.sai.bind (s.sa w)).elim f.bytes.length fun x => cutLen x.r f.bytes
  (s.modPort p fun x =>
    { x with hsOCred := x.hsOCred - cells len,
             inbound := x.inbound.map fun g => if g.id = f.id then { g with began := some (s.sofNow w) } else g }).timeIn p f

/-- The next cut-through delivery of a port begins where it may. -/
def State.beginPort (s : State) (p : Fin 64) : State :=
  match s.ports[p].inbound.find? (s.mayBegin p) with
  | some f => s.beginIn p f
  | none => s

/-- Delivering an inbound frame with its correctionField (R318, R319) and its export record, both by the edge of its SOF beat
(R316). -/
def State.deliverIn (s : State) (p : Fin 64) (f : InFrame) (bytes : Bytes) (status : Nat) : State :=
  let w := portWing p
  let sof := f.began.getD (s.sofNow w)
  let resid := (sof.resid - f.resIn) / 2 ^ 16
  let out := ptpCorrect s.ports[p].ptp false f.asymIn resid bytes
  let s := (s.deliver p f.began out (f.sai.getD 0xFFFFF) f.cls status).ptpExport p true f.arr sof.ts resid bytes
  let s := if f.began.isSome then s else s.timeIn p f
  s.unInbound p f.id

/-! ## Frames released from the Green Room (R115, R134) -/

/-- Whether a port's staging has room for a frame released from the Green Room, beside the credits its senders hold. -/
def State.readmitFits (s : State) (f : GFrame) : Bool :=
  let x := s.ports[f.port]
  decide (x.staged + f.bytes.length + 64 * (x.hsIHeld + x.lsIHeld) ≤ 65536) && (!f.inb || decide (x.inBytes + f.bytes.length ≤ 16384))

/-- The oldest frame released from the Green Room on a port is looked up or admitted again once staging has room for it
(DESIGN CHOICE, assumption 17). -/
def State.readmit (s : State) (p : Fin 64) : State :=
  match s.ports[p].readmit with
  | [] => s
  | f :: rest =>
    if s.readmitFits f then
      let s := s.modPort p fun x => { x with readmit := rest }
      if f.inb then s.takeIn f else s.selectFrame f
    else s

/-- The tag check of an inbound frame (R145, R146). -/
def State.checkIn (s : State) (p : Fin 64) (f : InFrame) : State :=
  let w := portWing p
  match f.sai with
  | none => if s.ports[p].mayDeliver f f.bytes.length then s.deliverIn p f f.bytes 2 else s
  | some a => match s.sa w a with
    | none => s.unInbound p f.id
    | some x =>
      let (k, s) := s.saKey w x.r
      match k with
      | none => ((s.unpend p f).countPort p .noSa).unInbound p f.id
      | some k => match openFrame x.r k f.pn f.bytes with
        | .badTag =>
          if f.held then (((s.unpend p f).countSa w a .badTag 1).useIn w a x.r).unInbound p f.id
          else
            let out := openedBytes x.r k f.pn f.bytes
            if s.ports[p].mayDeliver f out.length then
              (((s.unpend p f).countSa w a .badTag 1).useIn w a x.r).deliverIn p f out 1
            else s
        | .padError => (((s.verified w a f.pn f.thresh).countSa w a .padError 1).useIn w a x.r).unInbound p f.id
        | .nextHdr => (((s.verified w a f.pn f.thresh).countSa w a .espNextHdr 1).useIn w a x.r).unInbound p f.id
        | .ok bytes octets =>
          if s.ports[p].mayDeliver f bytes.length then
            ((((s.verified w a f.pn f.thresh).countSa w a .inOk 1).countSa w a .inOctets octets).useIn w a x.r).deliverIn p f bytes 0
          else s

end Sys2Proof.Machine
end

