-- ==== Sys2Proof/Machine/PromptOps.lean ====
section
/-! DEFINITION. Prompt: its advance (R311, R312), steps (R313, R314) and cues (R323, R324). -/

namespace Sys2Proof.Machine

/-- Changing a wing's Prompt. -/
def State.modPrm (s : State) (w : Wing) (f : Prompt → Prompt) : State := s.modWing w fun x => { x with prm := f x.prm }

/-- Units of 2^-32 ns in `ns` nanoseconds at a rate offset in units of 10^-12. -/
def atRate (ns : Nat) (den : Nat) (rate : Int) : Nat :=
  (((ns * 2 ^ 32 : Nat) : Int) * (1000000000000 + rate) / ((den * 1000000000000 : Nat) : Int)).toNat

/-- One nanosecond of RT for a wing's Prompt: from RT_OSC in UNSET; from the edges of TOD_x_CLK at R in LOCKED and at F
in HOLDOVER; from RT_OSC scaled by the last ratio where that clock is lost (R311, R312). The residence counter takes
F alone (R318). `live` says that the wing's time-of-day inputs are present (R48); their clock's edges are counted for the spacing
of R73 and the loss of R312. -/
def Prompt.tick (p : Prompt) (sr live : Bool) (rt : Nat) : Prompt :=
  let edge := live && Config.todEdge sr rt
  let p := if edge then { p with edges := p.edges + 1, edgeRt := rt } else p
  let move (p : Prompt) (ns den : Nat) (rate resid : Int) : Prompt :=
    { p with t := p.t + atRate ns den rate, resid := p.resid + (atRate ns den resid : Nat) }
  match p.st with
  | .unset => move p 1 1 0 0
  | .locked => if edge then move p 1000000000 (max p.cfg.clkHz 1) p.r p.f else p
  | .holdover =>
    if p.clkLost then
      let rate := p.f + p.ratio + p.f * p.ratio / 1000000000000
      move p 1 1 rate rate
    else if edge then move p 1000000000 (max p.cfg.clkHz 1) p.f p.f
    else p

/-! ## Cues (R321, R323, R324) -/

/-- The asymmetry changes that wait for a cue take effect (R321). -/
def State.asymFire (s : State) (c : Fin 16) : State :=
  (wingPorts (cueWing c)).foldl (fun s p => s.modPort p fun x =>
    if x.ptp.asymPending ∧ x.ptp.asymTout = c.val % 8 then
      { x with ptp := { x.ptp with asym := x.ptp.asymNext, asymPending := false } }
    else x) s

/-- A cue fires: its pulse begins, a one-shot ends in OFF, a periodic cue goes on to its next time. -/
def State.fireCue (s : State) (c : Fin 16) : State :=
  let s := s.modCue c fun x =>
    { x with pulse := some (s.rt + x.widthNs), pulsePol := x.polarity, pulseEn := x.outEn,
             mode := if x.mode = 1 then 0 else x.mode,
             next := if x.mode = 2 then x.next.map (· + x.periodNs * 2 ^ 32) else none }
  s.asymFire c

/-- The cues of a wing. -/
def wingCues (w : Wing) : List (Fin 16) := (List.finRange 16).filter fun c => cueWing c = w

/-- The first firing time START + k × PERIOD_NS at or after `t`. -/
def firstFiring (start period t : Nat) : Nat :=
  if t ≤ start then start else start + (t - start + period * 2 ^ 32 - 1) / (period * 2 ^ 32) * (period * 2 ^ 32)

/-- The effect of a step from `old` to the present time on one cue (R314, R324). -/
def State.stepCue (s : State) (w : Wing) (old : Nat) (c : Fin 16) : State :=
  let x := s.cues[c]
  let now := (s.wing w).prm.t
  if x.mode = 1 then
    match x.next with
    | some n =>
      if n < now then
        let s := s.log w .toutLate c.val 0 0 0
        if x.pulse.isNone then s.fireCue c else s
      else s
    | none => s
  else if x.mode = 2 then
    let per := x.periodNs * 2 ^ 32
    let next := firstFiring (tsTime x.start) x.periodNs (now + 1)
    let was := x.next.getD next
    let skipped := if old < now ∧ was ≤ now then (now - was) / per + 1 else 0
    let s := s.modCue c fun x => { x with next := some next }
    s.modWing w fun y => { y with cnt := bumpAt y.cnt WCnt.toutSkipped.ix skipped }
  else s

/-! ## Steps (R313, R314) -/

/-- The vault keeps RT where it has run on since a start-up took it up (R307), and, while Prompt runs, the later of the two epochs
(R13, R308). -/
def State.copyRt (s : State) : State :=
  s.modVlt fun v =>
    { v with rtCopy := if v.rtLive then v.rt else v.rtCopy, vtCopy := if v.rtLive then v.vtimer else v.vtCopy,
             epochCopy := if s.boot.phase = .off then v.epochCopy else laterEpoch s.sl.prm.epoch s.sr.prm.epoch }

/-- The epoch of a wing's Prompt has changed: the launch-time frames that waited are discarded (R135, R149). -/
def State.dropOldEpoch (s : State) (w : Wing) : State :=
  let epoch := (s.wing w).prm.epoch
  (wingPorts w).foldl (fun s q =>
    (s.ports[q].staging.filter fun f => f.ltime.isSome ∧ f.epoch ≠ epoch).foldl (fun s f => s.discardOut q f .lateEpoch) s) s

/-- A step of a wing's Prompt to a new time: PRM_STEP, the epoch retained, waiting launch-time frames discarded, cues
fired late or re-phased. -/
def State.stepPrompt (s : State) (w : Wing) (t : Nat) : State :=
  let p := (s.wing w).prm
  let old := tsOf p.t p.epoch
  let s := s.modPrm w fun p => { p with t := t, epoch := (p.epoch + 1) % 2 ^ 16, skipF := true }
  let s := s.copyRt
  let s := s.log w .prmStep 0 old.ns (old.sec % 2 ^ 32) ((old.sec >>> 32) % 2 ^ 16 + old.frac * 2 ^ 16)
  let s := s.dropOldEpoch w
  (wingCues w).foldl (fun s c => s.stepCue w p.t c) s

/-- A SET_OFFSET step when it becomes visible; it is no part of the time since the last used edge (R311). A time below 0 is a free
value. -/
def State.setOffset (s : State) (w : Wing) (ns : Int) (frac : Nat) : State :=
  let p := (s.wing w).prm
  let t : Int := (p.t : Int) + ns * 2 ^ 32 + frac * 2 ^ 16
  if p.st = .unset then s
  else
    let new := if t < 0 then s.freeVal else t.toNat
    let s := (if t < 0 then s.takeFree else s).stepPrompt w new
    s.modPrm w fun q => { q with usedT := p.usedT.map fun u => u + ((new : Int) - (p.t : Int)) }

/-- A TOUT_CFG is within the restrictions of R323. -/
def Cue.okCfg (t : Cue) : Bool :=
  decide (t.mode ≤ 2 ∧ 10 ≤ t.widthNs ∧ t.widthNs ≤ 1000000000 ∧ t.start.ns < 1000000000)
    && (if t.mode = 2 then decide (1000 ≤ t.periodNs ∧ t.periodNs ≤ 1000000000000 ∧ t.widthNs < t.periodNs)
        else decide (t.periodNs = 0))

/-- The status that a TOUT_CFG write ends in (R323). -/
def State.cueStatus (s : State) (w : Wing) (c : Fin 16) (t : Cue) : Status :=
  let p := (s.wing w).prm
  if !(t.okCfg && decide (cueWing c = w)) then .toutInvalid
  else if p.st = .unset then .prmUnset
  else if t.start.epoch ≠ p.epoch then .toutEpoch
  else if t.mode = 1 ∧ tsTime t.start < p.t then .toutPast
  else .ok

/-- A TOUT_CFG when it becomes visible: a pulse in progress goes on, and a cue whose epoch or START then no longer fits
keeps its setting. -/
def State.setCue (s : State) (c : Fin 16) (t : Cue) : State :=
  let w := cueWing c
  if s.cueStatus w c t = .ok then
    let start := tsTime t.start
    let next := if t.mode = 1 then some start
      else if t.mode = 2 then some (firstFiring start t.periodNs (s.wing w).prm.t) else none
    s.modCue c fun x =>
      { x with mode := t.mode, polarity := t.polarity, outEn := t.outEn, widthNs := t.widthNs,
               periodNs := t.periodNs, start := t.start, next := next }
  else s

/-- The level that a cue drives on its pin (R74, R323). -/
def Cue.pin (x : Cue) : Bool :=
  match x.pulse with
  | some _ => if x.pulseEn then !x.pulsePol else false
  | none => x.outEn && x.polarity

end Sys2Proof.Machine
end

