-- ==== Sys2Proof/Machine/UsherOps.lean ====
section
/-! DEFINITION. The Usher: MG_MAP, the check of a line (R223), refusals (R232, R233), parity (R234), staging and
commits (R228 to R230). -/

namespace Sys2Proof.Machine

/-- The bank in force: the generation modulo 2 (DEDUCED: each commit switches banks, R229). -/
def Usher.bank (u : Usher) : Bool := u.gen % 2 = 1

/-- An MG_MAP entry of a set. -/
def USet.master (u : USet) (mid : Nat) : MgEnt := (tget u.mg mid).getD {}

/-- The MG_MAP entry in force for a master; one that fails parity reads as VALID = 0 (R234). -/
def State.master (s : State) (w : Wing) (mid : Nat) : MgEnt :=
  let u := (s.wing w).ush
  if s.bad (.mg w u.bank mid) then { valid := false } else u.force.master mid

/-- The region that covers an address, as a wing finds it (R174): a descriptor that fails parity is absent (R36). -/
def State.regionAt (s : State) (w : Wing) (addr : Nat) : Option (Fin 64) :=
  (List.finRange 64).find? fun r =>
    let x := s.regions[r]
    x.st ≠ .notInstalled ∧ x.d.base ≤ addr ∧ addr ≤ x.d.last ∧ !s.bad (.region w r.val)

/-- What the check of a line comes to (R223, R224): the key granted and the class floor, or the cause, the refusing
rule, whether it is a default entry, and for OVERLAP the second rule. -/
inductive UDec where
  | grant (key : Option Nat) (floor : Nat)
  | refuse (cause : Nat) (rule : Option Nat) (dflt : Bool) (rule2 : Nat)
deriving DecidableEq, Repr

/-- The tests that follow a match, in the order of R223. -/
def usherRule (r : URule) (ix : Nat) (dflt : Bool) (m : MgEnt) (lc : Nat) (world write : Bool) (kix : Nat)
    (inactive : Bool) : UDec :=
  if (if world then !r.world1 else !r.world0) then .refuse 4 (some ix) dflt 0
  else if (if write then !r.write else !r.read) then .refuse 5 (some ix) dflt 0
  else if m.debug ∧ lc = 4 ∧ !r.debugOk then .refuse 6 (some ix) dflt 0
  else if r.defOnly ∧ kix ≠ 0 ∧ kix ≠ r.defKix then .refuse 7 (some ix) dflt 0
  else if inactive then .refuse 8 (some ix) dflt 0
  else .grant (if kix ≠ 0 then some kix else if r.kixValid then some r.defKix else none) r.floor

/-- The check of one line against a set; `bad` and `badD` say which rules and default entries fail parity (R234). -/
def usherLine (u : USet) (bad badD : Nat → Bool) (m : MgEnt) (lc : Nat) (world write : Bool) (kix addr : Nat)
    (inactive : Bool) : UDec :=
  if !m.valid then .refuse 1 none false 0
  else
    let covers (r : URule) : Bool := decide (r.valid = true ∧ r.start ≤ addr ∧ addr ≤ r.last)
    let hits := (u.rules.filter fun e => covers e.2 ∧ e.2.groups.testBit m.group ∧ !bad e.1).reverse
    match hits with
    | [] =>
      if !m.priv then .refuse 2 none false 0
      else match (u.defs.filter fun e => covers e.2 ∧ !badD e.1).reverse with
        | [] => .refuse 2 none false 0
        | (ix, r) :: _ => usherRule r ix true m lc world write kix inactive
    | (ix, r) :: more =>
      match more with
      | (ix2, _) :: _ =>
        if u.service then .refuse 3 (some ix) false ix2 else usherRule r ix false m lc world write kix inactive
      | [] => usherRule r ix false m lc world write kix inactive

/-- A bad entry that a check reads is logged at most once until the next commit (R234). -/
def State.logUsher (s : State) (w : Wing) (kind ix : Nat) (e : Ent) (bank : Bool := (s.wing w).ush.bank) : State :=
  let u := (s.wing w).ush
  let id := kind * 256 + ix + (if bank = u.bank then 0 else 1024)
  if u.parLogged.contains id then s
  else
    let s := s.modWing w fun x => { x with ush := { x.ush with parLogged := x.ush.parLogged ++ [id] } }
    ((s.log w .ushParity 0 (b2n bank + kind * 2) ix 0).countWing w .ushParity).parityHit w e

/-- The check of a request reads the MG_MAP entry of its master. -/
def State.mgParity (s : State) (w : Wing) (mid : Nat) : State :=
  let e : Ent := .mg w (s.wing w).ush.bank mid
  if s.bad e then s.logUsher w 2 mid e else s

/-- The check of lines reads the rules, for a master that is VALID, and the default map where no good rule covers a line and
the master is privileged (R223). -/
def State.usherParity (s : State) (w : Wing) (mid : Nat) (addrs : List Nat) : State :=
  let u := (s.wing w).ush
  let m := s.master w mid
  let hit (a : Nat) : Bool := u.force.rules.any fun e =>
    e.2.valid && decide (e.2.start ≤ a ∧ a ≤ e.2.last) && e.2.groups.testBit m.group && !s.bad (.rule w u.bank e.1)
  let dflt := m.priv && addrs.any fun a => !hit a
  if !m.valid then s
  else s.upsets.foldl (fun s e => match e with
    | .rule w' b ix => if w' = w ∧ b = u.bank then s.logUsher w 0 ix e else s
    | .dflt w' b ix => if w' = w ∧ b = u.bank ∧ dflt then s.logUsher w 1 ix e else s
    | _ => s) s

/-- Region descriptors that cover a line looked up and fail parity are reported (R36, R42). -/
def State.regionParity (s : State) (w : Wing) (addrs : List Nat) : State :=
  (List.finRange 64).foldl (fun (s : State) (r : Fin 64) =>
    let x := s.regions[r]
    if s.bad (.region w r.val) ∧ x.st ≠ .notInstalled ∧ (addrs.any fun a => x.d.base ≤ a ∧ a ≤ x.d.last) then
      (s.logEntry w 1 r.val).parityHit w (.region w r.val) else s) s

/-- The count of a refusal cause (R234). -/
def ushCnt : Nat → WCnt
  | 1 => .ush1
  | 2 => .ush2
  | 3 => .ush3
  | 4 => .ush4
  | 5 => .ush5
  | 6 => .ush6
  | 7 => .ush7
  | _ => .ush8

/-- A refusal: its count, the ACCESS cause, and its USH_FAULT event, at most 256 in any millisecond (R232, R233). The millisecond of
refusals without an event ends one after the oldest event that stood in their way, and not within one of the last summary
(DESIGN CHOICE, assumption 28). -/
def State.ushRefuse (s : State) (w : Wing) (q : Fin 4) (mid op : Nat) (world : Bool) (kix addr refused : Nat)
    (d : UDec) : State :=
  match d with
  | .grant _ _ => s
  | .refuse cause rule dflt rule2 =>
    let s := (s.countWing w (ushCnt cause)).raiseAlarm .access
    let u := (s.wing w).ush
    let recent := u.faults.filter fun t => s.rt < t + 1000000
    if recent.length < 256 then
      let s := s.modWing w fun x => { x with ush := { x.ush with faults := recent ++ [s.rt] } }
      s.logWords w ([wd (Ev.code .ushFault + cause * 2 ^ 8 + q.val * 2 ^ 12 + b2n world * 2 ^ 14 + op * 2 ^ 15 + mid * 2 ^ 17),
        wd addr, wd (addr / 2 ^ 32 % 256 + refused * 2 ^ 8 + u.gen * 2 ^ 16),
        wd (rule.getD 0 + b2n rule.isSome * 2 ^ 7 + b2n dflt * 2 ^ 8 + rule2 * 2 ^ 9 + kix * 2 ^ 16)]
        ++ tsWords (s.now w))
    else
      let due := max (recent.headD 0 + 1000000) u.msEnd
      (s.modWing w fun x => { x with ush :=
        { x.ush with faults := recent, msEnd := if u.msDropped = 0 then due else u.msEnd, msDropped := u.msDropped + 1 } }).countWing
        w .ushFaultDropped

/-- The check of an access's lines in address order: each line's decision. -/
def State.usherLines (s : State) (w : Wing) (mid : Nat) (world write : Bool) (kix : Nat) (addrs : List Nat) : List UDec :=
  let u := (s.wing w).ush
  let m := s.master w mid
  addrs.map fun a =>
    let inactive := match s.regionAt w a with
      | some r => s.regions[r].st ≠ .active
      | none => false
    usherLine u.force (fun i => s.bad (.rule w u.bank i)) (fun i => s.bad (.dflt w u.bank i)) m s.vlt.lcCode world
      write kix a inactive

/-! ## Staging and commits (R228, R229) -/

/-- Writing entries of one table over another. -/
def overlay {α : Type} (base : Tbl α) (top : Tbl α) : Tbl α := top.foldl (fun t e => tput t e.1 e.2) base

/-- The set that a commit puts in force. -/
def Usher.staged (u : Usher) : USet :=
  { rules := overlay u.force.rules u.stRules, defs := overlay u.force.defs u.stDefs, mg := overlay u.force.mg u.stMg,
    service := u.stMode.getD u.force.service }

/-- Two rules of a set overlap (R227). -/
def rulesMeet (a b : URule) : Bool :=
  decide (a.valid = true ∧ b.valid = true ∧ a.start ≤ b.last ∧ b.start ≤ a.last ∧ a.groups &&& b.groups ≠ 0)

/-- The lowest-numbered pair of overlapping rules. -/
def overlapPair : Tbl URule → Option (Nat × Nat)
  | [] => none
  | (i, r) :: t => match t.find? fun e => rulesMeet r e.2 with
    | some e => some (i, e.1)
    | none => overlapPair t

/-- Discarding what is staged. -/
def Usher.discard (u : Usher) : Usher := { u with stRules := [], stDefs := [], stMg := [], stMode := none }

/-- The rules that the check of a commit reads and that fail parity: the staged ones in their bank, the others as they stand in the
bank in force (R228, R234). -/
def State.stagedBad (s : State) (w : Wing) : List (Nat × Bool) :=
  let u := (s.wing w).ush
  u.staged.rules.filterMap fun e =>
    let b := if (tget u.stRules e.1).isSome then !u.bank else u.bank
    if s.bad (.rule w b e.1) then some (e.1, b) else none

/-- The bank switch of a commit: entries not staged keep their parity state in the new bank, staged ones have their own, and bad
ones are logged once more (R229, R234). -/
def State.usherSwitch (s : State) (w : Wing) : State :=
  let u := (s.wing w).ush
  let b := u.bank
  let ups := s.upsets.flatMap fun e => match e with
    | .rule w' b' i => if w' = w then (if b' = b ∧ (tget u.stRules i).isNone then [e, .rule w (!b) i]
        else if b' = b ∨ (tget u.stRules i).isSome then [e] else []) else [e]
    | .dflt w' b' i => if w' = w then (if b' = b ∧ (tget u.stDefs i).isNone then [e, .dflt w (!b) i]
        else if b' = b ∨ (tget u.stDefs i).isSome then [e] else []) else [e]
    | .mg w' b' i => if w' = w then (if b' = b ∧ (tget u.stMg i).isNone then [e, .mg w (!b) i]
        else if b' = b ∨ (tget u.stMg i).isSome then [e] else []) else [e]
    | _ => [e]
  let s := { s with upsets := ups }
  let next (u : Usher) : Usher := { u.discard with
    force := u.staged, gen := (u.gen + 1) % 65536, hold := none, commitCh := none, drained := false, blocked := none,
    parLogged := [] }
  let s := s.modWing w fun x => { x with ush := next x.ush }
  s.countWing w .commits

/-- The comparison of MG_MAP with the other wing's (R217); an entry that fails parity is reported and reads as absent (R234). -/
def State.mgCompare (s : State) (w : Wing) : State :=
  if (s.wing w).link ≠ .joined then s
  else
    let s := s.eachWing fun s v => s.upsets.foldl (fun s e => match e with
      | .mg v' b ix => if v' = v ∧ b = (s.wing v).ush.bank then s.logUsher v 2 ix e else s
      | _ => s) s
    match (List.range 256).find? fun m => s.master w m ≠ s.master (otherWing w) m with
    | some m => s.log w .mgMismatch 0 m 0 0
    | none => s

end Sys2Proof.Machine
end

