-- ==== Sys2Proof/Machine/CurtainOps.lean ====
section
/-! DEFINITION. Staged effects and curtains (R372), and the answering of mailbox commands (R365). -/

namespace Sys2Proof.Machine

/-! ## Rehearsal starts and stops (R395, R396, R403, R405) -/

/-- Changing a wing's logger. -/
def State.modRhl (s : State) (w : Wing) (f : Rhl → Rhl) : State := s.modWing w fun x => { x with rhl := f x.rhl }

/-- Blocks of a wing's half of the spill region (R401). -/
def State.spillHalf (s : State) : Nat :=
  match s.spill with
  | some r => min ((s.regions[r].d.last + 1 - s.regions[r].d.base) / 2 / 4096) (2 ^ 31 / 4096)
  | none => 0

/-- Whether some stream or request port of a wing is open (R396). -/
def State.wingOpen (s : State) (w : Wing) : Bool :=
  ((List.finRange 64).any fun p => portWing p = w ∧ s.ports[p].st ≠ .closed)
    || (List.finRange 4).any fun q => rqpWing q = w ∧ s.rqps[q].st ≠ .closed

/-- Whether a RECORD log may start in a wing (R396). -/
def State.recordOk (s : State) (w : Wing) : Bool :=
  !s.wingOpen w && s.spill.any fun r => s.regions[r].st = .active

/-- Pieces of at most 244 bytes. -/
def snapPieces : Nat → Bytes → List Bytes
  | 0, _ => []
  | n + 1, b => if b.isEmpty then [] else b.take 244 :: snapPieces n (b.drop 244)

/-- The SNAP records of a snapshot (R396, R398): section by section, each piece in a record of at most 63 words. -/
def Rhl.putSnap (r : Rhl) (rt : Nat) (x : Snap) (digest : Bytes) : Rhl :=
  (List.range 8).foldl (fun r k =>
    let b := Config.snapBytes k x
    (snapPieces b.length b).foldl (fun r c => r.put rt 0x10 (leBytes 4 k) c (2 + (c.length + 3) / 4) digest) r) r

/-- Starting a log: any log held is discarded, a LOG_ID is drawn, and a RECORD log begins with its snapshot (R395,
R396, R399). -/
def State.startRhl (s : State) (w : Wing) (c : RhlCfg) : State :=
  let (id, s) := s.draw 8
  let c := if c.record then { c with headerBytes := 3, grants := true } else c
  let digest := s.stateDigest w (s.vlt.keys.rhlLog.getD [])
  s.modRhl w fun r =>
    let x : Rhl :=
      { st := if c.record then .snapshot else .trace, cfg := c, held := true, logId := leNat id,
        cur := { seq := 0, rt0 := s.rt, before := 0 }, lastRt := s.rt, spillCap := s.spillHalf,
        targetDid := r.targetDid, targetReady := r.targetReady, wrap := r.wrap, image := (s.core (s.wing w).served).hash }
    if c.record then x.putSnap s.rt (s.snapshot w) digest else x

/-- Whether a wing's logger records now: it cannot be set then (R395). -/
def Rhl.busy (r : Rhl) : Bool := r.st = .trace ∨ r.st = .record ∨ r.st = .snapshot ∨ r.st = .replaying

/-- Whether a START still may take effect when it becomes visible (R270, R394 to R396): its LOG_ID needs the CTR_DRBG. -/
def State.startOk (s : State) (w : Wing) (c : RhlCfg) : Bool :=
  decide (s.vlt.lcCode = 5) && s.vlt.drbgOk && !(s.wing w).rhl.busy && (!c.record || s.recordOk w)

/-- STOP (R403): recording ends, the current block is closed, the log is kept. -/
def State.stopRhl (s : State) (w : Wing) : State :=
  s.modRhl w fun r =>
    if r.st = .trace ∨ r.st = .record then { r.closeBlock s.rt with st := .off, post := none }
    else if r.st = .snapshot ∨ r.st = .frozen then { r with st := .off, post := none } else r

/-- SET_TARGET (R405): the log key wrapped for the target under KT. While the logger records no setting changes (R395). -/
def State.targetRhl (s : State) (w : Wing) (did pub : Bytes) : State :=
  let v := s.vlt
  match v.keys.trans, v.keys.rhlLog with
  | some d, some k =>
    match (if ecOnCurve (ecPoint pub) then ecdh d (ecPoint pub) else none) with
    | some z =>
      let kt := (sha384 ([0, 0, 0, 1] ++ z ++ asciiBytes "RHLXPORT" ++ didBytes ++ did)).take 32
      s.modRhl w fun r => { r with targetDid := did, targetReady := true, wrap := kwWrap kt k }
    | none => s.modRhl w fun r => { r with targetDid := did, targetReady := false, wrap := [] }
  | _, _ => s.modRhl w fun r => { r with targetDid := did, targetReady := false, wrap := [] }

/-! ## Effects -/

/-- The setting that an effect writes in a wing, with nothing that follows from it: what a read on the same channel
sees (R372). -/
def State.putEff (s : State) (w : Wing) : Eff → State
  | .portCls p c => s.modPort p fun x => { x with cls := c }
  | .portSp p c => s.modPort p fun x => { x with sp := c }
  | .ptp p c => s.modPort p fun x => { x with ptp := { c with asym := x.ptp.asym } }
  | .mpTimeout m us => s.modMp m fun x => { x with timeout := us }
  | .closeTimeout w' region us => s.modWing w' fun x =>
      if region then { x with regTimeout := us } else { x with saTimeout := us }
  | .saInstall sai r pn => s.installSa w sai r pn
  | .saModify sai mask r pn => s.modSa w sai fun x => x.modify mask r pn
  | .meshEtype w' e => s.modWing w' fun x => { x with meshEtype := e }
  | .boxTtl w' t => s.modWing w' fun x => { x with unkeyedTtl := t }
  | .grqTimeout w' q us => s.modWing w' fun x => { x with grq := { x.grq with timeout := x.grq.timeout.set q us } }
  | .classCfg w' c => s.modWing w' fun x => { x with classCfg := c }
  | .prmCfg w' c => s.modPrm w' fun p => { p with cfg := c }
  | .setOffset w' ns frac => s.modPrm w' fun p => if p.st = .unset then p
      else { p with t := ((p.t : Int) + ns * 2 ^ 32 + frac * 2 ^ 16).toNat, epoch := (p.epoch + 1) % 2 ^ 16 }
  | .cue c t => s.modCue c fun x =>
      { x with mode := t.mode, polarity := t.polarity, outEn := t.outEn, widthNs := t.widthNs, periodNs := t.periodNs,
               start := t.start }
  | .wearCfg w' c => s.modWing w' fun x => { x with wearCfg := c }
  | .rhlStop _ => s
  | .rhlStart _ _ => s
  | .rhlTarget _ _ _ => s

/-- An install becoming visible where another channel has installed the SA meanwhile: the later prevails as a whole, and a close that
goes on, which takes effect at CLOSED, ends it in turn (R372). -/
def State.replaceSa (s : State) (w : Wing) (sai : Nat) (r : SaRec) (pn : Nat) : State :=
  match s.sa w sai with
  | some x => (s.installSa w sai r pn).modSa w sai fun y => if x.st = .closing then { y with st := .closing, closeAt := x.closeAt } else y
  | none => s.installSa w sai r pn

/-- An effect becoming visible in a wing. -/
def State.applyEff (s : State) (w : Wing) : Eff → State
  | .saInstall sai r pn => s.replaceSa w sai r pn
  | .saModify sai mask r pn => s.modifySa w sai mask r pn
  | .classCfg w' c =>
    let old := s.role
    (s.modWing w' fun x => { x with classCfg := c }).reassign old
  | .setOffset w' ns frac => s.setOffset w' ns frac
  | .cue c t => s.setCue c t
  | .rhlStop w' => s.stopRhl w'
  | .rhlStart w' c => if s.startOk w' c then s.startRhl w' c else s
  | .rhlTarget w' did pub => if (s.wing w').rhl.busy then s else s.targetRhl w' did pub
  | .portCls p c => s.putEff w (.portCls p c)
  | .portSp p c => s.putEff w (.portSp p c)
  | .ptp p c => s.putEff w (.ptp p c)
  | .mpTimeout m us => s.putEff w (.mpTimeout m us)
  | .closeTimeout w' region us => s.putEff w (.closeTimeout w' region us)
  | .meshEtype w' e => s.putEff w (.meshEtype w' e)
  | .boxTtl w' t => s.putEff w (.boxTtl w' t)
  | .grqTimeout w' q us => s.putEff w (.grqTimeout w' q us)
  | .prmCfg w' c => s.putEff w (.prmCfg w' c)
  | .wearCfg w' c => s.putEff w (.wearCfg w' c)

/-- The state as reads on a channel see it: staged values over those in force (R372). -/
def State.view (s : State) (ch : Fin 8) : State := s.chans[ch].staged.foldl (fun s e => s.putEff e.1 e.2) s

/-- Staging an effect for the wings it concerns. -/
def State.stage (s : State) (ch : Fin 8) (ws : List Wing) (e : Eff) : State :=
  s.modChan ch fun c => { c with staged := c.staged ++ ws.map fun w => (w, e) }

/-- A curtain on a channel: every effect staged on it becomes visible; during a partition, those of the serving wing
(R336, R372). -/
def State.curtain (s : State) (ch : Fin 8) : State :=
  let c := s.chans[ch]
  let covered (w : Wing) : Bool := w = c.mapWing ∨ (s.wing c.mapWing).link = .joined
  let s := s.modChan ch fun c => { c with staged := c.staged.filter fun e => !covered e.1 }
  (c.staged.filter fun e => covered e.1).foldl (fun s e => s.applyEff e.1 e.2) s

/-! ## Answering (R365, R369) -/

/-- The place of the command that a channel executes next or is executing. -/
def Chan.headIx (c : Chan) : Option Nat :=
  c.queue.findIdx? fun p => match p.phase with
    | .answered _ _ => false
    | _ => true

/-- The command that a channel executes next or is executing. -/
def Chan.head (c : Chan) : Option Place := c.headIx.bind fun i => c.queue[i]?

/-- Changing that command's place. -/
def State.modHead (s : State) (ch : Fin 8) (f : Place → Place) : State :=
  s.modChan ch fun c => match c.headIx with
    | some i => { c with queue := c.queue.modify i f }
    | none => c

/-- A new mapping of a channel takes effect once it has no command to answer (R328). -/
def State.settleMap (s : State) (ch : Fin 8) : State :=
  let c := s.chans[ch]
  match c.mapNext with
  | some w => if c.head.isNone then
      s.modChan ch fun c => { c with mapWing := w, served := (s.wing w).served, mapNext := none } else s
  | none => s

/-- Marking it answered, with a new mapping that waited for it, and nothing else that follows. -/
def State.rawReply (s : State) (ch : Fin 8) (st : Status) (payload : List Word) : State :=
  (s.modHead ch fun p => { p with phase := .answered st payload }).settleMap ch

/-- Marking it answered after its curtain. -/
def State.rawFinish (s : State) (ch : Fin 8) (st : Status) (payload : List Word) : State :=
  let s := match s.chans[ch].head with
    | some p => if bitOf (wordAt p.words 0) 10 then s.curtain ch else s
    | none => s
  s.rawReply ch st payload

/-- What the command of a channel waits for. -/
def Chan.waiting (c : Chan) : Option Wait :=
  c.head.bind fun p => match p.phase with
    | .running w => some w
    | _ => none

/-- The raw form of answering every command that a test of its wait picks. -/
def State.rawAnswer (s : State) (f : Wait → Bool) (st : Status) : State :=
  (List.finRange 8).foldl (fun s ch => if s.chans[ch].waiting.any f then s.rawFinish ch st [] else s) s

/-! ## Which core serves (R336, R337, R356, R358) -/

/-- Whether a core could serve a wing: it runs, and is neither struck, lost nor reloading. -/
def Core.able (c : Core) : Bool := c.running && !c.struck && !c.lost && !c.reloading

/-- A wing and its channels pass to a core. A core that serves again is no longer suspended. -/
def State.giveWing (s : State) (w : Wing) (c : CoreId) : State :=
  let s := s.modWing w fun x => { x with served := c, headless := false }
  let s := { s with chans := s.chans.map fun (x : Chan) => if x.mapWing = w then { x with served := c, closing := none } else x }
  s.modCore c fun x => { x with suspended := false }

/-- Every command that the channels of a wing hold is answered WING_UNREACHABLE (R336). -/
def State.refuseAll (s : State) (w : Wing) : State :=
  let s := { s with chans := s.chans.map fun (x : Chan) => if x.mapWing = w then
      { x with closing := none, queue := x.queue.map fun (p : Place) => match p.phase with
          | .answered _ _ => p
          | _ => { p with phase := .answered .wingUnreachable [] } }
    else x }
  (List.finRange 8).foldl State.settleMap s

/-- A wing that no core serves (R336). -/
def State.orphan (s : State) (w : Wing) : State := (s.modWing w fun x => { x with headless := true }).refuseAll w

/-- Each wing gets a core that can serve it, or is HEADLESS: while JOINED the core that serves it, else the other; in a
partition its own core alone. -/
def State.rehome (s : State) : State :=
  s.eachWing fun s w =>
    let x := s.wing w
    let own := homeCore w
    if x.link = .joined then
      if !x.headless ∧ (s.core x.served).able then s
      else if (s.core own).able then s.giveWing w own
      else if (s.core (otherCore own)).able then s.giveWing w (otherCore own)
      else s.orphan w
    else if x.served = own ∧ !x.headless ∧ (s.core own).able then s
    else if (s.core own).able then s.giveWing w own
    else s.orphan w

/-! ## Joining (R340) -/

/-- Both wings enter JOINED in one exchange: a curtain on every channel, lending and the comparison of MG_MAP resume,
heartbeats restart, and the commands that wait for it are answered. -/
def State.joinNow (s : State) : State :=
  let old := s.role
  let s := s.eachWing fun s w => s.modWing w fun x => { x with link := .joined, lastTok := s.rt, parTimes := [] }
  let s := s.eachWing fun s w => s.log w .linkState 0 0 0 0
  let s := (List.finRange 8).foldl State.curtain s
  let s := { s with cores := s.cores.map fun (c : Core) => { c with missed := 0, armed := false, got := 0 } }
  let s := s.rehome.reassign old
  let s := s.eachWing State.mgCompare
  s.rawAnswer (fun x => match x with | .join _ => true | _ => false) .ok

/-- Whether a channel holds a command, other than a JOIN, that was accepted by an RT and is still to be answered. -/
def Chan.owes (c : Chan) (t : Nat) : Bool :=
  c.queue.any fun p => decide (fld (wordAt p.words 0) 9 0 ≠ 0x187 ∧ p.at' ≤ t) && match p.phase with
    | .answered _ _ => false
    | _ => true

/-- Whether a JOIN waits for nothing more: both wings are REJOIN_READY, neither has failed, and every command accepted before it has
been answered (R340). -/
def State.joinDue (s : State) : Bool :=
  decide (s.sl.link = .rejoinReady ∧ s.sr.link = .rejoinReady) && !s.sl.failed && !s.sr.failed
    && s.chans.any fun c => match c.waiting with
      | some (.join t) => s.chans.all fun x => !x.owes t
      | _ => false

/-! ## Moving channels (R328, R344, R358) -/

/-- Whether a channel has no accepted command to answer but a handover that waits on it. -/
def Chan.drained (c : Chan) : Bool :=
  match c.waiting with
  | some (.handover _) => true
  | some (.strike (.core _)) => true
  | _ => c.head.isNone

/-- The core that a channel moves to in a handover. -/
def handTarget (h : Nat) (c : Chan) : CoreId := if h = 0 then .r else if h = 1 then .l else homeCore c.mapWing

/-- A handover starts: the channels that leave their core close. -/
def State.beginHand (s : State) (h : Nat) : State :=
  { s with upd := { s.upd with hand := some h },
           chans := s.chans.map fun (c : Chan) => if c.served = handTarget h c then c else { c with closing := some s.rt } }

/-- A channel moves in a handover. -/
def State.moveChan (s : State) (h : Nat) (n : Fin 8) (forced : Bool) : State :=
  let c := s.chans[n]
  (s.modChan n fun c => { c with served := handTarget h c, closing := none }).log c.mapWing .unitClosed 0 4 n.val (b2n forced)

/-- The new image is the one reported (R359). -/
def State.adoptImage (s : State) : State :=
  let u := s.upd
  let w1 : Nat := (tget u.image 1).elim 0 BitVec.toNat
  let b := { s.boot with image := u.image, hash := u.hash, scriptLevel := fld w1 15 0, stambe := fld w1 31 16 }
  { s with boot := b, upd := {} }

/-- A core whose partner may not take over is not armed; heartbeats count again from none (R388). -/
def State.disarm (s : State) (c : CoreId) : State := s.modCore c fun x => { x with armed := false, got := 0 }

/-- What an update does once its handover has ended (R359): the core that left loads the new image, and after the last
handover the update is done. -/
def State.updateMoved (s : State) : State :=
  match s.upd.step with
  | 2 => (State.modCore { s with upd := { s.upd with step := 3 } } .r fun c => { c with reloading := true, reloadAt := s.rt }).disarm .l
  | 4 => (State.modCore { s with upd := { s.upd with step := 5 } } .l fun c => { c with reloading := true, reloadAt := s.rt }).disarm .r
  | 6 => (s.logBoth .updateDone 0 0 0 0).adoptImage
  | _ => s

/-- The end of a handover: the wings change core, CORE_HANDOVER is written, the watch of a core that serves no wing is
suspended (R358), and the update that asked for it goes on (R359). -/
def State.endHand (s : State) (h : Nat) : State :=
  let old := s.role
  let leaving : CoreId := if h = 0 then .l else if h = 1 then .r else if s.sl.served = .r then .r else .l
  let s := s.eachWing fun s w => s.giveWing w (if h = 0 then .r else if h = 1 then .l else homeCore w)
  let s := s.logBoth .coreHandover 0 (coreIx leaving).val 0 0
  let s := if h = 2 then s
    else s.modCore leaving fun c => { c with suspended := true, missed := 0, armed := false, got := 0 }
  let s := { s with upd := { s.upd with hand := none } }
  let s := s.reassign old
  let s := s.rawAnswer (fun x => x = .handover h || x = .strike (.core leaving)) .ok
  s.updateMoved

/-- The channels of a handover that have answered their commands move; once all have, it ends. -/
def State.settleHand (s : State) : State :=
  match s.upd.hand with
  | none => s
  | some h =>
    let s := (List.finRange 8).foldl (fun s n =>
      if s.chans[n].closing.isSome ∧ s.chans[n].drained then s.moveChan h n false else s) s
    if s.chans.all fun c => c.closing.isNone then s.endHand h else s

/-- A handover is given up: every channel goes on with the core that serves its wing, those too that had moved (R357). -/
def State.dropHand (s : State) (st : Status) : State :=
  let s := { s with upd := { s.upd with hand := none },
                    chans := s.chans.map fun (c : Chan) => { c with closing := none, served := (s.wing c.mapWing).served } }
  s.rawAnswer (fun x => match x with | .handover _ => true | .strike (.core _) => true | _ => false) st

/-- What follows when a channel has answered a command: a new mapping (R328), a JOIN, a handover. -/
def State.settle (s : State) (ch : Fin 8) : State :=
  let s := s.settleMap ch
  let s := if s.joinDue then s.joinNow else s
  s.settleHand

/-- Answering the command of a channel. -/
def State.reply (s : State) (ch : Fin 8) (st : Status) (payload : List Word) : State :=
  (s.rawReply ch st payload).settle ch

/-- Answering it after its curtain, where its CURTAIN flag is set (R372). -/
def State.finish (s : State) (ch : Fin 8) (st : Status) (payload : List Word) : State :=
  (s.rawFinish ch st payload).settle ch

/-- Answering every command that waits for something. -/
def State.answerWaiters (s : State) (w : Wait) (st : Status) (payload : List Word) : State :=
  (List.finRange 8).foldl (fun s ch => if s.chans[ch].waiting = some w then s.finish ch st payload else s) s

end Sys2Proof.Machine
end

