-- ==== Sys2Proof/Machine/MetaOps.lean ====
section
/-! DEFINITION. Memory protection: the layout of metadata (R177), counters and tags (R183 to R188), the metadata cache
(R189, R190) and the memory ports (R65 to R67). -/

namespace Sys2Proof.Machine

/-! ## Layout (R177, R178) -/

/-- Pages of a region. -/
def RDesc.pages (d : RDesc) : Nat := (d.last + 1 - d.base) / 4096

/-- Nodes of each tree level from `n` children on, level 1 first. -/
def levelsFrom : Nat → Nat → List Nat
  | 0, _ => []
  | k + 1, n => let m := (n + 7) / 8
    if m ≤ 1 then [m] else m :: levelsFrom k m

/-- The tree levels of a region. -/
def RDesc.levels (d : RDesc) : List Nat := levelsFrom 8 d.pages

/-- DEPTH. -/
def RDesc.depth (d : RDesc) : Nat := if d.mode = 0 then 0 else d.levels.length

/-- Nodes of the whole tree. -/
def RDesc.nodes (d : RDesc) : Nat := d.levels.foldl (· + ·) 0

/-- Metadata lines: counter lines, then tree nodes in tree-area order. -/
def RDesc.mlines (d : RDesc) : Nat := if d.mode = 0 then 0 else d.pages + d.nodes

/-- The address of metadata line `i`. -/
def RDesc.mlineAddr (d : RDesc) (i : Nat) : Nat :=
  if i < d.pages then d.ctrBase + 64 * i else d.treeBase + 64 * (i - d.pages)

/-- The counter line of an address's page. -/
def RDesc.ctrIx (d : RDesc) (addr : Nat) : Nat := (addr - d.base) / 4096

/-- The parent of metadata line `i` and its counter in it; none for the node whose parent is ROOT. -/
def parentIn (pages : Nat) : List Nat → Nat → Nat → Nat → Option (Nat × Nat)
  | [], _, _, _ => none
  | n :: rest, first, children, i =>
    if i < first + children then some (first + children + (i - first) / 8, (i - first) % 8)
    else match rest with
      | [] => none
      | _ => parentIn pages rest (first + children) n i

/-- The parent of metadata line `i`: line 8i + c is child c. -/
def RDesc.parent (d : RDesc) (i : Nat) : Option (Nat × Nat) := parentIn d.pages d.levels 0 d.pages i

/-- The line itself and its ancestors up to the node under ROOT. -/
def RDesc.chain (d : RDesc) : Nat → Nat → List Nat
  | 0, i => [i]
  | k + 1, i => match d.parent i with
    | some (p, _) => i :: RDesc.chain d k p
    | none => [i]

/-- The metadata line at an address of a region. -/
def RDesc.mlineAt (d : RDesc) (addr : Nat) : Option Nat :=
  if d.mode = 0 then none
  else if d.ctrBase ≤ addr ∧ addr < d.ctrBase + 64 * d.pages then some ((addr - d.ctrBase) / 64)
  else if d.treeBase ≤ addr ∧ addr < d.treeBase + 64 * d.nodes then some (d.pages + (addr - d.treeBase) / 64)
  else none

/-- Bytes of the data tags in the tag area. -/
def RDesc.dataTags (d : RDesc) : Nat := if d.mode = 2 then (d.last + 1 - d.base) / 8 else 0

/-- The carve-out address of a data line's tag. -/
def RDesc.dataTagAddr (d : RDesc) (addr : Nat) : Nat := d.tagBase + (addr - d.base) / 64 * 8

/-- The carve-out address of the tag of metadata line `i`. -/
def RDesc.metaTagAddr (d : RDesc) (i : Nat) : Nat := d.tagBase + d.dataTags + 8 * i

/-- Bytes of the tag area in carve-out mode. -/
def RDesc.tagBytes (d : RDesc) : Nat := if d.mode = 0 then 0 else d.dataTags + 8 * d.mlines

/-- The memory port that serves an address of a region (R178). -/
def RDesc.port (d : RDesc) (addr : Nat) : Fin 4 :=
  let first := 2 * wingIx d.owner
  Fin.ofNat 4 (if d.mpMap = 0 then first else if d.mpMap = 1 then first + 1 else first + addr / 4096 % 2)

/-! ## Counters (R183, R184) -/

/-- Replacing bits [lo + n - 1 : lo]. -/
def setFld (x lo n v : Nat) : Nat := x - fld x (lo + n - 1) lo * 2 ^ lo + v % 2 ^ n * 2 ^ lo

/-- MAJOR of a counter line. -/
def majorOf (c : Nat) : Nat := c % 2 ^ 64

/-- Minor counter of line `j`. -/
def minorOf (c j : Nat) : Nat := fld c (64 + 7 * j + 6) (64 + 7 * j)

/-- Writing a minor counter. -/
def setMinor (c j v : Nat) : Nat := setFld c (64 + 7 * j) 7 v

/-- Counter `c` of a tree node. -/
def nodeCtr (n c : Nat) : Nat := fld n (64 * c + 63) (64 * c)

/-- The line's place in its page. -/
def lineIx (addr : Nat) : Nat := addr / 64 % 64

/-! ## Counter blocks, cipher and tags (R185 to R187) -/

/-- A 128-bit counter block. -/
def ctrBlock (keyid addr major minor dom blk : Nat) : Nat :=
  keyid % 2 ^ 12 * 2 ^ 116 + addr / 64 % 2 ^ 34 * 2 ^ 82 + major % 2 ^ 64 * 2 ^ 18 + minor % 2 ^ 7 * 2 ^ 11 + dom * 2 ^ 8
    + 0x80 + blk

/-- Encrypting or decrypting a data line (R186). -/
def lineCipher (key : Bytes) (kix addr major minor x : Nat) : Nat :=
  let ks := aesKeys key
  leNat (xorBytes (leBytes 64 x)
    ((List.range 4).flatMap fun b => beBytes 16 (aesEncWith ks (ctrBlock kix addr major minor 0 b))))

/-- The stored tag of 64 bytes under a mask block (R187): its first 8 bytes, byte 0 lowest. -/
def lineTag (key : Bytes) (mask x : Nat) : Nat :=
  let ks := aesKeys key
  let full := ghash (aesEncWith ks 0) (beBytes 16 mask) (leBytes 64 x) ^^^ aesEncWith ks mask
  leNat ((beBytes 16 full).take 8)

/-- The tag of a data line. -/
def dataTag (key : Bytes) (kix addr major minor cipher : Nat) : Nat :=
  lineTag key (ctrBlock kix addr major minor 1 0) cipher

/-- The tag of a metadata line under its parent counter. -/
def metaTag (key : Bytes) (region addr parent : Nat) (counterLine : Bool) (x : Nat) : Nat :=
  lineTag key (ctrBlock region addr parent 0 (if counterLine then 2 else 3) 0) x

/-! ## Memory ports (R65 to R67) -/

/-- Whether a memory port serves accesses. -/
def MPort.alive (x : MPort) : Bool := !x.rst && !x.struck && !x.clkLost

/-- The requests of a port, presented or outstanding. -/
def MPort.reqs (x : MPort) : List MpReq := x.aq ++ x.out

/-- Whether a request concerns the line of an address. -/
def MpReq.covers (x : MpReq) (addr : Nat) : Bool := decide (x.addr ≤ addr ∧ addr < x.addr + 64 * x.lines.length)

/-- Whether a request to a line may be presented: fewer than 256 outstanding and none to that line. -/
def MPort.free (x : MPort) (addr : Nat) : Bool := decide (x.reqs.length < 256) && x.reqs.all fun r => !r.covers addr

/-- The first AID that no outstanding request has. -/
def MPort.aid (x : MPort) : Nat :=
  ((List.range 256).find? fun i => x.reqs.all (·.aid ≠ (x.nextAid + i) % 256)).elim 0 fun i => (x.nextAid + i) % 256

/-- Whether the next line of an access goes with the request presented last, as one burst of up to four lines: both are ready at
the same moment (DESIGN CHOICE, assumption 26). -/
def MpReq.joins (x : MpReq) (use : MpUse) (addr : Nat) (write : Bool) (cls now : Nat) : Bool :=
  decide (x.write = write ∧ x.cls = cls ∧ x.at' = now ∧ x.addr + 64 * x.lines.length = addr ∧ x.lines.length < 4)
    && match x.lines.getLast?.map MpLine.use, use with
      | some (.data q _ seq i), .data q' _ seq' i' => decide (q = q' ∧ seq = seq' ∧ i' = i + 1)
      | _, _ => false

/-- The grant of a memory port where other requests are presented on it (R25, R42). -/
def State.mpGrant (s : State) (m : Fin 4) (joins : Bool) : State :=
  if s.mps[m].aq.isEmpty ∨ joins then s else s.rhlGrant (mpWing m) (16 + m.val % 2) true

/-- Presenting the request of a line on a memory port. -/
def State.mpIssue (s : State) (m : Fin 4) (use : MpUse) (addr : Nat) (write : Bool) (data sb cls : Nat) : State :=
  (s.mpGrant m (s.mps[m].aq.getLast?.any fun r => r.joins use addr write cls s.rt)).modMp m fun x =>
    let line : MpLine := { use := use, data := data, sb := if x.sb then sb else 0 }
    let alone : MPort :=
      let r : MpReq := { aid := x.aid, addr := addr, write := write, cls := cls, lines := [line], at' := s.rt }
      { x with aq := x.aq ++ [r], nextAid := (r.aid + 1) % 256 }
    match x.aq.getLast? with
    | some r => if r.joins use addr write cls s.rt then
        { x with aq := x.aq.dropLast ++ [{ r with lines := r.lines ++ [line] }] } else alone
    | none => alone

/-- Whether a line of some kind of use is presented or outstanding on a memory port. -/
def State.mpUsed (s : State) (f : MpUse → Bool) : Bool :=
  s.mps.any fun m => m.reqs.any fun x => x.lines.any fun l => f l.use

/-- The W beats of a request, each with WLAST (R65). -/
def MpReq.wbeats (x : MpReq) : List (Nat × Nat × Bool) :=
  x.lines.mapIdx fun k l => (l.data, l.sb, decide (k + 1 = x.lines.length))

/-! ## The metadata cache (R189, R190) -/

/-- Changing a wing's MPE. -/
def State.modMpe (s : State) (w : Wing) (f : Mpe → Mpe) : State := s.modWing w fun x => { x with mpe := f x.mpe }

/-- A cached line; one that fails parity counts as absent (R36). -/
def State.cached (s : State) (w : Wing) (addr : Nat) : Option CLine :=
  if s.bad (.mline w addr) then none else (s.wing w).mpe.cache.find? (·.addr = addr)

/-- A lookup that meets a cached line that fails parity reports it, and the line is gone (R36, R42). -/
def State.lineParity (s : State) (w : Wing) (addr : Nat) : State :=
  if s.bad (.mline w addr) ∧ (s.wing w).mpe.cache.any (·.addr = addr) then
    (((s.modMpe w fun m => { m with cache := m.cache.filter (·.addr ≠ addr) }).logEntry w 2 addr).parityHit w
      (.mline w addr)).fix (.mline w addr)
  else s

/-- Changing a cached line, which becomes the most recently used. -/
def Mpe.touch (m : Mpe) (addr : Nat) (f : CLine → CLine) : Mpe :=
  match m.cache.find? (·.addr = addr) with
  | some c => { m with cache := m.cache.filter (·.addr ≠ addr) ++ [f c] }
  | none => m

/-- Whether an address is a counter line of a pinned region, held in the lock array. -/
def State.inLockArray (s : State) (c : CLine) : Bool :=
  c.locked && (match (s.regions[Fin.ofNat 64 c.region]).d.mlineAt c.addr with
    | some i => decide (i < (s.regions[Fin.ofNat 64 c.region]).d.pages)
    | none => false)

/-- The counter under which a metadata line is tagged, where its parent is at hand. -/
def State.parentCtr (s : State) (r : Fin 64) (i : Nat) : Option Nat :=
  let d := s.regions[r].d
  match d.parent i with
  | none => some s.regions[r].root
  | some (p, c) => (s.cached d.owner (d.mlineAddr p)).map fun x => nodeCtr x.data c

/-- The tree key of a region as its wing reads it: that of its slot, checked at each use (R254), or that of a store region (R243). -/
def State.readTree (s : State) (r : Fin 64) : Option Bytes × State :=
  let x := s.regions[r]
  match x.use with
  | .host =>
    let slot := KLoc.slot (fld x.d.treeKey 11 0)
    let (k, s) := s.readKey x.d.owner slot
    (match k with
     | some k =>
       if !k.allows .memory s.vlt.lcCode none then (none, s)
       else if k.ended s.rt then (none, s.spend x.d.owner slot)
       else (some k.material, s)
     | none => (none, s))
  | .saStore => (s.vlt.keys.saTree, s)
  | .spill => (s.vlt.keys.rhlTree, s)

/-- That key alone. -/
def State.treeKey (s : State) (r : Fin 64) : Option Bytes := (s.readTree r).1

/-- Whether a memory port of a region carries tags in the sideband (R66). -/
def State.sideband (s : State) (d : RDesc) (addr : Nat) : Bool := s.mps[d.port addr].sb

/-- A tag in a carve-out tag line. -/
def tagInLine (line tagAddr : Nat) : Nat := fld line (64 * (tagAddr / 8 % 8) + 63) (64 * (tagAddr / 8 % 8))

/-- Writing a tag into a cached tag line. -/
def State.putTag (s : State) (w : Wing) (tagAddr tag : Nat) : State :=
  s.modMpe w fun m => m.touch (tagAddr / 64 * 64) fun c =>
    { c with data := setFld c.data (64 * (tagAddr / 8 % 8)) 64 tag, dirty := true }

/-- Whether an address lies in a region's tag area. -/
def RDesc.inTags (d : RDesc) (addr : Nat) : Bool := decide (d.tagBase / 64 * 64 ≤ addr ∧ addr < d.tagBase + d.tagBytes)

/-- The region of a metadata or tag line's address on a wing. -/
def State.metaRegion (s : State) (w : Wing) (addr : Nat) : Option (Fin 64) :=
  (List.finRange 64).find? fun r =>
    let x := s.regions[r]
    decide (x.st ≠ .notInstalled ∧ x.d.owner = w) && ((x.d.mlineAt addr).isSome || x.d.inTags addr)

/-! ## Fetching metadata (R189, R214) -/

/-- Whether a line is on its way to the cache. -/
def Mpe.coming (m : Mpe) (addr : Nat) : Bool := m.fetching.contains addr || m.arrived.any (·.1 = addr)

/-- A metadata or tag line lies on a memory port that serves no access: what waits for it is to end with MEM_ERR (R351). -/
def State.askLost (s : State) (w : Wing) (addr : Nat) : State :=
  s.modMpe w fun m => if m.lost.contains addr then m else { m with lost := m.lost ++ [addr] }

/-- Asking for a carve-out tag line, a miss of the cache like any other. -/
def State.askTag (s : State) (r : Fin 64) (tagAddr cls : Nat) : State :=
  let d := s.regions[r].d
  let w := d.owner
  let t := tagAddr / 64 * 64
  let s := s.lineParity w t
  if (s.cached w t).isSome ∨ (s.wing w).mpe.coming t then s
  else if !s.mps[d.port t].alive then s.askLost w t
  else if !s.mps[d.port t].free t then s
  else ((s.modMpe w fun y => { y with fetching := y.fetching ++ [t] }).mpIssue (d.port t) (.tline w t) t false 0 0
    cls).countRegion r 8 1

/-- Asking for one metadata line, unless it is cached, arrived or being fetched. -/
def State.askMeta (s : State) (r : Fin 64) (i cls : Nat) : State :=
  let d := s.regions[r].d
  let w := d.owner
  let a := d.mlineAddr i
  let m := d.port a
  let s := s.lineParity w a
  let s := if (s.cached w a).isSome ∨ (s.wing w).mpe.coming a then s
    else if !s.mps[m].alive then s.askLost w a
    else if !s.mps[m].free a then s
    else ((s.modMpe w fun y => { y with fetching := y.fetching ++ [a] }).mpIssue m (.mline w a) a false 0 0 cls).countRegion
      r 8 1
  if s.sideband d a ∨ (s.cached w a).isSome then s else s.askTag r (d.metaTagAddr i) cls

/-- Asking for a counter line together with every ancestor that is not in the cache (R189). -/
def State.askChain (s : State) (r : Fin 64) (i cls : Nat) : State :=
  let d := s.regions[r].d
  ((d.chain 9 i).foldl (fun (a : State × Bool) j =>
    if a.2 then a
    else if (a.1.cached d.owner (d.mlineAddr j)).isSome then (a.1, true)
    else (a.1.askMeta r j cls, false)) (s, false)).1

/-- Asking for the ancestors of a metadata line. -/
def State.askParent (s : State) (r : Fin 64) (i cls : Nat) : State :=
  match s.regions[r].d.parent i with
  | some (p, _) => s.askChain r p cls
  | none => s

/-! ## Writing back (R189, R201, R211) -/

/-- Whether a line is being written back. -/
def State.wbOut (s : State) (w : Wing) (addr : Nat) : Bool := s.mpUsed fun u => u = .wback w addr

/-- The metadata lines and, past them, the tag lines of a region by one index. -/
def RDesc.lineAddr (d : RDesc) (i : Nat) : Nat :=
  if i < d.mlines then d.mlineAddr i else d.tagBase / 64 * 64 + 64 * (i - d.mlines)

/-- A write-back has failed: the persist curtains that wait for it, or that come to need the line, are to say so (R201). -/
def State.wbFailed (s : State) (r : Fin 64) (addr : Nat) : State :=
  let d := s.regions[r].d
  let waits (a : Access) : Bool := a.flush.any fun l => l.any fun e => e.1 = r.val ∧ d.lineAddr e.2.1 = addr
  let mark (a : Access) : Access := if waits a then { a with flushErr := true } else a
  let s := s.modRegion r fun x => { x with wbFail := if x.wbFail.contains addr then x.wbFail else x.wbFail ++ [addr] }
  (List.finRange 4).foldl (fun s q => s.modRqp q fun x => { x with accs := x.accs.map mark }) s

/-- Dirty cached children of a metadata line. -/
def State.dirtyChild (s : State) (r : Fin 64) (addr : Nat) : Bool :=
  let d := s.regions[r].d
  match d.mlineAt addr with
  | some i => (s.wing d.owner).mpe.cache.any fun c =>
      c.dirty ∧ c.region = r.val ∧ ((d.mlineAt c.addr).any fun j => (d.parent j).any fun p => p.1 = i)
  | none => false

/-- Writing back one dirty line (R189): its parent counter is incremented first, and the line is written with a tag
under it. While its memory port is taken nothing happens; a parent or tag line that is not at hand is asked for; without the
region's key or a memory port that answers, the write-back has failed, and so it has for a line that fails parity, which is
reported and gone (R36, R42; DESIGN CHOICE, assumption 27). -/
def State.writeBack (s : State) (c : CLine) (cls : Nat) : State :=
  let r : Fin 64 := Fin.ofNat 64 c.region
  let d := s.regions[r].d
  let w := d.owner
  let m := d.port c.addr
  let clean (s : State) : State := s.modMpe w fun y => y.touch c.addr fun c => { c with dirty := false }
  let (key, s) := if (d.mlineAt c.addr).isSome then s.readTree r else (some [], s)
  if s.bad (.mline w c.addr) then (s.lineParity w c.addr).wbFailed r c.addr
  else if !s.mps[m].alive ∨ key.isNone then (clean s).wbFailed r c.addr
  else if !s.mps[m].free c.addr then s
  else match d.mlineAt c.addr with
    | none => (clean s).mpIssue m (.wback w c.addr) c.addr true c.data 0 cls
    | some i =>
      match s.parentCtr r i with
      | none => s.askParent r i cls
      | some p =>
        let p := p + 1
        let tag := metaTag (key.getD []) r.val c.addr p (decide (i < d.pages)) c.data
        let ta := d.metaTagAddr i
        if !s.sideband d c.addr ∧ (s.cached w (ta / 64 * 64)).isNone then s.askTag r ta cls
        else
          let s := match d.parent i with
            | none => s.modRegion r fun x => { x with root := x.root + 1 }
            | some (pi, ch) => s.modMpe w fun y => y.touch (d.mlineAddr pi) fun q =>
                { q with data := setFld q.data (64 * ch) 64 p, dirty := true }
          let s := if s.sideband d c.addr then s else s.putTag w ta tag
          (clean s).mpIssue m (.wback w c.addr) c.addr true c.data tag cls

/-- Writing back the dirty lines of a region that have no dirty children, tag lines last. -/
def State.flushRegion (s : State) (r : Fin 64) (cls : Nat) : State :=
  let d := s.regions[r].d
  let mine := (s.wing d.owner).mpe.cache.filter fun c => c.dirty ∧ c.region = r.val
  let meta1 := mine.filter fun c => (d.mlineAt c.addr).isSome
  let now := if meta1.isEmpty then mine else meta1.filter fun c => !s.dirtyChild r c.addr
  now.foldl (fun s c => s.writeBack c cls) s

/-- Whether a region has metadata still to be written back or a write-back that is not accepted. -/
def State.unflushed (s : State) (r : Fin 64) : Bool :=
  let d := s.regions[r].d
  ((s.wing d.owner).mpe.cache.any fun c => c.dirty ∧ c.region = r.val)
    || s.mpUsed fun u => match u with
      | .wback w a => decide (w = d.owner) && ((d.mlineAt a).isSome || d.inTags a)
      | _ => false

/-! ## Room in the cache (R189, R190, R213) -/

/-- Whether a child of a metadata line is in the cache or on its way there. -/
def State.hasChild (s : State) (w : Wing) (c : CLine) : Bool :=
  let d := (s.regions[Fin.ofNat 64 c.region]).d
  let m := (s.wing w).mpe
  match d.mlineAt c.addr with
  | some i =>
    let child (a : Nat) : Bool := (d.mlineAt a).any fun j => (d.parent j).any fun p => p.1 = i
    (m.cache.any fun x => x.region = c.region ∧ child x.addr) || m.fetching.any child || m.arrived.any fun a => child a.1
  | none => false

/-- Whether work on a page needs its counter line: a re-encryption, or a line whose data is under way. -/
def State.ctrNeeded (s : State) (c : CLine) : Bool :=
  let d := (s.regions[Fin.ofNat 64 c.region]).d
  ((s.wing d.owner).mpe.reencs.any fun e => e.region = c.region ∧ d.mlineAddr (d.ctrIx e.page) = c.addr)
    || s.rqps.any fun x => x.accs.any fun a => a.region = some c.region ∧ a.lines.any fun l =>
      l.phase ≠ .waiting ∧ l.phase ≠ .done ∧ d.mlineAddr (d.ctrIx l.addr) = c.addr

/-- Whether a line may leave the cache: it is not locked, no child of it is cached or being fetched, and no page that it counts
is being worked on. That no line leaves before its clean children either is the model's choice (DESIGN CHOICE, assumption 27). -/
def State.mayEvict (s : State) (w : Wing) (c : CLine) : Bool := !c.locked && !s.hasChild w c && !s.ctrNeeded c

/-- The first of some lines that may leave the cache leaves it, written back first where it is dirty. -/
def State.evictFrom (w : Wing) : List CLine → State → State
  | [], s => s
  | c :: t, s =>
    if s.mayEvict w c then
      let s := if c.dirty then s.writeBack c 3 else s
      if (s.wing w).mpe.cache.any fun x => x.addr = c.addr ∧ x.dirty then State.evictFrom w t s
      else s.modMpe w fun y => { y with cache := y.cache.filter (·.addr ≠ c.addr) }
    else State.evictFrom w t s

/-- Whether the metadata cache has an entry free of its 32,768. -/
def State.cacheRoom (s : State) (w : Wing) : Bool :=
  decide (((s.wing w).mpe.cache.filter fun c => !s.inLockArray c).length < 32768)

/-- Making room in the metadata cache: the least recently used line that may leave goes (R189). -/
def State.evictMeta (s : State) (w : Wing) : State :=
  if s.cacheRoom w then s else State.evictFrom w (s.wing w).mpe.cache s

/-- Placing a line in the cache. -/
def State.cachePut (s : State) (w : Wing) (r : Nat) (addr data : Nat) (dirty : Bool) : State :=
  let s := s.evictMeta w
  let x := s.regions[Fin.ofNat 64 r]
  let lock := (x.pinned || x.fillIx.isSome) && (x.d.mlineAt addr).isSome
  let c : CLine := { addr := addr, region := r, data := data, dirty := dirty, locked := lock }
  (s.fix (.mline w addr)).modMpe w fun m => { m with cache := m.cache.filter (·.addr ≠ addr) ++ [c] }

/-- Nothing of a region's metadata stays or comes any more: what is cached is dropped, what is on its way is not taken (R179,
R211). -/
def State.purgeMeta (s : State) (r : Fin 64) : State :=
  let d := s.regions[r].d
  let mine (a : Nat) : Bool := d.mode ≠ 0 && ((d.mlineAt a).isSome || d.inTags a)
  s.modMpe d.owner fun m =>
    { m with cache := m.cache.filter (·.region ≠ r.val), fetching := m.fetching.filter fun a => !mine a,
             arrived := m.arrived.filter fun a => !mine a.1, lost := m.lost.filter fun a => !mine a }

/-- Whether the lock array has an entry free of its 65,536 (R190). -/
def State.arrayRoom (s : State) (w : Wing) : Bool :=
  decide (((s.wing w).mpe.cache.filter s.inLockArray).length < 65536)

/-- Placing a line that came back where there is room for it: in the lock array, or in the cache once an entry is free. -/
def State.cacheTake (s : State) (w : Wing) (r : Fin 64) (a : Nat × Nat × Nat) : State :=
  let x := s.regions[r]
  let array := (x.pinned || x.fillIx.isSome) && (x.d.mlineAt a.1).any fun i => decide (i < x.d.pages)
  let s := if array then s else s.evictMeta w
  if (if array then s.arrayRoom w else s.cacheRoom w) then
    (s.modMpe w fun m => { m with arrived := m.arrived.filter (·.1 ≠ a.1) }).cachePut w r.val a.1 a.2.1 false
  else s

end Sys2Proof.Machine
end

