-- ==== Sys2Proof/Machine/MpeOps.lean ====
section
/-! DEFINITION. The memory protection engine's work on accesses: reading (R192, R193), writing (R194, R195), ordering
(R197 to R202), failed checks (R203, R204), repair (R206) and page re-encryption (R207, R208). -/

namespace Sys2Proof.Machine

/-! ## Accesses and their lines -/

/-- The access of a port with a place in order. -/
def State.access (s : State) (q : Fin 4) (seq : Nat) : Option Access := s.rqps[q].accs.find? (·.seq = seq)

/-- Changing an access. -/
def State.modAcc (s : State) (q : Fin 4) (seq : Nat) (f : Access → Access) : State :=
  s.modRqp q fun x => { x with accs := x.accs.map fun a => if a.seq = seq then f a else a }

/-- Changing a line of an access. -/
def State.modLine (s : State) (q : Fin 4) (seq i : Nat) (f : MLine → MLine) : State :=
  s.modAcc q seq fun a => { a with lines := a.lines.modify i f }

/-- The ADDRESS words of an event (R377): SUBJECT and ARG_A. An access of the engine has no master: its ID reads 0. -/
def addrArgs (addr mid : Nat) (q : Fin 4) : Nat × Nat := (addr % 2 ^ 32, addr / 2 ^ 32 % 256 + mid % 256 * 2 ^ 8 + q.val * 2 ^ 16)

/-- A memory event naming an address, on the owning wing's Call Board. -/
def State.logAddr (s : State) (r : Fin 64) (e : Ev) (addr mid : Nat) (q : Fin 4) (b : Nat) : State :=
  s.log s.regions[r].d.owner e r.val (addrArgs addr mid q).1 (addrArgs addr mid q).2 b

/-- A line ends: its lane work is over. -/
def State.endLine (s : State) (q : Fin 4) (seq i : Nat) (f : MLine → MLine) : State :=
  (s.modLine q seq i fun l => { f l with phase := .done }).dropItem (.mem q seq i)

/-- A line ends with a status, nothing more being performed. A read that was released before fails the next verify curtain that
covers it (R200), unless the wings are not JOINED between its port and its region (R335). -/
def State.endFailed (s : State) (q : Fin 4) (seq i status : Nat) : State :=
  match s.access q seq with
  | some a => match a.lines[i]? with
    | some l =>
      if l.released then
        let s := s.endLine q seq i id
        let far := a.region.any fun r => decide (s.regions[Fin.ofNat 64 r].d.owner ≠ rqpWing q)
        if far ∧ !s.joined then s else s.modRqp q fun x => { x with vfails := x.vfails ++ [(a.mid, seq)] }
      else
        let s := s.endLine q seq i fun l => { l with status := status, plain := 0, released := true }
        if a.op = 1 ∧ status = 5 then s.modRqp q fun x => { x with pfails := x.pfails ++ [(a.mid, seq)] } else s
    | none => s
  | none => s

/-! ## Counters in the cache, pages in re-encryption -/

/-- The cached counter line of an address. -/
def State.ctrLine (s : State) (r : Fin 64) (addr : Nat) : Option Nat :=
  let d := s.regions[r].d
  (s.cached d.owner (d.mlineAddr (d.ctrIx addr))).map CLine.data

/-- Writing an address's counter line in the cache. -/
def State.setCtr (s : State) (r : Fin 64) (addr x : Nat) : State :=
  let d := s.regions[r].d
  s.modMpe d.owner fun m => m.touch (d.mlineAddr (d.ctrIx addr)) fun c => { c with data := x, dirty := true }

/-- Poisoning a line (R195), with the alarm where a check has failed (R387). -/
def State.poisonAs (s : State) (r : Fin 64) (addr mid : Nat) (q : Fin 4) (kix : Nat) (alarm : Bool) : State :=
  let s := ((s.countRegion r 6 1).logAddr r .linePoisoned addr mid q kix)
  let s := if alarm then s.raiseAlarm .memIntegrity else s
  match s.ctrLine r addr with
  | some c => s.setCtr r addr (setMinor c (lineIx addr) 0x7F)
  | none => s.modMpe s.regions[r].d.owner fun m =>
      { m with poisons := m.poisons ++ [{ region := r.val, addr := addr, mid := mid, q := q, kix := kix, alarm := alarm }] }

/-- The re-encryption of an address's page in progress. -/
def State.reencOf (s : State) (w : Wing) (addr : Nat) : Option Reenc :=
  (s.wing w).mpe.reencs.find? fun e => e.page = addr / 4096 * 4096

/-- Changing a re-encryption. -/
def State.modReenc (s : State) (w : Wing) (page : Nat) (f : Reenc → Reenc) : State :=
  s.modMpe w fun m => { m with reencs := m.reencs.map fun e => if e.page = page then f e else e }

/-- The writes that stand in a page buffer end as the page's line is accepted, or with an error (R207, R208). -/
def State.endBuffered (s : State) (addr status : Nat) : State :=
  (List.finRange 4).foldl (fun s q => s.rqps[q].accs.foldl (fun s a =>
    (List.range a.lines.length).foldl (fun s i =>
      if (a.lines[i]?).any fun l => l.addr = addr ∧ l.buf ∧ l.phase ≠ .done then
        (if status = 0 then s.endLine q a.seq i fun l => { l with status := 0 } else s.endFailed q a.seq i status)
      else s) s) s) s

/-- The write that started a re-encryption is not performed, with the page under its new counters already: its line is poisoned,
and what stands in the page buffer for it ends too (R207, R208). -/
def State.trigEnds (s : State) (q : Fin 4) (a : Access) (l : MLine) (status : Nat) : State :=
  match a.region with
  | some rn =>
    let r : Fin 64 := Fin.ofNat 64 rn
    if l.trig ∧ l.phase ≠ .done ∧ (s.reencOf s.regions[r].d.owner l.addr).any fun e => e.draining ∧ e.q = q ∧ e.seq = a.seq then
      (s.poisonAs r l.addr a.mid q (l.slot.getD 0) false).endBuffered l.addr status
    else s
  | none => s

/-- A line of an access fails with a status (R200, R207). -/
def State.failLine (s : State) (q : Fin 4) (seq i status : Nat) : State :=
  match s.access q seq with
  | some a => match a.lines[i]? with
    | some l => (s.trigEnds q a l status).endFailed q seq i status
    | none => s
  | none => s

/-! ## Waiting for metadata -/

/-- Whether an access is being performed: it is not ended by a status, its own curtain has completed with OK, and all data of a
write has come. -/
def Access.performing (a : Access) : Bool :=
  a.fixed.isNone && decide (a.op < 2) && (decide (a.curtain = 0) || decide (a.cur = some 0)) && (decide (a.op = 0) || a.wdone)

/-- Whether a line waits for a metadata or tag line: one on the way to its counters, where they are not at hand, or the tag
line of its data; a merged line needs both once more, to be written (R195). -/
def State.waitsFor (s : State) (r : Fin 64) (l : MLine) (addr : Nat) : Bool :=
  let d := s.regions[r].d
  let chain := d.chain 9 (d.ctrIx l.addr)
  let merged := decide (l.phase = .merged ∨ l.phase = .repaired)
  l.phase ≠ .done && l.phase ≠ .writing
    && (((merged || !(l.known && l.metaOk)) && (s.cached d.owner (d.mlineAddr (d.ctrIx l.addr))).isNone
          && chain.any fun j => decide (d.mlineAddr j = addr)
          || (!s.sideband d (d.mlineAddr j) && decide (d.metaTagAddr j / 64 * 64 = addr)))
        || ((merged || !l.tagged) && d.mode = 2 && !s.sideband d l.addr && decide (d.dataTagAddr l.addr / 64 * 64 = addr)
          && (s.cached d.owner addr).isNone))

/-- The class in which a metadata or tag line is fetched (R448): the highest of the accesses and re-encryptions that wait for it,
Class 3 where none does. -/
def State.metaCls (s : State) (r : Fin 64) (addr : Nat) : Nat :=
  let d := s.regions[r].d
  let needs (a : Access) : Bool := decide (a.region = some r.val) && a.performing && a.lines.any fun l => s.waitsFor r l addr
  let n := s.rqps.foldl (fun n x => (x.accs.filter needs).foldl (fun n a => min n a.clsIn) n) 3
  (s.wing d.owner).mpe.reencs.foldl (fun n e =>
    if e.region = r.val ∧ ((d.chain 9 (d.ctrIx e.page)).any fun j =>
        decide (d.mlineAddr j = addr ∨ d.metaTagAddr j / 64 * 64 = addr)) then min n e.cls else n) n

/-- The accesses that wait for a metadata line end with a status (R69, R204). -/
def State.failWaiting (s : State) (r : Fin 64) (addr status : Nat) : State :=
  (List.finRange 4).foldl (fun s q => s.rqps[q].accs.foldl (fun s a =>
    if a.region = some r.val ∧ a.performing then
      (List.range a.lines.length).foldl (fun s i =>
        match a.lines[i]? with
        | some l => if s.waitsFor r l addr then s.failLine q a.seq i status else s
        | none => s) s
    else s) s) s

/-- Accesses that still have the line of an address under way. -/
def State.lineBusy (s : State) (addr : Nat) : Bool :=
  s.rqps.any fun x => x.accs.any fun a => a.lines.any fun l => l.addr = addr ∧ l.phase ≠ .done

/-! ## Keys of lines (R181) -/

/-- The key of a memory key slot as a wing reads it; none while the slot or its Class A cell is empty or closing. -/
def State.slotKey (s : State) (w : Wing) (k : Nat) : Option Key × State :=
  match tget s.vlt.slots k with
  | some e =>
    let closing := e.closeAt.isSome || (match e.ref with
      | some id => (s.vlt.cellOf id).any fun c => c.2.closeAt.isSome
      | none => false)
    if closing then (none, s) else s.readKey w (.slot k)
  | none => (none, s)

/-- Whether a line of a write is replaced whole, as far as its data has come. -/
def Access.whole (a : Access) (i : Nat) : Bool := (a.wbeats[i]?).all fun b => b.2 = 2 ^ 64 - 1

/-- Uses of its key that a line is still to make: a partial write deciphers the line and enciphers it again (R181, R195). -/
def Access.usesLeft (a : Access) (i : Nat) (l : MLine) : Nat :=
  match l.phase with
  | .waiting | .reading | .gotData => if a.op = 0 then (if l.released then 0 else 1) else if a.whole i then 1 else 2
  | .repairing | .repaired | .merged => if a.op = 0 then 0 else 1
  | .writing | .done => 0

/-- Whether two key slots hold one key: slots that refer to one Class A key share its use counter (R247). -/
def State.oneKey (s : State) (k k' : Nat) : Bool :=
  k = k' || match (tget s.vlt.slots k).bind (·.ref), (tget s.vlt.slots k').bind (·.ref) with
    | some a, some b => decide (a = b)
    | _, _ => false

/-- Uses of the key of a slot that the accesses accepted are still to make; lines of BYPASS regions use none (R174, R181). -/
def State.reservedUses (s : State) (k : Nat) : Nat :=
  s.rqps.foldl (fun n x => x.accs.foldl (fun n a =>
    if a.fixed.isSome ∨ a.region.all fun r => s.regions[Fin.ofNat 64 r].d.mode = 0 then n
    else n + (a.lines.mapIdx fun i l => if l.slot.any (s.oneKey k) then a.usesLeft i l else 0).foldl (· + ·) 0) n) 0

/-- Why the key of an access's lines refuses it: the slot and the flags of KEY_DENIED (R378), with the state after the
key cells were read. -/
def State.keyDenies (s : State) (w : Wing) (group : Nat) (world : Bool) (slots : List (Option Nat)) :
    Option (Nat × Nat) × State :=
  slots.foldl (fun (a : Option (Nat × Nat) × State) k =>
    match a.1 with
    | some _ => a
    | none => match k with
      | none => (some (0, 2), a.2)
      | some k =>
        let (key, s) := a.2.slotKey w k
        match key with
        | none => (some (k, 2), s)
        | some x =>
          let n := s.reservedUses k + slots.countP fun x => x.any (s.oneKey k)
          if !x.allows .memory s.vlt.lcCode (some (group, world)) then (some (k, 0), s)
          else if x.attr.useLimit ≠ 0 ∧ x.attr.useLimit < x.uses + n then
            (some (k, 1), if x.ended s.rt then s.spend w (.slot k) else s)
          else if x.ended s.rt then (some (k, 0), s.spend w (.slot k))
          else (none, s)) (none, s)

/-- The KEYID of a line's counter blocks (R185): its KIX; a region of the engine's own has none, so that it is a free value
(assumption 46). -/
def State.lineKix (s : State) (r : Fin 64) (slot : Option Nat) : Nat :=
  match s.regions[r].use with
  | .host => slot.getD 0
  | _ => Config.storeKix % 2 ^ 12

/-- The key of a line's data as the wing that owns its region reads it (R181, R243). -/
def State.lineKey (s : State) (r : Fin 64) (slot : Option Nat) : Option Bytes × State :=
  let x := s.regions[r]
  match x.use with
  | .host => match slot with
    | some k =>
      let (key, s) := s.readKey x.d.owner (.slot k)
      (key.map Key.material, s)
    | none => (none, s)
  | .saStore => (s.vlt.keys.saStore, s)
  | .spill => (s.vlt.keys.rhlSpill, s)

/-- One use of a line's key (R181, R255). -/
def State.useSlot (s : State) (w : Wing) (k : Option Nat) : State :=
  match k with
  | some k => s.useKey w (.slot k) 1
  | none => s

/-! ## Ordering (R197, R199) -/

/-- Whether an earlier CURTAIN_ISSUE of the access's master on the port is not complete. -/
def RqPort.held (x : RqPort) (a : Access) : Bool :=
  x.accs.any fun b => b.seq < a.seq ∧ b.mid = a.mid ∧ b.curtain = 1 ∧ b.cur.isNone

/-- Whether an earlier access of the same master on the port has the line under way; one whose data stands in a page buffer
holds nothing up (R208). -/
def RqPort.lineHeld (x : RqPort) (a : Access) (addr : Nat) : Bool :=
  x.accs.any fun b => b.seq < a.seq ∧ b.mid = a.mid ∧ b.fixed.isNone ∧ b.lines.any fun l =>
    l.addr = addr ∧ l.phase ≠ .done ∧ !l.buf

/-- Whether a partial write of another access has read the line and not yet written it: another write of the line waits, so
that neither undoes the other (R197, R213). The write that started a page's re-encryption is merged again as it is written. -/
def State.merging (s : State) (q : Fin 4) (seq i addr : Nat) : Bool :=
  (List.finRange 4).any fun q' => s.rqps[q'].accs.any fun b => b.op = 1 ∧ b.fixed.isNone ∧
    (List.range b.lines.length).any fun j => !b.whole j ∧ !(q' = q ∧ b.seq = seq ∧ j = i) ∧ (b.lines[j]?).any fun l =>
      l.addr = addr ∧ !l.trig ∧ (l.phase = .reading ∨ l.phase = .gotData ∨ l.phase = .repairing ∨ l.phase = .repaired ∨ l.phase = .merged)

/-! ## Poisoned lines -/

/-- Poisoning a line that did not verify. -/
def State.poison (s : State) (r : Fin 64) (addr mid : Nat) (q : Fin 4) (kix : Nat) : State := s.poisonAs r addr mid q kix true

/-- The lines whose counter line was not at hand are poisoned as it comes. -/
def State.pumpPoison (s : State) (w : Wing) : State :=
  (s.wing w).mpe.poisons.foldl (fun s e =>
    let r : Fin 64 := Fin.ofNat 64 e.region
    match s.ctrLine r e.addr with
    | some c => (s.setCtr r e.addr (setMinor c (lineIx e.addr) 0x7F)).modMpe w fun m => { m with poisons := m.poisons.erase e }
    | none => s.askChain r (s.regions[r].d.ctrIx e.addr) 3) s

/-- The stored tag of a data line that came back with sideband bits `sb`; none while its tag line is not at hand. -/
def State.storedTag (s : State) (r : Fin 64) (addr sb : Nat) : Option Nat :=
  let d := s.regions[r].d
  if s.sideband d addr then some sb
  else (s.cached d.owner (d.dataTagAddr addr / 64 * 64)).map fun c => tagInLine c.data (d.dataTagAddr addr)

/-! ## Issuing -/

/-- Issuing the read of a line. -/
def State.issueRead (s : State) (q : Fin 4) (a : Access) (i : Nat) (l : MLine) (r : Fin 64) : State :=
  let d := s.regions[r].d
  let m := d.port l.addr
  if !s.mps[m].alive then s.failLine q a.seq i 5
  else if !s.mps[m].free l.addr then s
  else
    let s := s.mpIssue m (.data q a.tid a.seq i) l.addr false 0 0 a.clsIn
    s.modLine q a.seq i fun l => { l with phase := .reading, lat := l.lat + (s.rt - l.t0) }

/-- The page of an address holds this data now, as far as its re-encryption goes: what was to be read of the line is no longer
asked for. -/
def State.bufferTakes (s : State) (w : Wing) (addr plain : Nat) : State :=
  s.modReenc w (addr / 4096 * 4096) fun e =>
    { e with need := e.need.erase (lineIx addr), raw := e.raw.filter (·.1 ≠ lineIx addr),
             got := e.got.filter (·.1 ≠ lineIx addr) ++ [(lineIx addr, plain, 1)] }

/-- Issuing the write of a line under its next counters (R194): nothing happens while its memory port, its counter line
or its tag line is not at hand; a key that has gone meanwhile denies it (R181). -/
def State.issueWrite (s : State) (q : Fin 4) (a : Access) (i : Nat) (l : MLine) (r : Fin 64) (plain : Nat) : State :=
  let d := s.regions[r].d
  let m := d.port l.addr
  let cls := a.clsIn
  if !s.mps[m].alive then s.failLine q a.seq i 5
  else if !s.mps[m].free l.addr then s
  else if d.mode = 0 then
    let s := s.mpIssue m (.data q a.tid a.seq i) l.addr true plain 0 cls
    s.modLine q a.seq i fun l => { l with phase := .writing }
  else match s.ctrLine r l.addr with
    | none => s.askChain r (d.ctrIx l.addr) cls
    | some c =>
      let ta := d.dataTagAddr l.addr
      if d.mode = 2 ∧ !s.sideband d l.addr ∧ (s.cached d.owner (ta / 64 * 64)).isNone then s.askTag r ta cls
      else if !s.itemDone (.mem q a.seq i) then s
      else
        let kix := s.lineKix r l.slot
        let (key, s) := s.lineKey r l.slot
        match key with
        | none => s.failLine q a.seq i 1
        | some key =>
          let major := majorOf c
          let minor := minorOf c (lineIx l.addr) + 1
          let cipher := lineCipher key kix l.addr major minor plain
          let tag := if d.mode = 2 then dataTag key kix l.addr major minor cipher else 0
          let s := s.setCtr r l.addr (setMinor c (lineIx l.addr) minor)
          let s := if d.mode = 2 ∧ !s.sideband d l.addr then s.putTag d.owner ta tag else s
          let s := (s.useSlot d.owner l.slot).mpIssue m (.data q a.tid a.seq i) l.addr true cipher tag cls
          let s := if (s.reencOf d.owner l.addr).any (·.draining) then s.bufferTakes d.owner l.addr plain else s
          s.modLine q a.seq i fun l => { l with phase := .writing, major := major, minor := minor }

/-- Starting the re-encryption of a page for a write (R207), through a page buffer where the region is pinned and one is
free (R208). A write that replaces its line whole, with `plain`, stands in the buffer from the start. -/
def State.startReenc (s : State) (q : Fin 4) (a : Access) (l : MLine) (r : Fin 64) (plain : Nat) (whole : Bool) (c : Nat) : State :=
  let d := s.regions[r].d
  let w := d.owner
  let page := l.addr / 4096 * 4096
  let fresh (j : Nat) : Bool := majorOf c = 0 ∧ minorOf c j = 0
  let need := (List.range 64).filter fun j => minorOf c j ≠ 0x7F ∧ !fresh j ∧ !(whole ∧ j = lineIx l.addr)
  let busy := (s.wing w).mpe.reencs.countP (·.buffered)
  let buffered := s.regions[r].pinned && decide (busy < 2)
  let s := if s.regions[r].pinned ∧ !buffered then s.countWing w .leadReencWait else s
  let e : Reenc := { page := page, region := r.val, q := q, tid := a.tid, seq := a.seq, mid := a.mid, cls := a.clsIn,
                     clsLane := max 1 a.cls, slot := l.slot.getD 0, need := need,
                     got := if buffered ∧ whole then [(lineIx l.addr, plain, 1)] else [], buffered := buffered }
  let s := s.modLine q a.seq (a.lines.findIdx fun x => x.addr = l.addr) fun l => { l with trig := true }
  s.modMpe w fun m => { m with reencs := m.reencs ++ [e] }

/-- Merging the written bytes of a beat into a line (R195). -/
def mergeLine (old new strb : Nat) : Nat :=
  (List.range 64).foldl (fun x i => if strb.testBit i then setFld x (8 * i) 8 (fld new (8 * i + 7) (8 * i)) else x) old

/-- A write applied to a page buffer: its line is written with the page (R208). A partial write changes its bytes of what the buffer
holds of the line. -/
def State.toBuffer (s : State) (q : Fin 4) (a : Access) (i : Nat) (w : Wing) (addr plain : Nat) (whole : Bool) : State :=
  let b := a.wbeats.getD i (0, 0)
  let held := (s.reencOf w addr).bind fun e => e.got.find? fun g => decide (g.1 = lineIx addr ∧ g.2.2 = 1)
  let x := if whole then plain else held.elim plain fun g => mergeLine g.2.1 b.1 b.2
  ((s.bufferTakes w addr x).modLine q a.seq i fun l => { l with phase := .writing, buf := true }).dropItem (.mem q a.seq i)

/-- Whether the write that started a page's re-encryption is still to be issued for a line. -/
def State.trigWaits (s : State) (e : Reenc) (j : Nat) : Bool :=
  (s.access e.q e.seq).any fun a => a.lines.any fun l =>
    l.trig ∧ l.addr = e.page + 64 * j ∧ l.phase ≠ .writing ∧ l.phase ≠ .done

/-- Whether a page buffer takes a write of a line (R208). While it fills, it takes every line but one that is still to be asked for,
whose write goes to memory under the old major counter where a minor counter is left (DESIGN CHOICE, assumption 27); once it is
full, it takes a line that is still to be written. -/
def State.bufferHas (s : State) (e : Reenc) (c j : Nat) : Bool :=
  if e.draining then e.writes.contains j || s.trigWaits e j
  else !e.need.contains j || decide (minorOf c j = 0x7E)

/-- The write that started a re-encryption is written under the new counters (R207 step 5), merged once more into what the page
buffer has come to hold. Where its own line failed the page's check, it ends as R195 says. -/
def State.issueTrig (s : State) (q : Fin 4) (a : Access) (i : Nat) (l : MLine) (r : Fin 64) (e : Reenc) (c plain : Nat)
    (whole : Bool) : State :=
  let j := lineIx l.addr
  let b := a.wbeats.getD i (0, 0)
  if minorOf c j = 0x7F then (s.endFailed q a.seq i 2).endBuffered l.addr 2
  else match (if e.buffered then e.got.find? (·.1 = j) else none) with
    | some g => s.issueWrite q a i l r (if whole then g.2.1 else mergeLine g.2.1 b.1 b.2)
    | none => s.issueWrite q a i l r plain

/-- A write that is ready to be encrypted: to a line at minor counter 0x7E, or a full-line write to a poisoned line, the
page is re-encrypted first; a page at the last major counter is read-only, but for the write that brought it there (R194, R207,
R209). -/
def State.tryWrite (s : State) (q : Fin 4) (a : Access) (i : Nat) (l : MLine) (r : Fin 64) (plain : Nat) (whole : Bool) :
    State :=
  let d := s.regions[r].d
  if d.mode = 0 then s.issueWrite q a i l r plain
  else match s.ctrLine r l.addr with
    | none => s.askChain r (d.ctrIx l.addr) a.clsIn
    | some c =>
      let j := lineIx l.addr
      let minor := minorOf c j
      let poisoned (e : Reenc) : Bool := decide (minor = 0x7F) && !whole && !e.got.any fun g => g.1 = j
      let trig := (s.reencOf d.owner l.addr).filter fun _ => l.trig
      match trig, s.reencOf d.owner l.addr with
      | some e, _ => if e.draining then s.issueTrig q a i l r e c plain whole else s
      | none, re =>
        if majorOf c = 2 ^ 64 - 1 then s.failLine q a.seq i 1
        else match re with
          | none =>
            if minor = 0x7F ∧ !whole then s.failLine q a.seq i 4
            else if minor = 0x7E ∨ minor = 0x7F then s.startReenc q a l r plain whole c
            else s.issueWrite q a i l r plain
          | some e =>
            if !e.buffered then s
            else if poisoned e then s.failLine q a.seq i 4
            else if s.bufferHas e c j then s.toBuffer q a i d.owner l.addr plain whole
            else if minor = 0x7E ∨ minor = 0x7F then s
            else s.issueWrite q a i l r plain

/-- Releasing a read line. -/
def State.releaseLine (s : State) (q : Fin 4) (a : Access) (i : Nat) (plain : Nat) (verified : Bool) : State :=
  s.modLine q a.seq i fun l => { l with plain := plain, verified := verified, released := true, status := 0 }

/-- The beat of a Lead read's line timed against its bound (R164, R165, R169). -/
def State.timeLine (s : State) (q : Fin 4) (a : Access) (l : MLine) : State :=
  let w := rqpWing q
  let bound := if l.verified then 9 else 4
  if l.lead ∧ bound < l.lat + (s.rt - l.t0) then
    let pinned : Bool := a.region.all fun r => s.regions[Fin.ofNat 64 r].pinned || decide (s.regions[Fin.ofNat 64 r].d.mode = 0)
    s.leadLate w (if l.verified then 3 else 2) (s.leadCond w l.outside pinned (s.wing w).ush.hold.isSome false l.wd)
  else s

/-- A counter line that came back and is not yet verified. -/
def State.ctrUnverified (s : State) (r : Fin 64) (addr : Nat) : Option Nat :=
  let d := s.regions[r].d
  ((s.wing d.owner).mpe.arrived.find? fun a => a.1 = d.mlineAddr (d.ctrIx addr)).map fun a => a.2.1

/-- Whether the engine releases a line of an access before it has verified (R193); its own reads it never acts on unverified. -/
def State.behind (s : State) (r : Fin 64) (a : Access) : Bool := a.op = 0 && !s.regions[r].d.vfirst && a.own.isNone

/-- The counters and the stored tag that belong to a line's data are taken, each as soon as it is at hand, before anything
else is written under new ones. A line to be released verify-behind takes its counters before they are verified (R193). -/
def State.captureLine (s : State) (q : Fin 4) (seq i : Nat) : State :=
  match s.access q seq with
  | none => s
  | some a => match a.lines[i]?, a.region with
    | some l, some rn =>
      let r : Fin 64 := Fin.ofNat 64 rn
      if l.phase ≠ .gotData ∨ s.regions[r].d.mode = 0 then s
      else
        let s := match (if l.tagged then none else if s.regions[r].d.mode = 2 then s.storedTag r l.addr l.tag else some 0) with
          | some t => s.modLine q seq i fun l => { l with tagged := true, tag := t }
          | none => s
        let take (c : Nat) (ok : Bool) : State := s.modLine q seq i fun l =>
          if l.known then { l with metaOk := l.metaOk || ok }
          else { l with known := true, metaOk := ok, major := majorOf c, minor := minorOf c (lineIx l.addr) }
        match s.ctrLine r l.addr, s.ctrUnverified r l.addr with
        | some c, _ => take c true
        | none, some c => if s.behind r a then take c false else s
        | none, none => s
    | _, _ => s

/-- The plaintext and the outcome of the tag check of a line whose data, counters and stored tag are held, under its key. -/
def State.checkLine (s : State) (r : Fin 64) (l : MLine) (key : Bytes) : Nat × Bool :=
  let d := s.regions[r].d
  if d.mode = 0 then (l.cipher, true)
  else
    let kix := s.lineKix r l.slot
    (lineCipher key kix l.addr l.major l.minor l.cipher,
     decide (d.mode = 1 ∨ l.tag = dataTag key kix l.addr l.major l.minor l.cipher))

/-- Whether a repair search for a line is under way: accesses to the line wait for it (R206). -/
def State.searching (s : State) (addr : Nat) : Bool :=
  s.rqps.any fun x => x.accs.any fun a => a.lines.any fun l => l.addr = addr ∧ l.phase = .repairing

/-- What a page buffer serves of a line (R208): a write applied to it, and once it is full what was read, or zeros for a line that
was fresh. -/
def State.pageBuffer (s : State) (r : Fin 64) (addr : Nat) : Option Nat :=
  match s.reencOf s.regions[r].d.owner addr, s.ctrLine r addr with
  | some e, some c =>
    let held := e.got.find? fun g => g.1 = lineIx addr
    let applied := s.rqps.any fun x => x.accs.any fun a => a.lines.any fun l => l.addr = addr ∧ l.buf ∧ l.phase ≠ .done
    if !e.buffered ∨ minorOf c (lineIx addr) = 0x7F ∧ !applied then none
    else if e.draining then
      (match held with
       | some g => if g.2.2 = 1 then some g.2.1 else none
       | none => some 0)
    else if applied then held.map fun g => g.2.1
    else none
  | _, _ => none

/-- Whether a line of a page is between its read and the taking of the counters and the tag that belong to it. -/
def State.pageReading (s : State) (page : Nat) : Bool :=
  s.rqps.any fun x => x.accs.any fun a => a.lines.any fun l =>
    l.addr / 4096 * 4096 = page ∧ (l.phase = .reading ∨ (l.phase = .gotData ∧ !(l.known ∧ l.tagged)))

/-- Whether a metadata line needed to reach metadata line `i` is one whose check has failed: the accesses under it keep
failing (R204). -/
def State.chainBad (s : State) (r : Fin 64) (i : Nat) : Bool :=
  let d := s.regions[r].d
  (((d.chain 9 i).map d.mlineAddr).takeWhile fun a => (s.cached d.owner a).isNone).any s.regions[r].badMeta.contains

/-! ## Checks of lines (R193, R195, R203, R206) -/

/-- A data tag has failed (R203, R206). A read's beat, where not yet presented, says that the tag was checked (R60). -/
def State.tagFailed (s : State) (q : Fin 4) (a : Access) (i : Nat) (l : MLine) (r : Fin 64) : State :=
  let kix := s.lineKix r l.slot
  if a.op = 1 then (s.poison r l.addr a.mid q kix).failLine q a.seq i 2
  else
    let s := ((s.countRegion r 3 1).logAddr r .memTagFail l.addr a.mid q kix).raiseAlarm .memIntegrity
    (s.modLine q a.seq i fun l => { l with verified := !l.released }).failLine q a.seq i 2

/-- A line is verified: a read is released, or settled where it was released before; a write goes on to its merge. -/
def State.verifiedLine (s : State) (q : Fin 4) (a : Access) (i : Nat) (l : MLine) (plain : Nat) : State :=
  if l.released then s.endLine q a.seq i id
  else (s.releaseLine q a i plain true).endLine q a.seq i id

/-- A check of a line has been made: it has passed, or goes to the repair search, or has failed. -/
def State.judgeLine (s : State) (q : Fin 4) (a : Access) (i : Nat) (l : MLine) (r : Fin 64) (ok : Bool)
    (pass : State → State) : State :=
  if ok then pass s
  else if s.regions[r].d.repair then s.modLine q a.seq i fun l => { l with phase := .repairing }
  else s.tagFailed q a i l r

/-- The checks of a read line complete (R193, R203): once its lane work is done and its counters are verified. -/
def State.verifyLine (s : State) (q : Fin 4) (a : Access) (i : Nat) (l : MLine) (r : Fin 64) : State :=
  if !s.itemDone (.mem q a.seq i) ∨ !l.metaOk ∨ !l.tagged then s
  else
    let (key, s) := s.lineKey r l.slot
    match key with
    | none => s.failLine q a.seq i 1
    | some key =>
      let s := if l.released then s else s.useSlot s.regions[r].d.owner l.slot
      let (plain, ok) := s.checkLine r l key
      s.judgeLine q a i l r ok fun s => s.verifiedLine q a i l plain

/-- Merging the written bytes of a partial write into its line (R195). -/
def State.merge (s : State) (q : Fin 4) (a : Access) (i : Nat) (x : Nat) : State :=
  let b := a.wbeats.getD i (0, 0)
  s.modLine q a.seq i fun l => { l with phase := .merged, plain := mergeLine x b.1 b.2 }

/-- The read of a partial write is verified, and its bytes are merged (R195). -/
def State.mergePartial (s : State) (q : Fin 4) (a : Access) (i : Nat) (l : MLine) (r : Fin 64) : State :=
  if l.phase = .repaired then s.merge q a i l.plain
  else if !s.itemDone (.mem q a.seq i) ∨ !l.metaOk ∨ !l.tagged then s
  else
    let (key, s) := s.lineKey r l.slot
    match key with
    | none => s.failLine q a.seq i 1
    | some key =>
      let s := s.useSlot s.regions[r].d.owner l.slot
      let (plain, ok) := s.checkLine r l key
      s.judgeLine q a i l r ok fun s => s.merge q a i plain

/-! ## Repair (R206) -/

/-- The bit masks of the 768 candidates. -/
def repairMasks : List (Nat × Nat) :=
  (List.range 512).map (fun i => (2 ^ i, i)) ++ (List.range 256).map fun k =>
    (2 ^ (2 * k) + 2 ^ (2 * k + 1), 2 * k + (2 * k + 1) * 2 ^ 16 + 2 ^ 31)

/-- The candidates of a stored line whose tag is `tag`: each with what TAG_REPAIRED names. -/
def repairs (key : Bytes) (kix addr major minor cipher tag : Nat) : List (Nat × Nat) :=
  repairMasks.filter fun c => dataTag key kix addr major minor (cipher ^^^ c.1) = tag

/-- The repair search of a line completes. Where one candidate matches, the corrected line is rewritten under its counters, where
they have not moved, and the access goes on with it. Nothing happens while the counter line or the memory port is not at
hand. -/
def State.repairLine (s : State) (q : Fin 4) (a : Access) (i : Nat) (l : MLine) (r : Fin 64) : State :=
  let d := s.regions[r].d
  let m := d.port l.addr
  let kix := s.lineKix r l.slot
  let (key, s) := s.lineKey r l.slot
  match key with
  | none => s.failLine q a.seq i 1
  | some key => match repairs key kix l.addr l.major l.minor l.cipher l.tag with
    | [(mask, arg)] =>
      let fixed := l.cipher ^^^ mask
      let plain := lineCipher key kix l.addr l.major l.minor fixed
      match s.ctrLine r l.addr with
      | none => s.askChain r (d.ctrIx l.addr) a.clsIn
      | some c =>
        let same := decide (majorOf c = l.major ∧ minorOf c (lineIx l.addr) = l.minor) && s.mps[m].alive
        if same ∧ !s.mps[m].free l.addr then s
        else
          let s := (s.logAddr r .tagRepaired l.addr a.mid q arg).countRegion r 5 1
          let s := if same then s.mpIssue m (.wback d.owner l.addr) l.addr true fixed l.tag a.clsIn else s
          if a.op = 1 then s.modLine q a.seq i fun l => { l with phase := .repaired, plain := plain }
          else if l.released then s.failLine q a.seq i 2
          else s.verifiedLine q a i l plain
    | c => (s.logAddr r .repairFailed l.addr a.mid q (if c.isEmpty then 0 else 1)).tagFailed q a i l r

/-! ## The work of a line (R192 to R195) -/

/-- A read line whose bytes are at hand is answered with them; a partial write merges them. -/
def State.atHand (s : State) (q : Fin 4) (a : Access) (i : Nat) (x : Nat) : State :=
  if a.op = 0 then (s.releaseLine q a i x true).endLine q a.seq i id
  else s.modLine q a.seq i fun l => { l with phase := .repaired, plain := x, status := 0 }

/-- A line of an access begins: what its counters say of it, where they are at hand, and the reads that it needs (R192). -/
def State.startLine (s : State) (q : Fin 4) (a : Access) (i : Nat) (l : MLine) (r : Fin 64) : State :=
  let d := s.regions[r].d
  let cls := a.clsIn
  let tag (s : State) : State := if d.mode = 2 ∧ !s.sideband d l.addr then s.askTag r (d.dataTagAddr l.addr) cls else s
  if a.op = 1 ∧ a.whole i then s.tryWrite q a i l r (a.wbeats.getD i (0, 0)).1 true
  else if d.mode = 0 then s.issueRead q a i l r
  else match s.pageBuffer r l.addr with
    | some x => s.atHand q a i x
    | none => match s.ctrLine r l.addr with
      | some c =>
        let minor := minorOf c (lineIx l.addr)
        if minor = 0x7F then s.failLine q a.seq i 4
        else if majorOf c = 0 ∧ minor = 0 then s.atHand q a i 0
        else (tag s).issueRead q a i l r
      | none => (tag (s.askChain r (d.ctrIx l.addr) cls)).issueRead q a i l r

/-- A line's data has come back (R192, R193): with its counters known it is released verify-behind where it may be, and it goes
on to its check. A line whose counters are not verified and read as fresh or poisoned is not released before they are (DESIGN
CHOICE, assumption 27). -/
def State.dataLine (s : State) (q : Fin 4) (a : Access) (i : Nat) (l : MLine) (r : Fin 64) (lost : Bool) : State :=
  let d := s.regions[r].d
  let cls := a.clsIn
  let ask (s : State) : State :=
    let s := s.askChain r (d.ctrIx l.addr) cls
    if d.mode = 2 ∧ !l.tagged ∧ !s.sideband d l.addr then s.askTag r (d.dataTagAddr l.addr) cls else s
  let special := decide (l.minor = 0x7F ∨ (l.major = 0 ∧ l.minor = 0))
  let release (s : State) (ok : Bool) : State :=
    let (key, s) := s.lineKey r l.slot
    match key with
    | none => s.failLine q a.seq i 1
    | some key => (s.useSlot d.owner l.slot).releaseLine q a i (s.checkLine r l key).1 ok
  let may := a.op = 0 ∧ !l.released ∧ s.itemDone (.mem q a.seq i)
  if d.mode = 0 then s.atHand q a i l.cipher
  else if lost ∧ !(l.known ∧ l.metaOk) then s.failLine q a.seq i 2
  else if !l.known then ask s
  else if !l.metaOk then
    let s := ask s
    if may ∧ s.behind r a ∧ !special then release s false else s
  else if l.minor = 0x7F then (if l.released then s.endLine q a.seq i id else s.failLine q a.seq i 4)
  else if l.major = 0 ∧ l.minor = 0 then (if l.released then s.endLine q a.seq i id else s.atHand q a i 0)
  else if a.op = 0 ∧ l.released ∧ d.mode = 1 then s.endLine q a.seq i id
  else if may ∧ d.mode = 1 then
    let s := release s true
    if (s.access q a.seq).any fun a => (a.lines[i]?).any fun l => l.phase ≠ .done then s.endLine q a.seq i id else s
  else
    let s := if l.tagged then s else ask s
    if may ∧ s.behind r a then release s false else s

/-- The engine checks the lines of its own accesses as their lane work ends. -/
def State.ownLine (s : State) (q : Fin 4) (seq i : Nat) : State :=
  match s.access q seq with
  | some a => match a.lines[i]?, a.region with
    | some l, some rn =>
      let r : Fin 64 := Fin.ofNat 64 rn
      if a.own.isNone then s
      else if l.phase = .repairing then s.repairLine q a i l r
      else if a.op = 1 ∧ (l.phase = .repaired ∨ (l.phase = .gotData ∧ l.known)) then s.mergePartial q a i l r
      else if a.op = 0 ∧ l.phase = .gotData ∧ l.known then s.verifyLine q a i l r
      else s
    | _, _ => s
  | none => s

/-- One line of an access goes on as far as it can without an outside event (R192 to R195). -/
def State.pumpLine (s : State) (q : Fin 4) (seq i : Nat) : State :=
  match s.access q seq with
  | none => s
  | some a => match a.lines[i]?, a.region with
    | some l, some rn =>
      let r : Fin 64 := Fin.ofNat 64 rn
      let d := s.regions[r].d
      let wait := (s.reencOf d.owner l.addr).any fun e => !(l.trig ∧ e.draining) ∧ !e.buffered
      let lost := !s.regions[r].badMeta.isEmpty && d.mode ≠ 0 && s.chainBad r (d.ctrIx l.addr)
      match l.phase with
      | .waiting =>
        if s.rqps[q].held a ∨ s.rqps[q].lineHeld a l.addr ∨ wait ∨ s.searching l.addr
            ∨ (a.op = 1 ∧ !l.trig ∧ s.merging q seq i l.addr) then s
        else
          let s := if a.op = 1 ∧ !a.whole i ∧ !l.part then
              (s.countRegion r 2 1).modLine q seq i fun l => { l with part := true } else s
          if lost then s.failLine q seq i 2 else s.startLine q a i l r
      | .gotData => s.dataLine q a i l r lost
      | .merged => if wait ∨ s.searching l.addr then s else if lost then s.failLine q seq i 2 else s.tryWrite q a i l r l.plain false
      | _ => s
    | _, _ => s

/-! ## Responses (R62, R69) -/

/-- Whether a wing's logger records a request port and the memory ports that serve it (R395). -/
def State.rhlMem (s : State) (q : Fin 4) : Bool :=
  let r := (s.wing (rqpWing q)).rhl
  r.st = .record ∨ r.cfg.rqpMask.testBit (q.val % 2)

/-- Response beats on D, each with its MEM_DATA record (R398). -/
def State.pushBeats (s : State) (q : Fin 4) (bs : List DBeat) : State :=
  let s := s.modRqp q fun x => { x with dq := x.dq ++ bs }
  if s.rhlMem q then
    bs.foldl (fun s b => s.rhlRec (rqpWing q) 0x06
      (leBytes 1 q.val ++ leBytes 1 (1 + b2n b.verified * 2) ++ leBytes 1 b.status ++ s.rhlDigest (leBytes 64 b.data)) (leBytes 1 b.tid) 3) s
  else s

/-- The beats that end an access: one per line of a read, else one (R62, R69). -/
def Access.beats (a : Access) (f : Nat → DBeat) : List DBeat :=
  if a.op = 0 then (List.range (a.alen + 1)).map f else [f a.alen]

/-- An access of the engine has ended: what it came to is kept until the unit that made it takes it. -/
def State.finishOwn (s : State) (q : Fin 4) (a : Access) (u : OwnUse) : State :=
  let st := match a.fixed with
    | some st => st
    | none => (a.lines.find? (·.status ≠ 0)).elim 0 MLine.status
  if a.fixed.isSome ∨ a.lines.all (·.phase = .done) then
    (s.modRqp q fun x => { x with accs := x.accs.filter (·.seq ≠ a.seq) }).modWing (rqpWing q) fun y =>
      { y with ownres := y.ownres ++ [(u, st, a.lines.flatMap fun l => leBytes 64 l.plain)] }
  else s

/-- Completing an access whose outcome is settled, presenting its response. One that shares a line with an earlier request of its
master is answered after it (R197), and one with the ATID of an earlier one after that (R69). One that is not performed, because
the Usher or the MPE denied it, is answered with that once its own curtain has ended, however that ends: for the MPE's denial the
spec does not say so (DESIGN CHOICE, assumption 26). -/
def State.finishAcc (s : State) (q : Fin 4) (seq : Nat) : State :=
  match s.access q seq with
  | none => s
  | some a => match a.own with
   | some u => s.finishOwn q a u
   | none =>
    if a.presented then
      (if a.lines.all (·.phase = .done) then s.modRqp q fun x => { x with accs := x.accs.filter (·.seq ≠ seq) } else s)
    else
      let kind := if a.op = 0 then 0 else if a.op = 2 then 2 else 1
      let dup := s.rqps[q].accs.any fun b => b.seq < seq ∧ b.own.isNone ∧ !b.presented ∧
        (b.tid = a.tid ∨ (b.mid = a.mid ∧ b.addrs.any a.addrs.contains))
      let drop (s : State) : State := s.modRqp q fun x => { x with accs := x.accs.filter (·.seq ≠ seq) }
      match a.fixed with
      | some st =>
        if dup ∨ (a.op = 1 ∧ !a.wdone) ∨ (st ≠ 6 ∧ a.curtain ≠ 0 ∧ a.cur.isNone) then s
        else (drop s).pushBeats q (a.beats fun k =>
          { tid := a.tid, kind := kind, status := st, data := 0, verified := false, last := decide (k = a.alen) })
      | none =>
        if a.op = 2 then
          (match a.cur with
           | some st => (drop s).pushBeats q [{ tid := a.tid, kind := 2, status := st, data := 0, verified := false, last := true }]
           | none => s)
        else if a.lines.all fun l => l.phase = .done ∨ (a.op = 0 ∧ l.released) then
          let st := (a.lines.find? (·.status ≠ 0)).elim 0 MLine.status
          let bs := a.beats fun k => match a.lines[k]? with
            | some l => { tid := a.tid, kind := kind, status := if a.op = 0 then l.status else st,
                          data := if a.op = 0 ∧ l.status = 0 then l.plain else 0, verified := a.op = 0 ∧ l.verified,
                          last := decide (k = a.alen) }
            | none => { tid := a.tid, kind := kind, status := st, data := 0, verified := false, last := true }
          let s := if a.op = 0 then a.lines.foldl (fun s l => s.timeLine q a l) s else s
          let s := (s.pushBeats q bs).modAcc q seq fun a => { a with presented := true }
          if a.lines.all (·.phase = .done) then drop s else s
        else s

/-- A curtain that ends otherwise than with OK ends the request that carries it (R202). -/
def State.curtainGate (s : State) (q : Fin 4) (seq : Nat) : State :=
  s.modAcc q seq fun a => match a.cur with
    | some st => if a.op ≠ 2 ∧ st ≠ 0 ∧ a.fixed.isNone ∧ a.lines.all (·.phase = .waiting)
        then { a with fixed := some st } else a
    | none => a

/-! ## Persist curtains, closing regions, sleep (R189, R201, R211, R212) -/

/-- Whether the vault's record of a region holds its present root and descriptor (R212). -/
def State.rootSaved (s : State) (r : Fin 64) : Bool :=
  let x := s.regions[r]
  decide (s.vlt.regionRec r.val = leBytes 8 x.root ++ (cmac (s.vlt.keys.ret.getD []) (x.d.checkBytes r.val)).take 8)

/-- Asking the vault to keep a region's root (R212). -/
def State.askRoot (s : State) (r : Fin 64) : State :=
  if s.regions[r].rootAsk ∨ s.rootSaved r ∨ s.pathLost s.regions[r].d.owner then s
  else (s.modRegion r fun x => { x with rootAsk := true }).modVlt fun v => { v with jq := v.jq ++ [.roots [r.val]] }

/-- Writing a region back as far as it goes now, and its root to the vault where it is retained. -/
def State.persistRegion (s : State) (r : Fin 64) (cls : Nat) : State :=
  let s := s.flushRegion r cls
  if s.regions[r].d.retain ∧ !s.unflushed r then s.askRoot r else s

/-- The lines that a curtain's master wrote on the port before it, each with its region. -/
def RqPort.touched (x : RqPort) (a : Access) : List (Nat × Nat) :=
  x.wregs.filterMap fun e => if e.1 = a.mid ∧ e.2.2.1 < a.seq then some (e.2.1, e.2.2.2) else none

/-- Whether every earlier write of a curtain's master on the port has ended. -/
def RqPort.writesDone (x : RqPort) (a : Access) : Bool :=
  x.accs.all fun b => decide (a.seq ≤ b.seq) || b.mid ≠ a.mid || b.op ≠ 1 || b.fixed.isSome || b.lines.all (·.phase = .done)

/-- The metadata that a persist curtain waits for (R201): of each line written, the counter line and every tree level to the
root, and in carve-out mode the tag lines of all these. -/
def State.flushList (s : State) (x : RqPort) (a : Access) : List (Nat × Nat × Bool) :=
  (x.touched a).foldl (fun l e =>
    let d := (s.regions[Fin.ofNat 64 e.1]).d
    if d.mode = 0 then l
    else
      let chain := d.chain 9 (d.ctrIx e.2)
      let tagIx (t : Nat) : Nat := d.mlines + (t / 64 - d.tagBase / 64)
      let tags := (if d.mode = 2 ∧ !s.sideband d e.2 then [tagIx (d.dataTagAddr e.2)] else [])
        ++ chain.filterMap fun j => if s.sideband d (d.mlineAddr j) then none else some (tagIx (d.metaTagAddr j))
      (chain ++ tags).foldl (fun l i => if l.any fun y => y.1 = e.1 ∧ y.2.1 = i then l else l ++ [(e.1, i, false)]) l) []

/-- Whether a line of such a list goes before another: a child before its parent, and all of them before the tag lines. -/
def RDesc.before (d : RDesc) (j i : Nat) : Bool :=
  if i < d.mlines then (d.parent j).any fun p => p.1 = i else decide (j < d.mlines)

/-- One line of a persist curtain's list goes on (R201): whether it is still waited for. -/
def State.flushLine (s : State) (l : List (Nat × Nat × Bool)) (e : Nat × Nat × Bool) (cls : Nat) :
    Option (Nat × Nat × Bool) × State :=
  let r : Fin 64 := Fin.ofNat 64 e.1
  let x := s.regions[r]
  let d := x.d
  let addr := d.lineAddr e.2.1
  let out := s.wbOut d.owner addr
  if x.st = .notInstalled ∨ x.st = .closed then (none, s)
  else if e.2.2 then (if out then some e else none, s)
  else if l.any fun y => y.1 = e.1 ∧ d.before y.2.1 e.2.1 then (some e, s)
  else match (s.wing d.owner).mpe.cache.find? (·.addr = addr) with
    | some c =>
      if c.dirty then
        let s := s.writeBack c cls
        (if (s.wing d.owner).mpe.cache.any fun y => y.addr = addr ∧ y.dirty then some e
          else if s.wbOut d.owner addr then some (e.1, e.2.1, true) else none, s)
      else (if out then some (e.1, e.2.1, true) else none, s)
    | none => (if out then some (e.1, e.2.1, true) else none, s)

/-- A persist curtain goes on: from the end of its writes its list stands; once that is empty, each region with RETAIN = 1 that
the writes touched is to have its root copied to the vault (R201, R212). -/
def State.pumpPersist (s : State) (q : Fin 4) (a : Access) : State :=
  if a.curtain ≠ 3 ∨ a.cur.isSome ∨ !s.rqps[q].writesDone a ∨ a.flush = some [] then s
  else
    let l := match a.flush with
      | some l => l
      | none => s.flushList s.rqps[q] a
    let (l', s) := l.foldl (fun (y : List (Nat × Nat × Bool) × State) e =>
      let (e', s) := y.2.flushLine l e a.clsIn
      (y.1 ++ e'.toList, s)) ([], s)
    let s := s.modAcc q a.seq fun a => { a with flush := some l' }
    if l'.isEmpty then
      (((s.rqps[q].touched a).map fun e => e.1).eraseDups).foldl (fun (s : State) rn =>
        let r : Fin 64 := Fin.ofNat 64 rn
        if !s.regions[r].d.retain ∨ s.regions[r].st = .notInstalled ∨ s.rootSaved r then s
        else
          let n := s.regions[r].saves + 1
          (s.askRoot r).modAcc q a.seq fun a => { a with saves := a.saves ++ [(rn, n)] }) s
    else s

/-- Whether what a persist curtain waits for has been done. -/
def State.persisted (s : State) (a : Access) : Bool :=
  decide (a.flush = some []) && a.saves.all fun e => decide (e.2 ≤ (s.regions[Fin.ofNat 64 e.1]).saves)

/-- Whether lines of a region are locked (R190). -/
def State.holdsLocks (s : State) (r : Fin 64) : Bool :=
  (s.wing s.regions[r].d.owner).mpe.cache.any fun c => c.locked ∧ c.region = r.val

/-- Write-backs that persist curtains, closing regions, sleep and changed pins ask for. -/
def State.pumpFlush (s : State) : State :=
  let s := (List.finRange 4).foldl (fun s q => s.rqps[q].accs.foldl (fun s a => s.pumpPersist q a) s) s
  (List.finRange 64).foldl (fun (s : State) (r : Fin 64) =>
    let x : Region := s.regions[r]
    let busy := s.rqps.any fun p => p.accs.any fun a => a.region = some r.val ∧ a.lines.any (·.phase ≠ .done)
    if x.st = .active ∧ !x.d.pin ∧ x.pinWait.isNone ∧ (x.pinned ∨ s.holdsLocks r) then s.flushRegion r 3
    else if (x.st = .closing ∨ s.pwr.saving) ∧ !busy ∧ x.st ≠ .notInstalled ∧ x.d.mode ≠ 0 then
      (if x.st = .closing then s.flushRegion r 3 else s.persistRegion r 3)
    else s) s

/-! ## INIT and pin fill (R179, R190) -/

/-- Whether some metadata line of a region has its tag in the tag area: under MP_MAP = 2 the two ports need not agree (R66,
R178). -/
def State.carvedMeta (s : State) (d : RDesc) : Bool :=
  if d.mpMap = 2 then (List.range d.mlines).any fun i => !s.sideband d (d.mlineAddr i) else !s.sideband d d.ctrBase

/-- Metadata writes that INIT makes: lines, then in carve-out mode the tag lines that hold their tags. -/
def State.initCount (s : State) (r : Fin 64) : Nat :=
  let d := s.regions[r].d
  if d.mode = 0 then 0 else if s.carvedMeta d then d.mlines + (8 * d.mlines + 63) / 64 else d.mlines

/-- The tag that INIT writes for metadata line `i`. -/
def State.initTag (s : State) (r : Fin 64) (i : Nat) : Nat :=
  let d := s.regions[r].d
  if i < d.mlines then metaTag ((s.treeKey r).getD []) r.val (d.mlineAddr i) 0 (decide (i < d.pages)) 0 else 0

/-- The next metadata write of a region in INIT; none while its tree key is refused (R254). -/
def State.pumpInit (s : State) (r : Fin 64) : State :=
  let x := s.regions[r]
  let d := x.d
  let i := x.initIx
  let going := s.mpUsed fun u => match u with
    | .init r' _ => r' = r
    | _ => false
  if x.st ≠ .init ∨ s.initCount r ≤ i ∨ going ∨ (d.mode ≠ 0 ∧ (s.treeKey r).isNone) then s
  else
    let tagLine := i - d.mlines
    let addr := if i < d.mlines then d.mlineAddr i else (d.tagBase + d.dataTags) + 64 * tagLine
    let data := if i < d.mlines then 0
      else (List.range 8).foldl (fun a k => a + s.initTag r (8 * tagLine + k) * 2 ^ (64 * k)) 0
    let m := d.port addr
    if s.mps[m].free addr then s.mpIssue m (.init r i) addr true data (if i < d.mlines then s.initTag r i else 0) 3 else s

/-- A change of PIN takes effect once the accesses that were in flight have ended (R190, R343): a fill begins, or the lines of
the region may be unlocked. -/
def State.pumpPin (s : State) (r : Fin 64) : State :=
  let x := s.regions[r]
  match x.pinWait with
  | some l =>
    if l.any fun e => s.rqps[e.1].accs.any fun a => a.seq = e.2 ∧ a.lines.any (·.phase ≠ .done) then s
    else s.modRegion r fun x => { x with pinWait := none, fillIx := if x.d.pin ∧ !x.pinned then some 0 else x.fillIx }
  | none => s

/-- The next metadata line of a pin fill: a line already cached is locked where it stands. -/
def State.pumpFill (s : State) (r : Fin 64) : State :=
  let x := s.regions[r]
  match x.fillIx with
  | some i =>
    if x.st ≠ .active ∨ x.d.mlines ≤ i then s
    else if s.chainBad r i then s.modRegion r fun x => { x with fillIx := some (i + 1) }
    else if (s.cached x.d.owner (x.d.mlineAddr i)).isSome then
      (if i < x.d.pages ∧ !s.arrayRoom x.d.owner ∧ (s.cached x.d.owner (x.d.mlineAddr i)).all (!·.locked) then s
       else (s.modMpe x.d.owner fun m => m.touch (x.d.mlineAddr i) fun c => { c with locked := true }).modRegion r fun x =>
        { x with fillIx := some (i + 1) })
    else s.askChain r i 3
  | none => s

/-! ## Verification of metadata that arrived (R192, R204) -/

/-- A metadata line failed its check: every access that waits for it fails, now and later (R204), and a pin fill goes on past it. -/
def State.treeFail (s : State) (r : Fin 64) (i : Nat) : State :=
  let d := s.regions[r].d
  let addr := d.mlineAddr i
  let s := s.modMpe d.owner fun m =>
    { m with arrived := m.arrived.filter fun a => !((d.mlineAt a.1).any fun j => (d.chain 9 j).contains i) }
  let s := ((s.log d.owner .treeTagFail r.val (addr % 2 ^ 32) (addr / 2 ^ 32) 0).countRegion r 4 1).raiseAlarm .memIntegrity
  let s := s.modRegion r fun x =>
    { x with badMeta := x.badMeta ++ [addr], fillIx := x.fillIx.map fun k => if (d.chain 9 k).contains i then k + 1 else k }
  s.failWaiting r addr 2

/-- The vault refuses the tree key of a region: nothing of its metadata can be checked, and the accesses that wait for it end with
DENIED (R254; DEDUCED, assumption 27). -/
def State.treeDenied (s : State) (r : Fin 64) : State :=
  let d := s.regions[r].d
  let gone := (s.wing d.owner).mpe.arrived.filter fun a => (d.mlineAt a.1).isSome
  let s := s.modMpe d.owner fun m => { m with arrived := m.arrived.filter fun a => (d.mlineAt a.1).isNone }
  gone.foldl (fun s a => s.failWaiting r a.1 1) s

/-- What waits for a metadata or tag line that cannot be read ends (R69, R207, R351): accesses with MEM_ERR, a re-encryption that
has not turned its page is abandoned, and a pin fill goes on past it, so that its pin comes to count without the line (DESIGN
CHOICE, assumption 27). -/
def State.metaLost (s : State) (w : Wing) (addr : Nat) : State :=
  match s.metaRegion w addr with
  | none => s
  | some r =>
    let d := s.regions[r].d
    let hit (k : Nat) : Bool := (d.chain 9 k).any fun j => d.mlineAddr j = addr ∨ d.metaTagAddr j / 64 * 64 = addr
    let tags (page : Nat) : Bool := d.mode = 2 && (List.range 64).any fun j => d.dataTagAddr (page + 64 * j) / 64 * 64 = addr
    let s := s.modRegion r fun x => { x with fillIx := x.fillIx.map fun k => if hit k then k + 1 else k }
    let s := s.modMpe w fun m =>
      { m with arrived := m.arrived.filter (fun a => !((d.mlineAt a.1).any hit))
               reencs := m.reencs.map fun e =>
                 if e.region = r.val ∧ (hit (d.ctrIx e.page) ∨ tags e.page) ∧ !e.draining then { e with failed := true } else e }
    s.failWaiting r addr 5

/-- The metadata and tag lines asked of a memory port that serves no access are lost (R351). -/
def State.pumpLost (s : State) (w : Wing) : State :=
  let l := (s.wing w).mpe.lost
  l.foldl (fun s a => s.metaLost w a) (s.modMpe w fun m => { m with lost := [] })

/-- Checking one arrived metadata line whose parent is at hand; what is missing for the check is asked for, and a tag line, which
carries no tag, needs none (R188). -/
def State.verifyOne (s : State) (w : Wing) (a : Nat × Nat × Nat) : State :=
  match s.metaRegion w a.1 with
  | none => s.modMpe w fun m => { m with arrived := m.arrived.filter (·.1 ≠ a.1) }
  | some r =>
    let d := s.regions[r].d
    match d.mlineAt a.1 with
    | none => s.cacheTake w r a
    | some i =>
      let ta := d.metaTagAddr i
      let tag := if s.sideband d a.1 then some a.2.2
        else (s.cached w (ta / 64 * 64)).map fun c => tagInLine c.data ta
      match s.parentCtr r i, tag with
      | some p, some t =>
        let (key, s) := s.readTree r
        match key with
        | some k =>
          if t = metaTag k r.val a.1 p (decide (i < d.pages)) a.2.1 then s.cacheTake w r a else s.treeFail r i
        | none => s.treeDenied r
      | none, _ => s.askParent r i (s.metaCls r a.1)
      | _, none => s.askTag r ta (s.metaCls r a.1)

/-- Checking arrived metadata, parents first. -/
def State.verifyMeta : Nat → Wing → State → State
  | 0, _, s => s
  | n + 1, w, s =>
    let s' := (s.wing w).mpe.arrived.foldl (fun s a => s.verifyOne w a) s
    if (s'.wing w).mpe.arrived.length = (s.wing w).mpe.arrived.length then s' else State.verifyMeta n w s'

/-! ## Page re-encryption (R207, R208) -/

/-- The key of a page's re-encryption, as its wing reads it. -/
def State.pageKey (s : State) (e : Reenc) : Option Bytes × State := s.lineKey (Fin.ofNat 64 e.region) (some e.slot)

/-- Whether a line of a page in re-encryption is on its way from memory. -/
def State.pageOut (s : State) (w : Wing) (page : Nat) : Bool := s.mpUsed fun u => match u with
  | .reenc w' p _ => decide (w' = w ∧ p = page)
  | _ => false

/-- A page's line goes to the dispatcher (R150), in the class of the write that started the re-encryption; it is no Lead item (R167;
DESIGN CHOICE, assumption 27). -/
def State.admitPage (s : State) (w : Wing) (e : Reenc) (j : Nat) : State :=
  s.admitItem w (.page w e.page j) (.slot e.slot) e.clsLane 4

/-- A line read for a re-encryption: deciphered and checked, repaired where that is on, else to be poisoned (R207). -/
def State.reencCheck (s : State) (w : Wing) (e : Reenc) (j cipher sb : Nat) : State :=
  let r : Fin 64 := Fin.ofNat 64 e.region
  let d := s.regions[r].d
  let addr := e.page + 64 * j
  match s.ctrLine r e.page, s.storedTag r addr sb with
  | some c, some tag =>
    let s := (s.modReenc w e.page fun e => { e with raw := e.raw.filter (·.1 ≠ j) }).dropItem (.page w e.page j)
    let (key, s) := s.pageKey e
    match key with
    | none => s.modReenc w e.page fun e => { e with failed := true }
    | some key =>
      let kix := s.lineKix r (some e.slot)
      let major := majorOf c
      let minor := minorOf c j
      let s := s.useSlot w (some e.slot)
      let put (s : State) (x : Nat) (ok : Nat) : State := s.modReenc w e.page fun e => { e with got := e.got ++ [(j, x, ok)] }
      let dec (x : Nat) : Nat := lineCipher key kix addr major minor x
      if d.mode ≠ 2 ∨ tag = dataTag key kix addr major minor cipher then put s (dec cipher) 1
      else if d.repair then
        (match repairs key kix addr major minor cipher tag with
         | [(mask, arg)] => put ((s.logAddr r .tagRepaired addr e.mid e.q arg).countRegion r 5 1) (dec (cipher ^^^ mask)) 1
         | l => put (s.logAddr r .repairFailed addr e.mid e.q (if l.isEmpty then 0 else 1)) 0 0)
      else put s 0 0
  | some _, none => s.askTag r (d.dataTagAddr addr) e.cls
  | none, _ => s

/-- The reads of a page in re-encryption that are still to be issued (R207 step 2). -/
def State.reencReads (s : State) (w : Wing) (e : Reenc) : State :=
  let r : Fin 64 := Fin.ofNat 64 e.region
  let d := s.regions[r].d
  let cls := e.cls
  if (s.ctrLine r e.page).isNone then s.askChain r (d.ctrIx e.page) cls
  else e.need.foldl (fun s j =>
    let addr := e.page + 64 * j
    let m := d.port addr
    if d.mode = 2 ∧ !s.sideband d addr ∧ (s.cached w (d.dataTagAddr addr / 64 * 64)).isNone then
      s.askTag r (d.dataTagAddr addr) cls
    else if !s.mps[m].alive then s.modReenc w e.page fun e => { e with failed := true, need := e.need.erase j }
    else if s.mps[m].free addr then
      ((s.mpIssue m (.reenc w e.page j) addr false 0 0 cls).admitPage w e j).modReenc w e.page fun e =>
        { e with need := e.need.erase j }
    else s) s

/-- Every line of a page is in: MAJOR advances, lines that did not verify are poisoned, and the writes begin (R207 steps 3 and
4). -/
def State.reencTurn (s : State) (w : Wing) (e : Reenc) (c : Nat) : State :=
  let r : Fin 64 := Fin.ofNat 64 e.region
  let good (j : Nat) : Bool := e.got.any fun g => g.1 = j ∧ g.2.2 = 1
  let trig := s.trigWaits e
  let bad (j : Nat) : Bool := (decide (minorOf c j = 0x7F) && !trig j && !good j) || e.got.any fun g => g.1 = j ∧ g.2.2 = 0
  let new := (List.range 64).foldl (fun x j => if bad j then setMinor x j 0x7F else x) ((majorOf c + 1) % 2 ^ 64)
  let writes := (List.range 64).filter fun j => !bad j ∧ !trig j
  let cleared := (List.range 64).filter fun j => minorOf c j = 0x7F ∧ (trig j ∨ good j)
  let s := (s.setCtr r e.page new).modReenc w e.page fun e => { e with draining := true, writes := writes }
  let s := cleared.foldl (fun s j => s.logAddr r .poisonCleared (e.page + 64 * j) e.mid e.q 0) s
  let s := e.got.foldl (fun s g => if g.2.2 = 0 then
    ((s.countRegion r 6 1).logAddr r .linePoisoned (e.page + 64 * g.1) e.mid e.q e.slot).raiseAlarm .memIntegrity else s) s
  writes.foldl (fun s j => s.admitPage w e j) s

/-- The writes of a page under its new major counter (R207 step 4), each once its lane work is done. -/
def State.reencWrites (s : State) (w : Wing) (e : Reenc) : State :=
  let r : Fin 64 := Fin.ofNat 64 e.region
  let d := s.regions[r].d
  let cls := e.cls
  e.writes.foldl (fun s j =>
    let addr := e.page + 64 * j
    let m := d.port addr
    match s.ctrLine r e.page, s.reencOf w e.page with
    | some c, some e =>
      let plain := ((e.got.find? (·.1 = j)).map fun g => g.2.1).getD 0
      let ta := d.dataTagAddr addr
      if d.mode = 2 ∧ !s.sideband d addr ∧ (s.cached w (ta / 64 * 64)).isNone then s.askTag r ta cls
      else if s.mps[m].alive ∧ s.mps[m].free addr ∧ s.itemDone (.page w e.page j) then
        let (key, s) := s.pageKey e
        let s := (s.modReenc w e.page fun e => { e with writes := e.writes.erase j }).dropItem (.page w e.page j)
        match key with
        | none => (s.poisonAs r addr e.mid e.q e.slot false).endBuffered addr 1
        | some key =>
          let kix := s.lineKix r (some e.slot)
          let cipher := lineCipher key kix addr (majorOf c) 0 plain
          let tag := if d.mode = 2 then dataTag key kix addr (majorOf c) 0 cipher else 0
          let s := if d.mode = 2 ∧ !s.sideband d addr then s.putTag w ta tag else s
          (s.useSlot w (some e.slot)).mpIssue m (.reenc w e.page j) addr true cipher tag cls
      else s
    | _, _ => s.askChain r (d.ctrIx e.page) cls) s

/-- The lines of a page that hold data and were not read for its re-encryption: where the write that was to replace one whole has
ended meanwhile, that one. -/
def State.unread (s : State) (e : Reenc) (c : Nat) : List Nat :=
  (List.range 64).filter fun j => minorOf c j ≠ 0x7F ∧ !(majorOf c = 0 ∧ minorOf c j = 0) ∧ !s.trigWaits e j
    ∧ e.got.all fun g => g.1 ≠ j

/-- A re-encryption goes on: its reads and their checks, and once every line is in the new counters and the writes. -/
def State.pumpReenc (s : State) (w : Wing) (e : Reenc) : State :=
  let r : Fin 64 := Fin.ofNat 64 e.region
  if e.draining then s.reencWrites w e
  else
    let s := e.raw.foldl (fun s x => if s.itemDone (.page w e.page x.1) then s.reencCheck w e x.1 x.2.1 x.2.2 else s) s
    let s := s.reencReads w e
    match s.reencOf w e.page, s.ctrLine r e.page with
    | some e, some c =>
      if e.need.isEmpty ∧ e.raw.isEmpty ∧ !s.pageOut w e.page ∧ !e.failed ∧ !s.pageReading e.page then
        (if (s.unread e c).isEmpty then s.reencTurn w e c else s.modReenc w e.page fun e' => { e' with need := s.unread e c })
      else s
    | _, _ => s

/-- A line read for a re-encryption came back; one that a write has replaced in the page buffer meanwhile is not needed. -/
def State.reencGot (s : State) (w : Wing) (page j cipher sb : Nat) : State :=
  s.modReenc w page fun e => if e.got.any fun g => g.1 = j then e else { e with raw := e.raw ++ [(j, cipher, sb)] }

/-- The lane work of a page that is no longer re-encrypted ends. -/
def State.dropPage (s : State) (w : Wing) (page : Nat) : State :=
  (List.range 64).foldl (fun s j => s.dropItem (.page w page j)) s

/-! ## What has been issued (R199, R229, R230) -/

/-- Whether a line's request has been accepted on a memory port, or the line has ended without one (R199, R229). -/
def State.lineIssued (s : State) (q : Fin 4) (a : Access) (i : Nat) (l : MLine) : Bool :=
  let shown := s.mps.any fun m => m.aq.any fun x => x.lines.any fun y => match y.use with
    | .data q' _ seq j => q' = q ∧ seq = a.seq ∧ j = i
    | .reenc _ page j => l.buf && decide (page + 64 * j = l.addr)
    | _ => false
  let waits := l.buf && s.regions.any fun r => (s.reencOf r.d.owner l.addr).any fun e =>
    !e.draining ∨ e.writes.contains (lineIx l.addr) ∨ s.trigWaits e (lineIx l.addr)
  match l.phase with
  | .done => true
  | .waiting => false
  | .reading => a.op = 0 && !shown
  | .writing => !shown && !waits
  | _ => a.op = 0

/-- Whether every line of an access has been issued or has ended. -/
def State.accIssued (s : State) (q : Fin 4) (a : Access) : Bool :=
  a.fixed.isSome || (List.range a.lines.length).all fun i => (a.lines[i]?).all fun l => s.lineIssued q a i l

/-- The accesses of a wing's request ports that have not drained (R229, R235): the port and the access. -/
def State.undrained (s : State) (w : Wing) : List (Fin 4 × Access) :=
  (List.finRange 4).flatMap fun q => if rqpWing q = w then
      (s.rqps[q].accs.filter fun a => a.op < 2 ∧ a.own.isNone ∧ !a.presented ∧ !s.accIssued q a).map fun a => (q, a) else []

/-- The access of a list that was accepted first. -/
def oldest : List (Fin 4 × Access) → Option (Fin 4 × Access)
  | [] => none
  | x :: t => match oldest t with
    | some y => if y.2.at' < x.2.at' then some y else some x
    | none => some x

/-- Whether an access of a request port is to a region of the other wing. -/
def State.crossAcc (s : State) (q : Fin 4) (a : Access) : Bool :=
  a.own.isNone && a.region.any fun r => decide (s.regions[Fin.ofNat 64 r].d.owner ≠ rqpWing q)

/-- The port that blocks an access, as USH_COMMIT codes it: the memory port that has not taken its line, else its request
port, which an access names too that the bridge holds up (R342). -/
def State.blockPort (s : State) (q : Fin 4) (a : Access) : Nat :=
  if s.crossAcc q a ∧ !s.bridgeOk then q.val
  else match (List.finRange 4).find? fun m => s.mps[m].aq.any fun x => x.lines.any fun l => match l.use with
      | .data q' _ seq _ => q' = q ∧ seq = a.seq
      | _ => false with
  | some m => 4 + m.val
  | none => q.val

/-- The drain of a wing's hold window (R229, R230): it ends, or 1.5 us run out and the port of the oldest access that has not
drained is noted. -/
def State.pumpDrain (s : State) (w : Wing) : State :=
  let u := (s.wing w).ush
  match u.hold with
  | none => s
  | some t =>
    if u.drained ∨ u.blocked.isSome then s
    else match oldest (s.undrained w) with
      | none => s.modWing w fun x => { x with ush := { x.ush with drained := true } }
      | some (q, a) => if s.rt < t + 1500 then s
        else s.modWing w fun x => { x with ush := { x.ush with blocked := some (s.blockPort q a) } }

/-! ## The whole engine -/

/-- Whether an access may go on: one that crosses to the other wing's region does so while the bridge carries it, or where it has
been answered: a write that is performed after its end, a read released before its check (R331, R333, R335). -/
def State.crossOk (s : State) (q : Fin 4) (a : Access) : Bool :=
  a.fixed.isSome || !s.crossAcc q a || s.bridgeOk || a.presented

/-- One pass over all the work of the memory side. -/
def State.pumpPass (s : State) : State :=
  let s := (List.finRange 4).foldl (fun s q => s.rqps[q].accs.foldl (fun s a =>
    (List.range a.lines.length).foldl (fun s i => s.captureLine q a.seq i) s) s) s
  let s := s.eachWing fun s w => (s.wing w).mpe.reencs.foldl (fun s e => s.pumpReenc w e) (s.pumpPoison w)
  let s := (List.finRange 4).foldl (fun s q => s.rqps[q].accs.foldl (fun s a =>
    let s := s.curtainGate q a.seq
    match s.access q a.seq with
    | some a =>
      if a.performing ∧ s.crossOk q a then
        (List.range a.lines.length).foldl (fun s i => (s.pumpLine q a.seq i).ownLine q a.seq i) s
      else s
    | none => s) s) s
  let s := s.pumpFlush
  let s := (List.finRange 64).foldl (fun s r => ((s.pumpInit r).pumpPin r).pumpFill r) s
  (List.finRange 4).foldl (fun s q => s.rqps[q].accs.foldl (fun s a =>
    if s.crossOk q a then s.finishAcc q a.seq else s) s) s

/-- The memory side goes on as far as it can: metadata is checked, then three passes settle what one event sets off. -/
def State.pump (s : State) : State :=
  let s := s.eachWing fun s w => State.verifyMeta 10 w (s.pumpLost w)
  s.pumpPass.pumpPass.pumpPass.eachWing fun s w => s.pumpDrain w

end Sys2Proof.Machine
end

