-- ==== Sys2Proof/Machine/CloseOps.lean ====
section
/-! DEFINITION. Closing (R343 to R345): for each unit its start, whether its work has completed, its end, and its forced
close. -/

namespace Sys2Proof.Machine

/-- The UNIT_CLOSED event (R378). -/
def State.logClosed (s : State) (w : Wing) (kind ix : Nat) (forced : Bool) : State :=
  s.log w .unitClosed 0 kind ix (b2n forced)

/-! ## Stream ports -/

/-- Whether a port has no staged frame, none inbound, none to be admitted again and none in release. -/
def Port.idle (x : Port) : Bool :=
  x.staging.isEmpty && x.inbound.isEmpty && x.readmit.isEmpty && x.lsOut.all fun o => o.done

/-- A port starts to close. -/
def State.startPortClose (s : State) (p : Fin 64) : State :=
  let x := s.ports[p]
  let met := decide (x.st = .opened) && (x.staging.any (s.rt ≤ ·.admRt) || x.inbound.any (·.admRt = s.rt))
  (s.closeGrant (portWing p) met).modPort p fun x => if x.st = .opened then { x with st := .closing, closeAt := s.rt } else x

/-- A port reports CLOSED. -/
def State.endPortClose (s : State) (p : Fin 64) (forced : Bool) : State :=
  ((s.modPort p fun x => { x with st := .closed, forced := forced }).logClosed (portWing p) 0 p.val forced).answerWaiters
    (.port p) .ok []

/-- The work of a port ends: staged frames are discarded with CLOSE_DISCARD, frames in delivery end with ABORTED, the
frame in release runs out as 0 (R147, R344, R299). -/
def State.dropPortWork (s : State) (p : Fin 64) : State :=
  let s := s.ports[p].staging.foldl (fun s f => s.discardOut p f .closeDiscard) s
  let s := s.ports[p].inbound.foldl (fun s f =>
    (if f.began.isSome then s.countFrameSa p f.sai .closeDiscard else s).abortIn p f) s
  (s.modPort p fun x => { x with readmit := [] }).zeroTail p

/-- The forced close of a port. -/
def State.forcePort (s : State) (p : Fin 64) : State :=
  if s.ports[p].st = .closed then s else (s.dropPortWork p).endPortClose p true

/-! ## Request ports -/

/-- Whether a request port has presented its last response. -/
def RqPort.idle (x : RqPort) : Bool := x.accs.all (fun a => a.own.isSome) && decide (x.dq.length ≤ 1)

/-- A request port starts to close. -/
def State.startRqpClose (s : State) (q : Fin 4) : State :=
  let met := decide (s.rqps[q].st = .opened) && s.rqps[q].accs.any (·.at' = s.rt)
  (s.closeGrant (rqpWing q) met).modRqp q fun x => if x.st = .opened then { x with st := .closing, closeAt := s.rt } else x

/-- A request port reports CLOSED. -/
def State.endRqpClose (s : State) (q : Fin 4) (forced : Bool) : State :=
  ((s.modRqp q fun x => { x with st := .closed, forced := forced, early := [], wregs := [], vfails := [], pfails := [],
                                 vlost := [], plost := [] }).logClosed (rqpWing q) 1 q.val forced).answerWaiters (.rqp q) .ok []

/-- Ending an access with a status at once: its lines leave their lanes, its response is presented; one of the engine has come to
that status. A read that was answered before its check leaves nothing behind for a later CURTAIN_VERIFY (DESIGN CHOICE,
assumption 26). -/
def State.endAcc (s : State) (q : Fin 4) (a : Access) (status : Nat) : State :=
  let s := a.lines.foldl (fun s l => s.trigEnds q a l status) s
  let s := (List.range a.lines.length).foldl (fun s i => s.dropItem (.mem q a.seq i)) s
  let s := s.modRqp q fun x => { x with accs := x.accs.filter (·.seq ≠ a.seq) }
  if a.presented then s
  else match a.own with
  | some u => s.modWing (rqpWing q) fun y => { y with ownres := y.ownres ++ [(u, status, [])] }
  | none =>
    let kind := if a.op = 0 then 0 else if a.op = 2 then 2 else 1
    s.pushBeats q (a.beats fun k =>
      { tid := a.tid, kind := kind, status := status, data := 0, verified := false, last := decide (k = a.alen) })

/-- The forced close of a request port: every access still under way ends with CLOSED. -/
def State.forceRqp (s : State) (q : Fin 4) : State :=
  if s.rqps[q].st = .closed then s
  else ((s.rqps[q].accs.filter (·.own.isNone)).foldl (fun s a => s.endAcc q a 7) s).endRqpClose q true

/-! ## SAs -/

/-- After an SA has reported CLOSED in one wing, its close command is answered once it has in all. -/
def State.saClosedAnswer (s : State) (sai : Nat) : State :=
  let open' (w : Wing) : Bool := (s.sa w sai).any fun x => x.st ≠ .closed
  if open' .sl ∨ open' .sr then s else s.answerWaiters (.sa sai) .ok []

/-- An SA reports CLOSED. -/
def State.reportSaClosed (s : State) (w : Wing) (sai : Nat) (forced : Bool) : State :=
  (s.endSaClose w sai forced).saClosedAnswer sai

/-- The forced close of an SA (R144, R147). -/
def State.forceSa (s : State) (w : Wing) (sai : Nat) : State :=
  match s.sa w sai with
  | some x =>
    if x.st = .closed then s
    else
      let s := (wingPorts w).foldl (fun s p =>
        let s := (s.ports[p].staging.filter fun f => f.sai = some sai).foldl (fun s f => s.discardOut p f .closeDiscard) s
        let s := (s.ports[p].inbound.filter fun f => f.sai = some sai).foldl (fun s f =>
          (if f.began.isSome then s.countFrameSa p f.sai .closeDiscard else s).abortIn p f) s
        if s.ports[p].lsOut.any fun o => o.sai = some sai ∧ !o.done then s.zeroTail p else s) s
      s.reportSaClosed w sai true
  | none => s

/-! ## Regions -/

/-- Whether an access still has a line of a region under way. -/
def State.regionBusy (s : State) (r : Fin 64) : Bool :=
  (s.rqps.any fun x => x.accs.any fun a => a.region = some r.val ∧ a.fixed.isNone ∧ a.lines.any fun l => l.phase ≠ .done)
    || (s.wing s.regions[r].d.owner).mpe.reencs.any (·.region = r.val)

/-- Whether INIT writes of a region are outstanding. -/
def State.initOut (s : State) (r : Fin 64) : Bool :=
  s.mpUsed fun u => match u with
    | .init r' _ => r' = r
    | _ => false

/-- A region starts to close. -/
def State.startRegionClose (s : State) (r : Fin 64) : State :=
  let met := s.rqps.any fun x => x.accs.any fun a => a.region = some r.val ∧ a.at' = s.rt
  (s.closeGrant s.regions[r].d.owner met).modRegion r fun x =>
    if x.st = .active ∨ x.st = .init then { x with st := .closing, closeAt := s.rt, fillIx := none, pinWait := none } else x

/-- A region reports CLOSED: its metadata leaves the cache, and none that is still on its way is taken. -/
def State.endRegionClose (s : State) (r : Fin 64) (forced : Bool) : State :=
  let w := s.regions[r].d.owner
  let s := (s.modRegion r fun x =>
    { x with st := .closed, forced := forced, pinned := false, fillIx := none, pinWait := none }).purgeMeta r
  ((s.logClosed w 2 r.val forced).answerWaiters (.region r) .ok []).answerWaiters (.pin r) .unitClosing []

/-- Whether a closing region may report CLOSED (R211). -/
def State.regionDone (s : State) (r : Fin 64) : Bool := !s.regionBusy r && !s.unflushed r && !s.initOut r

/-- The forced close of a region: waiting accesses end with CLOSED. -/
def State.forceRegion (s : State) (r : Fin 64) : State :=
  let x := s.regions[r]
  if x.st = .notInstalled ∨ x.st = .closed then s
  else
    let s := (List.finRange 4).foldl (fun s q =>
      (s.rqps[q].accs.filter fun a => a.region = some r.val ∧ a.fixed.isNone ∧ a.lines.any fun l => l.phase ≠ .done).foldl
        (fun s a => s.endAcc q a 7) s) s
    let s := (s.wing x.d.owner).mpe.reencs.foldl (fun s e => if e.region = r.val then s.dropPage x.d.owner e.page else s) s
    let s := s.modMpe x.d.owner fun m =>
      { m with reencs := m.reencs.filter (·.region ≠ r.val), poisons := m.poisons.filter (·.region ≠ r.val) }
    s.endRegionClose r true

/-! ## Key cells and slots (R274) -/

/-- Lines under way that use a memory key slot, or any slot that refers to a Class A cell. -/
def State.slotBusy (s : State) (f : Nat → Bool) : Bool :=
  s.rqps.any fun x => x.accs.any fun a => a.fixed.isNone ∧ a.lines.any fun l => l.phase ≠ .done ∧ l.slot.any f

/-- Whether a slot refers to a Class A key ID. -/
def Vault.refersTo (v : Vault) (id k : Nat) : Bool := (tget v.slots k).any fun e => e.ref = some id

/-- Ending the accesses that use key slots. -/
def State.dropSlotWork (s : State) (f : Nat → Bool) : State :=
  (List.finRange 4).foldl (fun s q =>
    (s.rqps[q].accs.filter fun a => a.fixed.isNone ∧ a.lines.any fun l => l.phase ≠ .done ∧ l.slot.any f).foldl
      (fun s a => s.endAcc q a 7) s) s

/-- A key is zeroised at the end of its close. A memory key slot or Class A cell is a unit and reports CLOSED (R343, R344);
its UNIT_CLOSED goes to SL, whose region close timeout applies. A session key is no unit of R344. -/
def State.endKeyClose (s : State) (l : KLoc) (forced : Bool) : State :=
  let s := s.modVlt fun v => v.dropKey l
  match l with
  | .classA id => (s.logClosed .sl 5 id forced).answerWaiters (.classA id) .ok []
  | .sess j => s.answerWaiters (.key (KLoc.sess j).ref) .ok []
  | .slot k => (s.logClosed .sl 5 k forced).answerWaiters (.key (KLoc.slot k).ref) .ok []

/-- A memory key slot or Class A cell starts to close. -/
def State.startKeyClose (s : State) (l : KLoc) : State :=
  let uses (k : Nat) : Bool := match l with
    | .slot k' => decide (k = k')
    | .classA id => s.vlt.refersTo id k
    | .sess _ => false
  let s := (List.finRange 4).foldl (fun (s : State) q =>
    s.closeGrant (rqpWing q) (s.rqps[q].accs.any fun a => a.at' = s.rt ∧ a.lines.any fun x => x.slot.any uses)) s
  match l with
  | .slot k => s.modVlt fun v => { v with slots := tmod v.slots k fun e =>
      if e.closeAt.isSome then e else { e with closeAt := some s.rt } }
  | .classA id => s.modVlt fun v => v.modKey (.classA id) fun k => if k.closeAt.isSome then k else { k with closeAt := some s.rt }
  | .sess _ => s

/-- Whether a region that has not reported CLOSED uses one of some slots as its tree key (R211). -/
def State.treeBusy (s : State) (f : Nat → Bool) : Bool :=
  s.regions.any fun x => x.st ≠ .notInstalled ∧ x.st ≠ .closed ∧ x.use = .host ∧ x.d.mode ≠ 0 ∧ f (fld x.d.treeKey 11 0)

/-- Lines under way under a key, and regions that it is the tree key of. -/
def State.keyBusy (s : State) (l : KLoc) : Bool :=
  match l with
  | .slot k => s.slotBusy (· = k) || s.treeBusy (· = k)
  | .classA id => s.slotBusy (s.vlt.refersTo id) || s.treeBusy (s.vlt.refersTo id)
  | .sess _ => false

/-- The forced close of a key: waiting accesses end with CLOSED. -/
def State.forceKey (s : State) (l : KLoc) : State :=
  let s := match l with
    | .slot k => s.dropSlotWork (· = k)
    | .classA id => s.dropSlotWork (s.vlt.refersTo id)
    | .sess _ => s
  s.endKeyClose l true

/-! ## Everything at once (R275, R299) -/

/-- A forced close of every SA, region and port. -/
def State.forceAll (s : State) : State :=
  let s := (List.finRange 64).foldl (fun s p => s.forcePort p) s
  let s := (List.finRange 4).foldl (fun s q => s.forceRqp q) s
  let s := s.eachWing fun s w => (s.wing w).sas.foldl (fun s e => s.forceSa w e.1) s
  (List.finRange 64).foldl (fun s r => s.forceRegion r) s

/-- A forced close of every SA, region and memory key user (R275). -/
def State.forceKeyUsers (s : State) : State :=
  let s := s.eachWing fun s w => (s.wing w).sas.foldl (fun s e => s.forceSa w e.1) s
  let s := (List.finRange 64).foldl (fun s r => s.forceRegion r) s
  s.dropSlotWork fun _ => true

end Sys2Proof.Machine
end

