-- ==== Sys2Proof/Machine/MboxOps.lean ====
section
/-! DEFINITION. The mailboxes: request fields (R369), the checks that come before a command (R369, R370), and the running
of a command on the wings that it names (R365, R371, R372). -/

namespace Sys2Proof.Machine

/-! ## The request (R369) -/

/-- OPCODE. -/
def Place.op (p : Place) : Nat := fld (wordAt p.words 0) 9 0

/-- CURTAIN. -/
def Place.curtain (p : Place) : Bool := bitOf (wordAt p.words 0) 10

/-- FORCE. -/
def Place.force (p : Place) : Bool := bitOf (wordAt p.words 0) 11

/-- LEN. -/
def Place.len (p : Place) : Nat := fld (wordAt p.words 0) 21 16

/-- WING. -/
def Place.wing (p : Place) : Nat := fld (wordAt p.words 0) 23 22

/-- SEQ. -/
def Place.seq (p : Place) : Nat := fld (wordAt p.words 1) 15 0

/-- The opcodes of the catalogue (R374). -/
def catalogue : List Nat :=
  (List.range 9).map (0x000 + ·) ++ (List.range 9).map (0x020 + ·) ++ (List.range 6).map (0x040 + ·)
    ++ (List.range 9).map (0x060 + ·) ++ (List.range 6).map (0x080 + ·) ++ (List.range 5).map (0x0A0 + ·)
    ++ [0x0C0, 0x0C1] ++ (List.range 6).map (0x0E0 + ·) ++ (List.range 7).map (0x100 + ·)
    ++ (List.range 15).map (0x120 + ·) ++ (List.range 10).map (0x140 + ·) ++ (List.range 7).map (0x160 + ·)
    ++ (List.range 8).map (0x180 + ·) ++ (List.range 5).map (0x1A0 + ·) ++ [0x1C0, 0x1E0, 0x1E1]

/-- What the catalogue says of a command: its opcode, the payload lengths it takes, its use of WING (0 none, 1 marked w,
2 marked w and taking one wing only, 3 marked w and carried out for both wings at once), whether it is a close command
(R369), and whether a tamper hold (R293) or IRON_HELD (R301) refuses it. -/
structure OpSpec where
  op : Nat
  lenMin : Nat
  lenMax : Nat
  wing : Nat := 0
  close : Bool := false
  hold : Bool := false
  iron : Bool := false
deriving DecidableEq, Repr

/-- What a command is carried out with: its channel, its words, the wing it is for now, whether it names both, FORCE, and
the owner recorded at its doorbell (R368). -/
structure Ctx where
  ch : Fin 8
  words : List Word
  wing : Wing
  both : Bool
  force : Bool
  group : Nat
  world : Bool
deriving DecidableEq, Repr

/-- Word `i` of the request buffer as a number. -/
def Ctx.w (c : Ctx) (i : Nat) : Nat := wordAt c.words i

/-- What carrying a command out comes to: an answer, a wait for a later event, or, where a key that it uses must first be read back
(R249), nothing yet: the command is carried out afterwards. -/
inductive Res where
  | done (s : State) (st : Status) (payload : List Word)
  | wait (s : State) (w : Wait)
  | later (s : State)
deriving DecidableEq, Repr

/-- A command that fails changes nothing (R369). -/
def failed (s : State) (st : Status) : Res := .done s st []

/-- A command that succeeds without a payload. -/
def good (s : State) : Res := .done s .ok []

/-! ## Who executes (R365, R368, R336, R358) -/

/-- Whether a core runs commands. -/
def Core.serves (c : Core) : Bool := c.running && !c.lost && !c.suspended && !c.reloading

/-- Whether a wing's channels are answered by the control port alone: HEADLESS, failed, or FAR_LOST (R336, R287). -/
def State.unserved (s : State) (w : Wing) : Bool :=
  s.isReady && ((s.wing w).headless || (s.wing w).failed || decide ((s.wing (otherWing w)).link = .farLost))

/-- Whether commands of a channel are executed now: on MBX0 alone by the boot ROM, else by the serving core. -/
def State.canServe (s : State) (ch : Fin 8) : Bool :=
  s.pwr.awake && match s.boot.phase with
    | .off => false
    | .loading => false
    | .held _ => ch = 0
    | .rom => ch = 0
    | .ready => (s.core s.chans[ch].served).serves && !s.unserved s.chans[ch].mapWing
        && (decide (s.chans[ch].served = homeCore s.chans[ch].mapWing) || s.joined)

/-- Whether the next command of a channel can be executed now. -/
def State.canRun (s : State) (ch : Fin 8) : Bool :=
  let c := s.chans[ch]
  s.canServe ch && c.waiting.isNone && c.head.any fun p => p.phase = .queued ∧ p.seq = c.expect.toNat

/-- Whether one wing reaches the other's units: neither has declared the bridge lost (R331, R336). -/
def State.reach (s : State) (a b : Wing) : Bool := a = b || (s.joined && !(s.wing b).failed)

/-! ## Checks before a command (R369, R370, R284, R285, R408, R336, R301, R293) -/

/-- Whether the engine, in its present step, answers an opcode at all. -/
def State.opPermitted (s : State) (op : Nat) : Bool :=
  match s.boot.phase with
  | .held st => op = 0x140 || op = 0x141 || (op = 0x146 && st = .epochExhausted)
  | .rom => [0x000, 0x002, 0x140, 0x141, 0x142, 0x143].contains op
  | _ => op ≠ 0x142 && op ≠ 0x143

/-- Whether the request's own fields are as its row states. -/
def Place.formOk (p : Place) (o : OpSpec) : Bool :=
  decide (fld (wordAt p.words 0) 15 12 = 0 ∧ fld (wordAt p.words 0) 31 24 = 0 ∧ fld (wordAt p.words 1) 31 16 = 0
    ∧ o.lenMin ≤ p.len ∧ p.len ≤ o.lenMax) && (o.close || !p.force)
    && decide (if o.wing = 0 then p.wing = 0 else if o.wing = 2 then p.wing ≤ 1 else p.wing ≤ 2)

/-- The wings that a request names. -/
def Place.wings (p : Place) (o : OpSpec) (serving : Wing) : List Wing :=
  if o.wing = 0 then [serving] else if p.wing = 0 then [.sl] else if p.wing = 1 then [.sr] else [.sl, .sr]

/-- The status with which a request fails before it is carried out, if it does. -/
def State.refuses (s : State) (ch : Fin 8) (p : Place) (o : OpSpec) : Option Status :=
  let w := s.chans[ch].mapWing
  if !s.opPermitted o.op then some .notPermitted
  else if !p.formOk o then some .malformed
  else if (s.wing w).rhl.st = .replaying ∧ o.op ≠ 0x1A1 then some .rhlState
  else if (p.wings o w).any fun x => !s.reach w x then some .wingUnreachable
  else if o.iron ∧ s.vlt.ironHeld then some .ironHeld
  else if o.hold ∧ s.vlt.hold then some .tamperHold
  else none

/-- Carrying a command out on the wings it names, SL first; where it fails in SR the SL part stands (R369). -/
def runWings (body : State → Ctx → Res) (c : Ctx) : List Wing → State → Res
  | [], s => good s
  | [w], s => body s { c with wing := w }
  | w :: ws, s => match body s { c with wing := w } with
    | .done s .ok _ => runWings body c ws s
    | r => r

/-- What the outcome of a command comes to; SEQ is expected again for one that is not carried out yet. -/
def Res.settle (ch : Fin 8) (expect : BitVec 16) : Res → State
  | .done s st payload => s.finish ch st payload
  | .wait s w => s.modHead ch fun p => { p with phase := .running w }
  | .later s => s.modChan ch fun c => { c with expect := expect }

/-- The command that a channel executes next, where it is this row's and its serving core runs: `sel` picks among the rows
that share an opcode. -/
def State.isNext (s : State) (ch : Fin 8) (op : Nat) (sel : Place → Bool) : Option Place :=
  match s.chans[ch].head with
  | some p => if p.phase = .queued ∧ p.op = op ∧ sel p ∧ s.canServe ch then some p else none
  | none => none

/-- Executing the command of a row: SEQ (R370), the checks before it, the command, and its curtain where it carries
one (R372). Nothing happens where the command that comes next is not this row's (assumption 1). -/
def State.runSel (s : State) (ch : Fin 8) (o : OpSpec) (sel : Place → Bool) (body : State → Ctx → Res) : State :=
  match s.isNext ch o.op sel with
  | none => s
  | some p =>
    let c := s.chans[ch]
    if p.seq ≠ c.expect.toNat then s.reply ch .seqError [wd c.expect.toNat]
    else
      let s := s.modChan ch fun c => { c with expect := c.expect + 1 }
      match s.refuses ch p o with
      | some st => s.finish ch st []
      | none =>
        let ws := p.wings o c.mapWing
        let x : Ctx := { ch := ch, words := p.words, wing := ws.headD c.mapWing, both := decide (ws.length = 2),
                         force := p.force, group := p.group, world := p.world }
        (if o.wing = 3 then body s x else runWings body x ws s).settle ch c.expect

/-- Executing the command of a row that has its opcode to itself. -/
def State.runCmd (s : State) (ch : Fin 8) (o : OpSpec) (body : State → Ctx → Res) : State :=
  s.runSel ch o (fun _ => true) body

/-! ## Reading payloads -/

/-- Bits [31:n] of a payload word are 0. -/
def Ctx.clean (c : Ctx) (i n : Nat) : Bool := decide (c.w i / 2 ^ n = 0)

/-- The rest of a check: MALFORMED where it fails. -/
def Res.need (ok : Bool) (s : State) (r : Res) : Res := if ok then r else failed s .malformed

/-- A port as a command names it. -/
def Ctx.port (c : Ctx) (i : Nat) : Fin 64 := Fin.ofNat 64 (c.w i)

/-- A command that uses a key which its wing has spilled waits until the key is back (R249). -/
def Res.keyBack (s : State) (c : Ctx) (l : KLoc) (r : Res) : Res :=
  let w := s.chans[c.ch].mapWing
  if s.isSpilled w l then .later (s.needKey w l) else r

/-- Failing with WING_UNREACHABLE where a command names an object of a wing that its serving wing cannot reach. -/
def Res.reaching (s : State) (c : Ctx) (w : Wing) (r : Res) : Res :=
  if s.reach (s.chans[c.ch].mapWing) w then r else failed s .wingUnreachable

end Sys2Proof.Machine
end

