-- ==== Sys2Proof/Machine/BoxCmds.lean ====
section
/-! DEFINITION. The Box Office and Green Room commands of the catalogue (R374): BOX_INSERT to BOX_TTL and GRQ_LIST to
GRQ_TIMEOUT. -/

namespace Sys2Proof.Machine

/-! ## Box Office -/

/-- The key that words name is well formed (R102, R103). -/
def boxNamed (l : List Word) (i : Nat) : Bool :=
  let e := BoxEnt.ofWords l i
  boxClean l i && boxKeyOk e.ktype e.key

/-- An entry as a command writes it is within R101 to R103; an UNKEYED entry holds SAI 0. -/
def boxEntOk (l : List Word) (i : Nat) : Bool :=
  let e := BoxEnt.ofWords l i
  boxNamed l i && decide (1 ≤ e.state ∧ (e.ktype = 1 → e.sai % 4 = 0))

/-- The entry that a command writes. -/
def boxGiven (l : List Word) (i : Nat) : BoxEnt :=
  let e := BoxEnt.ofWords l i
  if e.state = 1 then { e with sai := 0 } else e

/-- BOX_INSERT (R105): the insertion waits for the arbiter. -/
def execBoxInsert (ch : Fin 8) (s : State) : Host.Outcome State Fault Refusal :=
  .next (s.runCmd ch { op := 0x080, lenMin := 8, lenMax := 8, wing := 2 } fun s c =>
    if boxEntOk c.words 2 then
      let mine (r : BoxReq) : Bool := match r with
        | .command ch _ => ch = c.ch
        | .learned _ _ _ _ => false
      let s := s.eachWing fun s w => s.modBox w fun b => { b with reqs := b.reqs.filter fun r => !mine r }
      .wait (s.modBox c.wing fun b => { b with reqs := b.reqs ++ [.command c.ch (boxGiven c.words 2)] }) .box
    else failed s .boxInvalid)

/-- BOX_UPDATE (R108). -/
def execBoxUpdate (ch : Fin 8) (s : State) : Host.Outcome State Fault Refusal :=
  .next (s.runCmd ch { op := 0x081, lenMin := 8, lenMax := 8, wing := 1 } fun s c =>
    if boxEntOk c.words 2 then
      let e := boxGiven c.words 2
      match s.boxFind c.wing e.ktype e.key with
      | some (slot, old) => good (s.boxPut c.wing slot
          { old with state := e.state, sai := e.sai, port := e.port, lock := e.lock, conflict := false })
      | none => failed s .notFound
    else failed s .boxInvalid)

/-- BOX_REMOVE (R374). -/
def execBoxRemove (ch : Fin 8) (s : State) : Host.Outcome State Fault Refusal :=
  .next (s.runCmd ch { op := 0x082, lenMin := 8, lenMax := 8, wing := 1 } fun s c =>
    if boxNamed c.words 2 then
      let e := BoxEnt.ofWords c.words 2
      match s.boxFind c.wing e.ktype e.key with
      | some (slot, _) => good (s.boxClear c.wing slot)
      | none => failed s .notFound
    else failed s .boxInvalid)

/-- BOX_LOOKUP (R374). -/
def execBoxLookup (ch : Fin 8) (s : State) : Host.Outcome State Fault Refusal :=
  .next (s.runCmd ch { op := 0x083, lenMin := 8, lenMax := 8, wing := 2 } fun s c =>
    if boxNamed c.words 2 then
      let e := BoxEnt.ofWords c.words 2
      match s.boxFind c.wing e.ktype e.key with
      | some (slot, x) => .done s .ok (x.words false ++ [wd (locator slot)])
      | none => failed s .notFound
    else failed s .boxInvalid)

/-- BOX_READ_SLOT (R102, R377): an empty slot reads as zeros. -/
def execBoxReadSlot (ch : Fin 8) (s : State) : Host.Outcome State Fault Refusal :=
  .next (s.runCmd ch { op := 0x084, lenMin := 1, lenMax := 1, wing := 2 } fun s c =>
    match ofLocator (c.w 2) with
    | some slot =>
      let e := (tget (s.wing c.wing).box.slots slot).getD { ktype := 0, state := 0, port := 0, key := [] }
      .done s .ok (e.words (s.bad (.box c.wing slot)))
    | none => failed s .malformed)

/-- BOX_TTL (R107), staged. -/
def execBoxTtl (ch : Fin 8) (s : State) : Host.Outcome State Fault Refusal :=
  .next (s.runCmd ch { op := 0x085, lenMin := 1, lenMax := 1, wing := 1 } fun s c =>
    Res.need (decide (1 ≤ c.w 2 ∧ c.w 2 ≤ 600)) s (good (s.stage c.ch [c.wing] (.boxTtl c.wing (c.w 2)))))

/-! ## Green Room -/

/-- The frames of a queue, oldest first. -/
def Grq.queued (g : Grq) (q : Nat) : List GFrame := g.frames.filter fun f => f.queue = q

/-- The held frame that a handle names. -/
def Grq.held (g : Grq) (h : Nat) : Option GFrame := g.frames.find? fun f => f.handle = h

/-- Taking a frame out of a wing's Green Room. -/
def State.grqTake (s : State) (w : Wing) (h : Nat) : State :=
  s.modWing w fun x => { x with grq := { x.grq with frames := x.grq.frames.filter fun f => f.handle ≠ h } }

/-- GRQ_LIST (R114): up to seven descriptors. -/
def execGrqList (ch : Fin 8) (s : State) : Host.Outcome State Fault Refusal :=
  .next (s.runCmd ch { op := 0x0A0, lenMin := 2, lenMax := 2, wing := 2 } fun s c =>
    Res.need (decide (c.w 2 ≤ 2)) s
      (let fs := (s.wing c.wing).grq.queued (c.w 2)
       let out := (fs.drop (c.w 3)).take 7
       .done s .ok (wd (out.length + fs.length * 2 ^ 16) :: out.flatMap GFrame.words)))

/-- GRQ_READ (R115): up to 240 bytes of a held frame. -/
def execGrqRead (ch : Fin 8) (s : State) : Host.Outcome State Fault Refusal :=
  .next (s.runCmd ch { op := 0x0A1, lenMin := 2, lenMax := 2, wing := 2 } fun s c =>
    Res.need (c.clean 2 16 && c.clean 3 14) s
      (match (s.wing c.wing).grq.held (c.w 2) with
       | some f =>
         let b := (f.bytes.drop (c.w 3)).take 240
         .done s .ok (wd b.length :: bytesToWords b)
       | none => failed s .grqGone))

/-- GRQ_DROP (R115). -/
def execGrqDrop (ch : Fin 8) (s : State) : Host.Outcome State Fault Refusal :=
  .next (s.runCmd ch { op := 0x0A2, lenMin := 1, lenMax := 1, wing := 2 } fun s c =>
    Res.need (c.clean 2 16) s
      (match (s.wing c.wing).grq.held (c.w 2) with
       | some _ => good (s.grqTake c.wing (c.w 2))
       | none => failed s .grqGone))

/-- Why a held frame cannot be released now: its port is not open, or a tamper hold admits no new work (R293). -/
def State.releaseRefused (s : State) (p : Fin 64) : Option Status :=
  if s.ports[p].absent then some .portAbsent
  else match s.ports[p].st with
    | .closing => some .unitClosing
    | .closed => some .notPermitted
    | .opened => if s.vlt.hold then some .tamperHold else none

/-- GRQ_RELEASE (R115): an inbound frame is looked up again, an outbound one is admitted again, once its port's staging has room
(R134). -/
def execGrqRelease (ch : Fin 8) (s : State) : Host.Outcome State Fault Refusal :=
  .next (s.runCmd ch { op := 0x0A3, lenMin := 2, lenMax := 2, wing := 2 } fun s c =>
    Res.need (c.clean 2 16 && c.clean 3 21) s
      (match (s.wing c.wing).grq.held (c.w 2) with
       | none => failed s .grqGone
       | some f => match s.releaseRefused f.port with
         | some st => failed s st
         | none =>
           let s := s.grqTake c.wing (c.w 2)
           let f := { f with reason := 0, tag := 0, sai := 0xFFFFF, cls := if f.inb then 0 else f.clsIn,
                             saiIn := if !f.inb ∧ bitOf (c.w 3) 20 then fld (c.w 3) 19 0 else f.saiIn }
           good ((s.modPort f.port fun x => { x with readmit := x.readmit ++ [f] }).readmit f.port)))

/-- GRQ_TIMEOUT (R113), staged. -/
def execGrqTimeout (ch : Fin 8) (s : State) : Host.Outcome State Fault Refusal :=
  .next (s.runCmd ch { op := 0x0A4, lenMin := 2, lenMax := 2, wing := 1 } fun s c =>
    Res.need (decide (c.w 2 ≤ 2 ∧ 100 ≤ c.w 3 ∧ c.w 3 ≤ 1000000)) s
      (good (s.stage c.ch [c.wing] (.grqTimeout c.wing (Fin.ofNat 3 (c.w 2)) (c.w 3)))))

end Sys2Proof.Machine
end

