-- ==== Sys2Proof/Machine/KeyOps.lean ====
section
/-! DEFINITION. The shared parts of the vault's commands: key checks and placing (R253, R254, R267), the KUM checks and
actions (R260 to R263, R302), statements (R272, R273). -/

namespace Sys2Proof.Machine

/-! ## Reaching the vault -/

/-- The wing that serves the channel of a command. -/
def State.cmdWing (s : State) (c : Ctx) : Wing := s.chans[c.ch].mapWing

/-- A command that the vault carries out: KEY_PATH_LOST where the serving wing has lost its path (R276, R351). -/
def Res.vault (s : State) (c : Ctx) (r : Res) : Res := if s.pathLost (s.cmdWing c) then failed s .keyPathLost else r

/-- The VAULT record of an answer to a command (R397, R398). -/
def Res.vaultRec (c : Ctx) (sealed : Bytes) : Res → Res
  | .done s st payload => .done (s.rhlVault (s.cmdWing c) st.code sealed) st payload
  | .wait s w => .wait s w
  | .later s => .later s

/-! ## Keys that a command names -/

/-- What a command may do with a key it names (R254, R255): checked against the owner of the command's channel. -/
def State.commandKey (s : State) (c : Ctx) (l : KLoc) (u : Usage) : Except Status Key × State :=
  let w := s.chans[c.ch].mapWing
  let (k, s) := (s.needKey w l).readKey w l
  match k with
  | none => (.error .notFound, s)
  | some k =>
    if k.closeAt.isSome ∨ !k.allows u s.vlt.lcCode (some (c.group, c.world)) then (.error .keyRefused, s)
    else if k.ended s.rt then (.error .keySpent, s.spend w l)
    else (.ok k, s)

/-- Writing a memory key slot in each wing that the vault reaches (R247, R276): KEY_PATH_LOST where one is not. -/
def State.writeSlot (s : State) (n : Nat) (ref : Option Nat) (key : Option Key) : Status × State :=
  let e : Slot := { ref := ref, key := key, inSl := !s.pathLost .sl, inSr := !s.pathLost .sr }
  let s := s.modVlt fun v => { v with slots := tput v.slots n e }
  (if e.inSl ∧ e.inSr then .ok else .keyPathLost, s)

/-! ## Placing a Class B key (R253, R267) -/

/-- Whether a reference may be the target of a key operation: a session key or a memory key slot. -/
def KLoc.isTarget : KLoc → Bool
  | .sess _ => true
  | .slot _ => true
  | .classA _ => false

/-- Whether a location holds a key. -/
def State.holdsKey (s : State) (w : Wing) (l : KLoc) : Bool × State :=
  let (k, s) := s.readKey w l
  match l with
  | .slot n => (k.isSome || (tget s.vlt.slots n).isSome, s)
  | _ => (k.isSome, s)

/-- The status with which an operation that would place a key of the given attributes fails (R253, R267, R345). -/
def State.placeCheck (s : State) (c : Ctx) (l : KLoc) (a : KeyAttr) : Option Status × State :=
  let isSlot : Bool := match l with
    | .slot _ => true
    | _ => false
  let closing : Bool := match l with
    | .slot n => (tget s.vlt.slots n).any fun e => e.closeAt.isSome
    | _ => false
  if !a.clsB ∨ !ktypeOk a.ktype ∨ (isSlot ∧ (2 < a.ktype ∨ !a.usage.testBit Usage.memory.bit)) then (some .keyRefused, s)
  else if closing then (some .unitClosing, s)
  else
    let (b, s) := s.holdsKey (s.cmdWing c) l
    (if b then some .keySlotBusy else none, s)

/-- A key as an operation makes it: its bytes and salt in their fields, its time of entry. -/
def State.newKey (s : State) (a : KeyAttr) (key salt : Bytes) : Key :=
  { attr := a, key := padTo 32 (key.take (ktypeLen a.ktype)), salt := padTo 12 (salt.take (ktypeSalt a.ktype)),
    at' := s.rt }

/-- Placing it, by a command that a wing serves. -/
def State.placeKey (s : State) (w : Wing) (l : KLoc) (k : Key) : Status × State :=
  match l with
  | .sess j => (.ok, (s.modVlt fun v => { v with sess := tput v.sess j k }).freshKey w j)
  | .slot n => s.writeSlot n none (some k)
  | .classA _ => (.keyRefused, s)

/-- The bytes of a salt in three words. -/
def Ctx.salt (c : Ctx) (i : Nat) : Bytes := wordsToBytes (wordsAt c.words i 3)

/-! ## MKA (R268, assumption 10) -/

/-- The KDF of IEEE 802.1X: counter and length as its section 6.2.1 lays them out. -/
def mkaKdf (cak : Bytes) (label : String) (ckn : Bytes) (bits : Nat) : Bytes :=
  kdfCtr cak bits fun i => leBytes 1 i ++ asciiBytes label ++ [0] ++ padTo 16 (ckn.take 16) ++ beBytes 2 bits

/-- The attributes of a key derived from a CAK: its length, owners and states, with one use. -/
def mkaAttr (a : KeyAttr) (u : Usage) : KeyAttr :=
  { ktype := if ktypeLen a.ktype = 16 then 1 else 2, clsB := true, world0 := a.world0, world1 := a.world1,
    lcAllowed := a.lcAllowed, usage := 2 ^ u.bit, groups := a.groups }

/-! ## KUMs (R259 to R263) -/

/-- The highest OWNER_HASH slot burnt (R259). -/
def Vault.ownerSlot (v : Vault) : Option (Fin 4) := (List.finRange 4).reverse.find? fun i => v.owner[i].isSome

/-- The 104 words gathered on a channel. -/
def Chan.kumWords (c : Chan) : List Word := (List.range 104).map fun i => (tget c.kum i).getD 0

/-- ACTION of a KUM. -/
def kumAction (ws : List Word) : Nat := fld (wordAt ws 0) 23 16

/-- UPD_CTR of a KUM. -/
def kumCtr (ws : List Word) : Nat := wordsNat (wordsAt ws 7 2)

/-- KEY_ID of a KUM. -/
def kumKeyId (ws : List Word) : Nat := fld (wordAt ws 9) 6 0

/-- ARG of a KUM. -/
def kumArg (ws : List Word) : Nat := fld (wordAt ws 9) 15 8

/-- Format, action and reserved fields of a KUM, with those that its action leaves 0 (R260, R262). -/
def kumFormOk (ws : List Word) : Bool :=
  let a := kumAction ws
  let zero (i n : Nat) : Bool := (wordsAt ws i n).all (· = 0)
  decide (fld (wordAt ws 0) 15 0 = 1 ∧ 1 ≤ a ∧ a ≤ 5 ∧ fld (wordAt ws 0) 31 24 = 0 ∧ fld (wordAt ws 1) 31 2 = 0
      ∧ fld (wordAt ws 6) 15 9 = 0 ∧ fld (wordAt ws 9) 7 7 = 0 ∧ fld (wordAt ws 9) 31 16 = 0)
    && (decide (a = 1 ∨ a = 2) || decide (kumKeyId ws = 0)) && (decide (a = 5) || decide (kumArg ws = 0))
    && (if a = 1 then keyAttrClean ws 10 else zero 10 4) && (decide (a = 1 ∨ a = 3) || zero 38 24)
    && (decide (a = 1) || zero 62 14) && zero 76 4

/-- The transport key of a KUM (R261). -/
def kumKt (z : Bytes) (ctr : Nat) : Bytes :=
  (sha384 ([0, 0, 0, 1] ++ z ++ asciiBytes "KUMXPORT" ++ didBytes ++ leBytes 8 ctr)).take 32

/-- KEY and SALT of an INSTALL_KEY KUM; none where the unwrap fails (R261, R262). -/
def Vault.kumUnwrap (v : Vault) (ws : List Word) : Option (Bytes × Bytes) :=
  let q := ecPoint (wordsToBytes (wordsAt ws 38 24))
  if ecOnCurve q then
    ((ecdh (v.keys.trans.getD 1) q).bind fun z => kwUnwrap (kumKt z (kumCtr ws)) (wordsToBytes (wordsAt ws 62 14))).bind
      fun b => if (b.drop 44).all (· = 0) then some (b.take 32, (b.drop 32).take 12) else none
  else none

/-- The attributes that a KUM gives a key: GENERATED is the engine's. -/
def kumAttr (ws : List Word) : KeyAttr := { KeyAttr.ofWords ws 10 with generated := false }

/-- The checks of R262 up to the counter, before the retention key is needed. -/
def Vault.kumEarly (v : Vault) (ws : List Word) : Option Status :=
  if !kumFormOk ws then some .kumMalformed
  else if wordsToBytes (wordsAt ws 2 4) ≠ didBytes then some .kumWrongDevice
  else if wordAt ws 6 ≠ v.ctx then some .kumStale
  else match v.ownerSlot with
    | none => some .kumOwner
    | some i =>
      let pub := wordsToBytes (wordsAt ws 14 24)
      if wordAt ws 1 ≠ i.val ∨ some (sha384 pub) ≠ v.owner[i] then some .kumOwner
      else if !ecdsaVerify pub (sha384 (wordsToBytes (ws.take 80))) (wordsToBytes (wordsAt ws 80 24)) then
        some .kumSignature
      else none

/-- What the counter says of a KUM (R262): none where it is new, else the status of the answer. -/
def Vault.kumSeen (v : Vault) (ws : List Word) : Option Status :=
  if kumCtr ws ≤ v.updCtr then
    if kumCtr ws = v.updCtr ∧ sha384 (wordsToBytes ws) = v.kumDigest then some .alreadyCommitted else some .kumRollback
  else none

/-- The checks that follow for INSTALL_KEY, and the key it carries. -/
def Vault.kumKey (v : Vault) (ws : List Word) : Except Status (Bytes × Bytes) :=
  match v.kumUnwrap ws with
  | none => .error .kumUnwrap
  | some k =>
    let a := kumAttr ws
    if a.clsB ∨ !ktypeOk a.ktype ∨ a.wrapOut then .error .kumAttr else .ok k

/-- The 27 words of a blob (R257). -/
def blobWords (wkr : Bytes) (id version : Nat) (a : KeyAttr) (key salt : Bytes) : List Word :=
  let head := [wd (1 + id * 2 ^ 16)] ++ toWords 2 version ++ a.words
  head ++ bytesToWords (kwWrap wkr (wordsToBytes head ++ padTo 32 key ++ padTo 12 salt))

/-- The blob that an INSTALL_KEY KUM makes (R257, R263); none where its key does not pass the checks. -/
def Vault.kumBlob (v : Vault) (ws : List Word) : List Word :=
  match v.kumKey ws with
  | .ok (key, salt) => blobWords (v.keys.wkr.getD []) (kumKeyId ws) (kumCtr ws) (kumAttr ws) key salt
  | .error _ => []

/-- The stored result of the last KUM committed (R262, R264): its blob, if it made one. A later lease or root record keeps its
counter and digest and not its body; the blob is then made again from the KUM sent again, which gives the same words. -/
def Vault.storedResult (v : Vault) (ws : List Word) : List Word :=
  let b := v.journalBody
  if v.journalType = 1 then (if leNat (b.take 2) = 1 then (bytesToWords b).take 27 else [])
  else if kumAction ws = 1 then v.kumBlob ws else []

/-- Loading a key into a free Class A cell, if its ID is not loaded (R258, R263). -/
def State.loadClassA (s : State) (id : Nat) (k : Key) : State :=
  match s.vlt.cellOf id, s.vlt.freeCell with
  | none, some i => s.modVlt fun v => { v with classA := v.classA.set i (some (id, k)) }
  | _, _ => s

/-- A KUM rejected: its event and count go to the wing of its channel (R262, R446). -/
def State.kumReject (s : State) (c : Ctx) (ws : List Word) (st : Status) : Res :=
  let w := s.cmdWing c
  failed ((s.log w .kumRejected 0 st.code (kumCtr ws % 2 ^ 32) (kumCtr ws / 2 ^ 32)).countWing w .kumRejected) st

/-- Committing the record of a KUM; one that a power failure leaves committed and not applied is applied at start-up (R266). -/
def State.commitKum (s : State) (ws : List Word) (body : Bytes) (cut : JCut) (apply : State → State) : State :=
  let todo := if cut = .afterCommit then some (kumAction ws, kumKeyId ws, kumCtr ws) else none
  (s.modVlt fun v => { v with toApply := todo }).commitRecord 1 0 (kumCtr ws) (sha384 (wordsToBytes ws)) body cut apply

/-- The retention key under which a KUM is checked: derived from ROOT where the Iron took it (R302). -/
def Vault.kumRet (v : Vault) : Bytes := v.keys.ret.getD (retKeyOf v.ctx)

/-- What every KUM goes through (R262, R279, R301): `action` is its own conditions and effect. The KUM gathered is
cleared (R374). Where the retention key had to be derived again, the active slot's SLOT_MAC is checked before its counter is read
(R302); the KUM is rolled back where it fails. -/
def State.kum (s : State) (c : Ctx) (action : State → List Word → Res) : Res :=
  let ws := s.chans[c.ch].kumWords
  let s := s.modChan c.ch fun x => { x with kum := [] }
  Res.vault s c
    (if s.vlt.ironHeld ∧ ¬(kumAction ws = 4 ∨ (kumAction ws = 5 ∧ kumArg ws = 6)) then failed s .ironHeld
     else if s.vlt.lcCode = 6 then s.kumReject c ws .lcRefused
     else match s.vlt.kumEarly ws with
       | some st => s.kumReject c ws st
       | none =>
         if !slotMacOk s.vlt.kumRet s.vlt.sram s.vlt.activeSlot then s.kumReject c ws .kumRollback
         else match s.vlt.kumSeen ws with
         | some .alreadyCommitted => .done s .alreadyCommitted (s.vlt.storedResult ws)
         | some st => s.kumReject c ws st
         | none => action s ws)

/-! ## Statements (R272, R273) -/

/-- A statement before its signature: the context it is signed under, its subject, attributes, check value and public
key. -/
def State.statement (s : State) (kind ctx : Nat) (nonce : List Word) (subject : Nat) (attr : List Word) (kcv : Bytes)
    (pub : Bytes) : List Word :=
  [wd (1 + kind * 2 ^ 16), wd (s.boot.scriptLevel + s.boot.stambe * 2 ^ 16)] ++ bytesToWords didBytes ++ [wd ctx]
    ++ toWords 2 s.rt ++ nonce ++ [wd subject] ++ attr ++ toWords 2 (leNat kcv)
    ++ (if kind = 1 then [] else bytesToWords pub)

/-- Signing a statement with a secret drawn from the CTR_DRBG, and holding it on the channel. -/
def State.sign (s : State) (c : Ctx) (d : Nat) (st : List Word) : Res :=
  if !s.vlt.drbgOk then failed s .entropyFail
  else
    let (k, s) := s.draw 48
    let sig := ecdsaSign d (leNat k % (ecN - 1) + 1) (sha384 (wordsToBytes st))
    let full := st ++ bytesToWords sig
    .done (s.modChan c.ch fun x => { x with stmt := full }) .ok (full.take 62)

end Sys2Proof.Machine
end

