-- ==== Sys2Proof/Machine/TamperOps.lean ====
section
/-! DEFINITION. Tamper responses (R293 to R303), the Iron (R299, R300), life-cycle moves (R275, R281) and the settings
they read. -/

namespace Sys2Proof.Machine

/-! ## The tamper settings (R295 to R298) -/

/-- Word `i` of the tamper settings. -/
def Vault.setting (v : Vault) (i : Nat) : Nat := memRd32 v.sram (0xF00 + 4 * i)

/-- The settings written last take effect: at the next detection window (R297). -/
def Vault.useSettings (v : Vault) : Vault := { v with setNow := (List.range 11).map v.setting }

/-- Word `i` of the tamper settings in effect. -/
def Vault.live (v : Vault) (i : Nat) : Nat := v.setNow.getD i 0

/-- RESTORE in effect. -/
def Vault.restoring (v : Vault) : Bool := (v.live 10).testBit 16

/-- The level of a RESP word for a state code. -/
def respLevel (w lc : Nat) : Nat := fld w (2 * lc - 1) (2 * lc - 2)

/-- Writing SET_MAC under the retention key held. -/
def Vault.setMac (v : Vault) : Vault :=
  { v with sram := memPut v.sram 0xFF0 (cmac (v.keys.ret.getD []) (memBytes v.sram 0xF00 240)) }

/-- Whether SET_MAC verifies. -/
def Vault.setMacOk (v : Vault) : Bool :=
  decide (memBytes v.sram 0xFF0 16 = cmac (v.keys.ret.getD []) (memBytes v.sram 0xF00 240))

/-- A RESP word from the levels for the state codes 1 to 6. -/
def respWord (l : List Nat) : Nat := (l.zip (List.range 6)).foldl (fun a x => a + x.1 * 4 ^ x.2) 0

/-- The default levels of a source (R296). -/
def respDefault (s : Nat) : List Nat :=
  if s ≤ 3 then [0, 0, 1, 3, 2, 0] else if s = 4 then [0, 0, 1, 3, 3, 0] else if s = 5 then [0, 0, 1, 1, 1, 0]
  else if s ≤ 7 then [0, 0, 1, 2, 2, 0] else [0, 0, 0, 1, 1, 0]

/-- Writing the defaults with SEQ = 0 and RESTORE = 1 (R295). -/
def Vault.defaultSettings (v : Vault) : Vault :=
  let ws := [0xF + 1 * 2 ^ 8 + 1000 * 2 ^ 16] ++ (List.range 9).map (fun s => respWord (respDefault s)) ++ [2 ^ 16]
  Vault.setMac { v with sram := memPut v.sram 0xF00 (padTo 240 (ws.flatMap (leBytes 4))), setLost := false }

/-- Whether a pair is driven and classified (R292). -/
def Vault.tlpOn (v : Vault) (n : Nat) : Bool := (v.live 0).testBit n

/-- Whether a condition is a wiring fault (R289). -/
def wiringFault (c : Nat) : Bool := decide (1 ≤ c ∧ c ≤ 5)

/-- The level at which a condition of a source is answered now (R293, R295, R297, R298). -/
def Vault.level (v : Vault) (source cond : Nat) : Nat :=
  if source = 9 then 3
  else
    let l := respLevel (v.live (1 + source)) v.lcCode
    if (v.lcCode = 3 ∧ wiringFault cond) ∨ (v.restoring ∧ source ≤ 3) then min l 1 else l

/-- Whether every source whose present response is HOLD or IRON reads NORMAL, and has for `ns` nanoseconds of RT
(R294, R302). -/
def Vault.quiet (v : Vault) (ns : Nat) : Bool :=
  (List.finRange 10).all fun i => v.level i.val v.cond[i] < 2 || (v.cond[i] = 0 && decide (v.normalAt[i] + ns ≤ v.rt))

/-- The condition that a source reads. -/
def State.setCond (s : State) (i : Fin 10) (c : Nat) : State :=
  s.modVlt fun v =>
    { v with normalAt := if c = 0 ∧ v.cond[i] ≠ 0 then v.normalAt.set i v.rt else v.normalAt, cond := v.cond.set i c }

/-! ## The Iron (R299, R300) -/

/-- Steps 1, 3 and 4 of R299 in the vault: every key but the retention key, the slot that is not active, IRON_HELD with
HDR_MAC, then the retention key. HDR_MAC needs that key: where the cell is empty it is derived from ROOT for the step. -/
def Vault.iron (v : Vault) : Vault :=
  let v := { v with
    keys := { ret := some v.kumRet }, classA := Vector.replicate 64 none, slots := [], sess := [],
    sram := memPut v.sram (slotAddr (1 - v.activeSlot)) (List.replicate 192 0) }
  let v := v.setIron true
  { v with keys := { v.keys with ret := none } }

/-- A log that is lost (R411). -/
def Rhl.lost (r : Rhl) : Rhl :=
  { r with st := .off, held := false, full := [], cur := { seq := 0, rt0 := 0, before := 0 }, spilled := [], grants := [], post := none,
           afterSnap := none, targetReady := false, wrap := [] }

/-- Entering sleep, steps 5 to 7 of R420: RT, the epoch and the time are kept, the VDDC domain stops. -/
def State.toSleep (s : State) : State :=
  let ts := s.now .sl
  let valid := decide (s.sl.prm.st ≠ .unset)
  let s := s.copyRt.coreReset
  { s with pwr := { s.pwr with slpAck := true, entering := false },
           vlt := { s.vlt with sleepTs := ts, sleepValid := valid, msBase := s.vlt.vtimer } }

/-- The Iron, also where IRON_HELD stands already. With the block running, its last step is a forced close of everything; an Iron
during sleep entry ends it at once, also where start-up is held or not done (R424). -/
def State.iron (s : State) : State :=
  let s := s.modVlt Vault.iron
  let s := if s.boot.phase = .ready ∧ s.pwr.awake then
      s.forceAll.eachWing fun s w => s.modWing w fun x => { x with rhl := x.rhl.lost }
    else s
  if s.pwr.entering then s.toSleep else s

/-! ## Aborted operations (R275, R276, R281, R303) -/

/-- Whether FUSE_VPP is present (R77, R283 step 2), which asks for VDDH (R412) and VDDV. -/
def Power.railOk (p : Power) : Bool := p.fuseVpp && p.vddh && p.vddv

/-- Whether a copy may be burnt (R439): the rail is present, VDDV in its range, and TEMP reads no temperature out of range. Between
110 °C and TEMP's 125 °C no row tells, and a burn that Tj forbids answers as one without the rail (assumption 25). -/
def State.fuseOk (s : State) : Bool := s.pwr.railOk && decide (s.vlt.cond[7] = 0)

/-- The commands that are key operations, KUMs, blob loads, owner enrolment or attestation: MEMSLOT_LOAD, KUM_SUBMIT, OWNER_ENROL
to KEY_DESTROY, ATTEST. -/
def vaultOps : List Nat := [0x0E5, 0x122, 0x123, 0x124, 0x125, 0x126, 0x127, 0x128, 0x129, 0x12A, 0x12B, 0x12D]

/-- The OWNER_HASH slot, with its hash, that a command has come to burning once its checks have passed (R259, R263). -/
def State.hashBurn (s : State) (ch : Fin 8) (p : Place) : Option (Fin 4 × Bytes) :=
  let v := s.vlt
  if !s.fuseOk then none
  else if p.op = 0x123 then
    if v.lcCode = 3 ∧ v.owner[(0 : Fin 4)].isNone then some (0, wordsToBytes (wordsAt p.words 2 12)) else none
  else if p.op = 0x122 then
    let ws := s.chans[ch].kumWords
    match v.ownerSlot with
    | some i =>
      if kumAction ws = 3 ∧ i ≠ 3 ∧ !v.ironHeld ∧ v.lcCode ≠ 6 ∧ (v.kumEarly ws).isNone ∧ (v.kumSeen ws).isNone then
        some (i + 1, sha384 (wordsToBytes (wordsAt ws 38 24)))
      else none
    | none => none
  else none

/-- A burn of an owner hash is cut: no further copy starts (R303, R439), so that a free value says which of its bits read burnt; a slot
in which none does is blank. -/
def State.cutHash (s : State) (i : Fin 4) (h : Bytes) : State :=
  let got := (List.range h.length).map fun k => h.getD k 0 &&& BitVec.ofNat 8 (s.freeVal / 256 ^ k)
  let s := s.takeFree
  if got.all (· = 0) then s else s.modVlt fun v => { v with owner := v.owner.set i (some got) }

/-- The operation of a channel is aborted with a status: the close of a key that it waits for, or the command that comes next,
where that has begun. No row reports its beginning, so that a free value says whether it has (assumption 31). -/
def State.abortOp (s : State) (ch : Fin 8) (st : Status) : State :=
  let c := s.chans[ch]
  match c.waiting, c.head with
  | some (.key _), _ => s.finish ch st []
  | some (.classA _), _ => s.finish ch st []
  | _, some p =>
    if s.canRun ch ∧ vaultOps.contains p.op ∧ s.opPermitted p.op ∧ !s.vlt.hold then
      let begun := decide (s.freeVal % 2 = 1)
      let s := s.takeFree
      if begun then
        let s := match s.hashBurn ch p with
          | some (i, h) => if st = Status.tamperAbort ∨ st = Status.fuseRailAbsent then s.cutHash i h else s
          | none => s
        (s.modChan ch fun c => { c with expect := c.expect + 1, kum := if p.op = 0x122 then [] else c.kum }).reply ch st []
      else s
    else s
  | _, none => s

/-- Every key operation in progress is aborted: partial outputs are zeroised and no journal record commits. `keep` is the channel
of the move itself. -/
def State.abortVault (s : State) (st : Status) (keep : Option (Fin 8)) : State :=
  (List.finRange 8).foldl (fun s ch => if keep = some ch then s else s.abortOp ch st) s

/-- The rail is lost while owner hashes burn (R439). -/
def State.cutHashes (s : State) : State :=
  (List.finRange 8).foldl (fun s ch =>
    if s.chans[ch].head.any fun p => (s.hashBurn ch p).isSome then s.abortOp ch .fuseRailAbsent else s) s

/-! ## Detections (R293, R303) -/

/-- A detection at its level, with its entries. Where VDDC is off or the block asleep, HOLD acts as IRON. The entry's
event is IRON at that level, the event on the Call Boards TAMPER. -/
def State.detected (s : State) (source cond : Nat) : Detected :=
  let l0 := s.vlt.level source cond
  let l := if l0 = 2 ∧ !s.pwr.awake then 3 else l0
  let boot := decide (s.boot.phase ≠ .ready ∧ s.boot.phase ≠ .off)
  { level := l, rcb := s.rcbWords .sl (if l = 3 then .iron else .tamper) source cond l 0 boot
    sl := s.rcbWords .sl .tamper source cond l 0 boot, sr := s.rcbWords .sr .tamper source cond l 0 boot }

/-- The effects of a detection's level: each level includes those before it. An alarm that finds the VDDC domain in
reset or asleep is carried to the next start-up (R303). -/
def State.respond (s : State) (d : Detected) : State :=
  let up := s.pwr.awake && decide (s.boot.phase ≠ .off)
  let s := s.modVlt fun v => v.rcbPush d.rcb
  let s := if up then (s.logWords .sl d.sl).logWords .sr d.sr else s
  let s := if d.level = 0 then s
    else if up then s.raiseAlarm .tamper
    else s.modVlt fun v => { v with pendingSleep := v.pendingSleep ++ [d.level] }
  let s := if 2 ≤ d.level ∧ s.pwr.awake then
      (s.eachWing fun s w => s.rhlFreeze w 6 0).modVlt fun v => { v with hold := true }
    else s
  if d.level = 3 then s.iron else s

/-- Answering a TAMPER_ABORT or FUSE_RAIL_ABSENT to the command whose move is stopped (R281). -/
def State.stopBurn (s : State) (st : Status) : State :=
  (s.modVlt fun v => { v with burn := v.burn.map fun b => { b with stopped := true } }).answerWaiters .burn st []

/-- A detection. It aborts every key operation, KUM, blob load and attestation in progress (R303). One that meets the first or
second copy of a move stops it; the effects of one that meets the third follow the move (R281, R303). -/
def State.detect (s : State) (source cond : Nat) : State :=
  let kind := if source = 5 ∨ source = 6 ∨ source = 8 then 4 else 3
  let s := s.eachWing fun s w => s.rhlFault w kind (unitName 9 0 .sl)
  let s := if s.cpUp then s.abortVault .tamperAbort none else s
  let d := s.detected source cond
  match s.vlt.burn with
  | some b =>
    if b.stopped then s.respond d
    else if b.copy < 2 then (s.stopBurn .tamperAbort).respond d
    else s.modVlt fun v => { v with burn := some { b with after := b.after ++ [d] } }
  | none => s.respond d

/-- A source reading a condition: a change to one that is not NORMAL is a detection. -/
def State.sense (s : State) (i : Fin 10) (c : Nat) : State :=
  if s.vlt.cond[i] = c then s
  else
    let s := s.setCond i c
    if c = 0 then s else s.detect i.val c

/-- The emergency trigger (R392): a momentary condition. -/
def State.fireIron (s : State) : State :=
  (s.modVlt fun v => { v with normalAt := v.normalAt.set 9 v.rt }).detect 9 0xC

/-- The end of a temperature or overvoltage condition, which no row reports: a free value says, in each nanosecond,
whether it has ended. -/
def State.condReturn (s : State) : State :=
  let back (s : State) (i : Fin 10) : State :=
    if s.vlt.cond[i] = 8 ∨ s.vlt.cond[i] = 9 ∨ s.vlt.cond[i] = 0xA then
      let s' := s.takeFree
      if s.freeVal % 2 = 1 then s'.setCond i 0 else s'
    else s
  back (back (back s 5) 6) 7

/-- A health test of the entropy source has failed: the event and the KEY cause (R270, R387). -/
def State.entropyFailed (s : State) : State := (s.logBoth .entropyFail 0 0 0 0).raiseAlarm .key

/-! ## Life-cycle moves (R275, R281) -/

/-- Steps 3 to 6 of R275 in the vault: a NULL record with counter 0 and SET_MAC under the new context's retention key,
the header last, then the other keys, but none under IRON_HELD (R301) or in a held start-up (R284). -/
def Vault.moveContext (v : Vault) (held : Bool) : Vault :=
  let old := v.ctx
  let iron := v.ironHeld
  let v := { v with
    keys := {}, classA := Vector.replicate 64 none, slots := [], sess := [],
    sram := memPut v.sram 0x200 (List.replicate 0xC00 0), lcCode := lcCodeOf v.lc, lcSeq := lcSeqOf v.lc }
  let v := { v with keys := { ret := some (retKeyOf v.ctx) } }
  let digest := v.kumDigest
  let v := (v.prepare 0 0 0 digest []).commit
  let v := if v.lcCode = 4 then { v with sram := memWr32 v.sram 0xF28 (v.setting 10 % 2 ^ 16) } else v
  let v := { v.setMac with setLost := false }.newHeader old iron
  if held then { v with keys := {} } else if iron then v else v.deriveAll

/-- Steps 4 and 5 of R281 and the answer, then what detections of the third copy ask for. Key operations that the move finds in
progress are aborted first (R275 step 1). -/
def State.finishMove (s : State) (after : List Detected) : State :=
  let old := s.vlt.ctx
  let held := match s.boot.phase with
    | .held _ => true
    | _ => false
  let s := (s.abortVault .lcAbort none).forceKeyUsers
  let s := s.eachWing fun s w => s.modWing w fun x => { x with rhl := x.rhl.lost }
  let s := s.modVlt fun v => { v.moveContext held with burn := none }
  let s := s.logBoth .lcMoved 0 s.vlt.ctx old 0
  (after.foldl State.respond s).answerWaiters .burn .ok []

/-- Starting a move's burn: the first copy begins. -/
def State.beginBurn (s : State) (bit : Nat) : State := s.modVlt fun v => { v with burn := some { bit := bit, copy := 0 } }

/-- The logical bit of a move to a state code from the present state, if the move is one of R280: which bit, and
whether it needs a KUM. -/
def Vault.moveBit (v : Vault) (target : Nat) : Option (Nat × Bool) :=
  let fs := (fsBits v.lc).findIdx? (! ·)
  match v.lcCode, target with
  | 1, 2 => some (0, false)
  | 2, 3 => some (1, false)
  | 3, 4 => some (2, true)
  | 4, 5 => fs.map fun i => (3 + i, true)
  | 5, 4 => fs.map fun i => (3 + i, true)
  | 4, 6 => some (19, true)
  | 5, 6 => some (19, true)
  | 1, 6 => some (19, false)
  | 2, 6 => some (19, false)
  | 3, 6 => some (19, false)
  | _, _ => none

end Sys2Proof.Machine
end

