-- ==== Sys2Proof/Machine/StartOps.lean ====
section
/-! DEFINITION. Start-up (R283 to R287): its steps one after another, retention loss (R240), journal recovery (R265). -/

namespace Sys2Proof.Machine

/-! ## Retention (R239, R240, R265) -/

/-- Whether the header verifies under the retention key held and names the present context. -/
def Vault.headerOk (v : Vault) : Bool :=
  !v.sramLost && decide (memRd32 v.sram 4 = v.ctx ∧ memBytes v.sram 48 16 = hdrMac (v.keys.ret.getD []) v.sram)

/-- The slot that journal recovery takes; none where the retention SRAM counts as lost. -/
def Vault.recoverSlot (v : Vault) : Option Nat :=
  let ok := slotMacOk (v.keys.ret.getD []) v.sram
  match activeSlotOf v.sram with
  | some i => if ok i then some i else none
  | none =>
    let seq (i : Nat) : Nat := memRd32 v.sram (slotAddr i + 4)
    if ok 0 ∧ ok 1 then some (if (seq 1 + 2 ^ 32 - seq 0) % 2 ^ 32 < 2 ^ 31 then 1 else 0)
    else if ok 0 then some 0 else if ok 1 then some 1 else none

/-- Recovering the journal: the slot taken is named in the COMMIT word and applied again. -/
def Vault.recover (v : Vault) (i : Nat) : Vault :=
  Vault.applySlot { v with sram := memWr32 v.sram 0x40 (if i = 0 then 2 else 1) } i

/-- What the KUM of a record that is COMMITTED and not APPLIED still has to do to the tables (R263, R266, R302): its action, KEY_ID
and counter. The key of an INSTALL_KEY waits for the WKR. -/
def Vault.applyKum (v : Vault) : Vault :=
  match v.toApply with
  | some (1, id, ctr) => v.setVersion id ctr
  | some (2, id, ctr) => { (v.setVersion id ctr).unload id with toApply := none }
  | some (4, _, _) => { v.setIron false with toApply := none }
  | some _ => { v with toApply := none }
  | none => v

/-- The old context that a new header names (R240 step 3). -/
def Vault.oldContext (v : Vault) : Nat :=
  let w := memRd32 v.sram 4
  if !v.sramLost ∧ w ≠ v.ctx ∧ memBytes v.sram 48 16 = hdrMac (retKeyOf w) v.sram then w else v.ctx

/-- Whether a retention loss burns an epoch bit in a state (R240, R279). -/
def burnsEpoch (lc : Nat) : Bool := decide (3 ≤ lc ∧ lc ≤ 5)

/-- Prompt in both wings as start-up leaves it: UNSET, in epoch E + 1 (R308, R315). -/
def State.startPrompt (s : State) : State :=
  s.eachWing fun s w => s.modWing w fun x => { x with prm := { x.prm with epoch := (s.vlt.epochCopy + 1) % 2 ^ 16 } }

/-- FUSE_VPP falls while an EPOCH bit burns (R240, R439): the bit is sensed as `burnt` says from then on. -/
def State.cutEpoch (s : State) (burnt : Bool) : State :=
  { s.modVlt (fun v => { v with epoch := v.epoch + b2n burnt }) with pwr := { s.pwr with fuseVpp := false } }

/-- A retention loss: steps 1 to 6 of R240. The Class A cells go with it (R245), and RT restarts at 0 (R307). -/
def State.loseRetention (s : State) : State :=
  let prev := s.vlt.oldContext
  let burn := burnsEpoch s.vlt.lcCode
  let s := s.modVlt fun v =>
    let v := { v with epoch := if burn then v.epoch + 1 else v.epoch, sram := [], rcbFill := 0, toApply := none,
                      rcbUnread := false, classA := Vector.replicate 64 none, rt := 0, epochCopy := 0 }
    let v := ({ v with keys := { ret := some (retKeyOf v.ctx) } } : Vault).newHeader prev false
    let m := memPut v.sram 0x80 (recordBytes (v.keys.ret.getD []) 0 0 0 0 [] [])
    Vault.defaultSettings { v with sram := memWr32 m 0x40 2 }
  let s := s.startPrompt
  let s := if burn then s.rcb .epochBurnt s.vlt.epoch else s
  (s.rcb .retentionLost 0).rcb .tamperSettingsReset 0

/-! ## The steps (R283) -/

/-- A held state (R284): every key derived during this start-up is zeroised; the epoch in which Prompt runs is kept (R13, R308). -/
def State.holdStart (s : State) (st : Status) : State :=
  let s := s.modVlt fun v => { v with keys := {}, drbgOk := false }
  State.copyRt { s with boot := { s.boot with phase := .held st } }

/-- Step 1: completing partly burnt LC bits, as far as the rail allows, and deriving the state. -/
def State.readFuses (s : State) : State :=
  s.modVlt fun v =>
    let lc := if s.fuseOk then v.lc.map fun b => if b.any then LcBit.full else b else v.lc
    { v with lc := lc, lcCode := lcCodeOf lc, lcSeq := lcSeqOf lc }

/-- Seeding the loop and shield codes from the entropy source (R290). -/
def State.seedCodes (s : State) : State :=
  let s := s.modVlt fun v => { v with chipN := 0 }
  (List.finRange 24).foldl (fun (s : State) (i : Fin 24) =>
    let (b, s) := s.draw 8
    let s := s.eachWing fun s w => s.rhlSeed w 1 b
    s.modVlt fun v => { v with lines := v.lines.set i { lfsr := BitVec.ofNat 64 (leNat b) } }) s

/-- Whether a condition code is one that a source can detect (R289). -/
def condOf (source c : Nat) : Bool :=
  if source ≤ 3 then decide (1 ≤ c ∧ c ≤ 6) else if source = 4 then decide (1 ≤ c ∧ c ≤ 6 ∧ c ≠ 5)
  else if source ≤ 6 then decide (c = 7 ∨ c = 8) else if source = 7 then decide (c = 9 ∨ c = 0xA)
  else decide (source = 8 ∧ c = 0xB)

/-- Step 4's detection windows: each enabled source reads NORMAL or is detected. Answers whether start-up is held: a loop
pair in restoration does not hold it (R298). -/
def State.bootWindows (s : State) (conds : List Nat) : Bool × State :=
  (List.finRange 9).foldl (fun (a : Bool × State) i =>
    let s := a.2
    let c := conds.getD i.val 0
    let j : Fin 10 := i.castSucc
    if (i.val < 4 ∧ !s.vlt.tlpOn i.val) ∨ !condOf i.val c then (a.1, (s.setCond j 0))
    else (a.1 || !(decide (i.val < 4) && s.vlt.restoring), (s.setCond j c).detect i.val c)) (false, s)

/-- Step 4: the retention key, the tamper settings and the windows. -/
def State.checkTamper (s : State) (conds : List Nat) : Bool × State :=
  let s := s.modVlt fun v => { v with keys := { v.keys with ret := some (retKeyOf v.ctx) } }
  let s := if !s.vlt.setLost ∧ s.vlt.setMacOk then s
    else (s.modVlt Vault.defaultSettings).rcb .tamperSettingsReset 0
  (s.modVlt Vault.useSettings).bootWindows conds

/-- RT at a start-up with valid retention (R307). -/
def Vault.resumeRt (v : Vault) : Nat := v.rtCopy + 1000000 + (v.vtimer - v.vtCopy) * 12 / 10

/-- Step 5: the header and the journal, or a retention loss; none where every epoch bit is burnt, in any state (R240, R280). -/
def State.checkRetention (s : State) : Option State :=
  match (if s.vlt.headerOk then s.vlt.recoverSlot else none) with
  | some i => some (s.modVlt fun v => { (v.recover i).applyKum with rt := v.resumeRt, rtLive := true })
  | none => if 256 ≤ s.vlt.epoch then none else some (s.loseRetention.modVlt fun v => { v with rtLive := true })

/-- Whether step 5 burns an EPOCH bit. -/
def State.losesEpoch (s : State) : Bool :=
  (if s.vlt.headerOk then s.vlt.recoverSlot else none).isNone && burnsEpoch s.vlt.lcCode && decide (s.vlt.epoch < 256)

/-- Step 6: the boot nonce, the Box Office seeds and the permutation of the key cells. -/
def State.drawBoot (s : State) : State :=
  let s := s.modVlt fun v => { v with drbgOk := true }
  let (nonce, s) := s.draw 16
  let s := s.modVlt fun v => { v with bootNonce := nonce }
  let s := s.eachWing fun s w =>
    let (a, s) := s.draw 4
    let (b, s) := s.draw 4
    (s.modWing w fun x => { x with box := { x.box with seed0 := wd (leNat a), seed1 := wd (leNat b) } }).rhlSeed w 0 (a ++ b)
  let (p, s) := s.draw 16
  s.modVlt fun v => { v with perm := p, maskDraw := v.drbgN, drbgN := v.drbgN + 1 }

/-- Step 9: the stores are clear, the boot ROM runs; RT is copied with the epoch of the wings (R307, R308). -/
def State.bootReady (s : State) : State :=
  let s := s.modVlt fun v =>
    { v with reseedAt := v.rt, maskAt := v.rt, normalAt := Vector.replicate 10 v.rt }
  let s := s.eachWing fun s w => s.modWing w fun x => { x with cbd := {} }
  State.copyRt { s with boot := { s.boot with phase := .rom } }

/-- The key of an INSTALL_KEY record that a power failure kept from being applied: its blob is unwrapped and, if its KEY_ID is not
loaded, the key enters a free Class A cell (R263, R266). -/
def State.applyBlob (s : State) : State :=
  match s.vlt.toApply with
  | some (1, id, _) =>
    let blob := (bytesToWords s.vlt.journalBody).take 27
    let s := s.modVlt fun v => { v with toApply := none }
    match kwUnwrap (s.vlt.keys.wkr.getD []) (wordsToBytes (wordsAt blob 7 20)), s.vlt.cellOf id, s.vlt.freeCell with
    | some m, none, some i => s.modVlt fun v => { v with classA := v.classA.set i (some (id,
        { attr := KeyAttr.ofWords blob 3, key := (m.drop 28).take 32, salt := (m.drop 60).take 12, at' := v.rt })) }
    | _, _, _ => s
  | _ => s

/-- Steps 5 to 9. -/
def State.startTail (s : State) (o : StartObs) : State :=
  match s.checkRetention, (if s.losesEpoch then o.epochCut else none) with
  | none, _ => s.holdStart .epochExhausted
  | some _, some burnt => (s.cutEpoch burnt).holdStart .fuseRailAbsent
  | some s, none =>
    if !o.drbgOk then s.entropyFailed.holdStart .entropyFail
    else
      let s := s.drawBoot
      let s := if s.vlt.ironHeld then s else (s.modVlt Vault.deriveAll).applyBlob
      if !o.katOk then s.holdStart .katFail else s.bootReady

/-- Steps 1 to 4, then the rest. -/
def State.startSteps (s : State) (o : StartObs) : State :=
  let s := s.readFuses
  if !lcValid s.vlt.lc then s.holdStart .lcFuseInvalid
  else if !s.pwr.railOk ∨ s.vlt.lc.any (fun b => b.any && b != LcBit.full) then s.holdStart .fuseRailAbsent
  else if !o.entropyOk then s.entropyFailed.holdStart .entropyFail
  else
    let (held, s) := s.seedCodes.checkTamper o.conds
    if held then s.holdStart .tamperAtBoot else s.startTail o

/-- Whether the vault has stopped holding the VDDC domain in reset (R414). -/
def State.outOfHold (s : State) : Bool := s.pwr.vddc && s.pwr.vddv && s.pwr.holdOver

/-- Whether start-up can run now (R283, R414); in sleep a release with SLP_REQ still 1 has no effect (R422). -/
def State.canStart (s : State) : Bool :=
  decide (s.boot.phase = .off) && s.outOfHold && !(s.pwr.slpAck && s.pwr.slpReq)

/-- Start-up: each memory port's MPn_SB_PRESENT is sampled (R65), and the levels that detections in sleep left raise their
alarm (R303). -/
def State.startUp (s : State) (o : StartObs) : State :=
  let alarm := s.vlt.pendingSleep.any fun l => 1 ≤ l
  let s := { s with
    pwr := { s.pwr with coreRst := false, slpAck := false }
    boot := { s.boot with phase := .rom }
    mps := Vector.ofFn fun (m : Fin 4) => { s.mps[m] with sb := o.sb.getD m.val s.mps[m].sb }
    vlt := { s.vlt with msBase := s.vlt.vtimer, pendingSleep := [] } }
  let s := s.startPrompt.startSteps o
  if alarm then s.raiseAlarm .tamper else s

end Sys2Proof.Machine
end

