-- ==== Sys2Proof/Machine/CpOps.lean ====
section
/-! DEFINITION. The control port (R70, R71): the register window and its read values (R380 to R391), the ownership check
(R367, R381), the zeroise sequence (R392), interrupt lines (R75, R385, R386). -/

namespace Sys2Proof.Machine

/-! ## Ownership (R367, R380, R381) -/

/-- Whether the control port takes accesses: the domain does, and CP_RST_N is released (R48). -/
def State.cpTakes (s : State) : Bool := s.cpUp && !s.pwr.cpRst

/-- The ownership check of a channel: the master's entry in the MG_MAP in force in the wing that serves it. -/
def State.owns (s : State) (a : CpAcc) (n : Fin 8) : Bool :=
  let c := s.chans[n]
  let m := s.master c.mapWing a.mid.toNat
  m.valid && decide (m.group = c.ownGroup) && decide (a.world = c.ownWorld)

/-- A bad MG_MAP entry that an ownership check reads is logged once until the next commit (R234). -/
def State.ownParity (s : State) (a : CpAcc) (n : Fin 8) : State :=
  let w := s.chans[n].mapWing
  let u := (s.wing w).ush
  let mid := a.mid.toNat
  let id := 512 + mid
  if s.bad (.mg w u.bank mid) ∧ !u.parLogged.contains id then
    let s := s.modWing w fun x => { x with ush := { x.ush with parLogged := x.ush.parLogged ++ [id] } }
    ((s.log w .ushParity 0 (b2n u.bank + 4) mid 0).countWing w .ushParity).parityHit w (.mg w u.bank mid)
  else s

/-- The channel whose block an offset lies in. -/
def chanOf (off : Nat) : Option (Fin 8) :=
  if 0x1000 ≤ off ∧ off < 0x3000 then some (Fin.ofNat 8 ((off - 0x1000) / 0x400)) else none

/-- The channel whose block an offset lies in, and the offset within it. -/
def chanOff? (off : Nat) : Option (Fin 8 × Nat) := (chanOf off).map fun n => (n, (off - 0x1000) % 0x400)

/-- The channel whose CHAN_CFG guards an offset (R380); none where any master may access it. -/
def guardOf (off : Nat) : Option (Fin 8) :=
  if off < 0x40 then none else if off < 0x1000 then some 0 else chanOf off

/-! ## Interrupts and the alarm (R75, R373, R385 to R387) -/

/-- The causes that a wing routes to a channel, in the order of R385 from bit 2 or bit 7 on. -/
def State.wingCauses (s : State) (w : Wing) (n : Fin 8) : Nat :=
  let x := s.wing w
  let routed (k : Fin 5) : Bool := x.evtRoute[k] = some n
  let queue (k : Nat) : Bool := x.grq.frames.any fun f => f.queue = k
  b2n (routed 0 && queue 0) + b2n (routed 1 && queue 1) * 2 + b2n (routed 2 && queue 2) * 4 + b2n (routed 4 && !x.tsq.isEmpty) * 16

/-- IRQ_STATUS of a channel (R385). -/
def State.irqStatus (s : State) (n : Fin 8) : Nat :=
  let c := s.chans[n]
  b2n c.rspValid + b2n c.evFree * 2 + (s.wingCauses .sl n + b2n c.evSaSl * 8) * 4 + (s.wingCauses .sr n + b2n c.evSaSr * 8) * 128

/-- Interrupt line IRQ[k] (R75, R386). -/
def State.irqPin (s : State) (k : Fin 8) : Bool :=
  (List.finRange 8).any fun n => s.sys.line[n] = k.val ∧ s.irqStatus n &&& s.chans[n].irqEn.toNat ≠ 0

/-- The ALARM line (R75). -/
def State.alarmPin (s : State) : Bool := decide (s.sys.alarm ≠ 0)

/-! ## Read values (R383, R384, R386 to R391) -/

/-- The status bits of 0x0008. BOOT_READY stays 1 from the report of BOOT_READY on (DEDUCED, assumption 21). -/
def State.bootWord (s : State) : Nat :=
  let up : Bool := match s.boot.phase with
    | .rom => true
    | .loading => true
    | .ready => true
    | _ => false
  let held : Option Status := match s.boot.phase with
    | .held st => some st
    | _ => none
  b2n up + b2n s.isReady * 2 + b2n held.isSome * 4 + (held.elim 0 Status.code) * 2 ^ 8
    + (if s.boot.phase = .off then 0 else s.vlt.lcCode) * 2 ^ 16
    + b2n (decide (s.upd.step ≠ 0)) * 2 ^ 24

/-- 0x0004: SCRIPT_LEVEL and STAMBE, which is 3 while the boot ROM serves MBX0 (R2, R285). In a held state, where it serves
MBX0 too (R284), STAMBE is 3 as well (DEDUCED, assumption 21). -/
def State.levelWord (s : State) : Nat :=
  match s.boot.phase with
  | .ready => s.boot.scriptLevel % 2 ^ 16 + s.boot.stambe % 2 ^ 16 * 2 ^ 16
  | .rom => 3 * 2 ^ 16
  | .loading => 3 * 2 ^ 16
  | .held _ => 3 * 2 ^ 16
  | .off => 0

/-- The status word of a wing (R388). Until start-up it reads as at reset (R382); LANES reads 0 until the wing has completed its start. -/
def State.wingWord (s : State) (w : Wing) : Nat :=
  let x := s.wing w
  let link : Nat := x.link.code
  let lanes := (List.finRange 28).countP fun l => laneWing l = w ∧ s.lanes[l].st = .inService
  link + b2n x.headless * 4 + b2n x.failed * 8 + b2n x.ready * 16 + (coreIx x.served).val * 32 + b2n s.vlt.hold * 64
    + b2n (decide (s.boot.phase ≠ .off) && s.vlt.ironHeld) * 128 + (if s.isReady then lanes else 0) * 2 ^ 8 + x.ush.gen % 2 ^ 16 * 2 ^ 16

/-- The heartbeat word of a core (R388). -/
def State.beatWord (s : State) (c : CoreId) : Nat :=
  let x := s.core c
  x.beats % 2 ^ 16 + min x.missed 3 * 2 ^ 16 + b2n x.armed * 2 ^ 18

/-- The words that a read of ENTRY[0] latches (R390). -/
def Cbd.latch (c : Cbd) : List Word :=
  if c.fill = 0 then List.replicate 8 0 else (tget c.ring (c.tail.toNat % 4096)).getD (List.replicate 8 0)

/-- A Call Board's registers by their offset in its block (R389). -/
def Cbd.reg (c : Cbd) (o : Nat) : Option Nat :=
  if o = 0x00 then some c.head.toNat
  else if o = 0x04 then some c.tail.toNat
  else if o = 0x08 then some (c.fill + b2n c.lost * 2 ^ 13 + b2n c.tailErr * 2 ^ 14 + c.lostCount * 2 ^ 16)
  else if o = 0x20 then some (wordAt c.latch 0)
  else if 0x20 < o ∧ o ≤ 0x3C then some (wordAt c.shadow ((o - 0x20) / 4))
  else none

/-- ZEROISE_EN as it reads: 1 in SERVICE and FIELD_SERVICE (R391). -/
def State.zEnabled (s : State) : Bool := s.sys.zEn || decide (s.vlt.lcCode = 4 ∨ s.vlt.lcCode = 5)

/-- The registers below 0x1000; none at an offset that no table assigns. -/
def State.sysReg (s : State) (off : Nat) : Option Nat :=
  if off = 0x0000 then some 0x1A71C54B
  else if off = 0x0004 then some s.levelWord
  else if off = 0x0008 then some s.bootWord
  else if off = 0x000C then some (leNat (s.cores[0].hash.take 4))
  else if off = 0x0010 then some (leNat (s.cores[1].hash.take 4))
  else if off = 0x0040 then some ((List.finRange 8).foldl (fun (a : Nat) (n : Fin 8) => a + s.sys.line[n] % 8 * 8 ^ n.val) 0)
  else if off = 0x0044 then some (b2n s.sys.lock)
  else if off = 0x0080 then some s.sys.alarm
  else if off = 0x00C0 then some (s.wingWord .sl)
  else if off = 0x00C4 then some (s.wingWord .sr)
  else if off = 0x00C8 then some (s.beatWord .l)
  else if off = 0x00CC then some (s.beatWord .r)
  else if off = 0x0100 then some (b2n s.zEnabled)
  else if off = 0x0104 ∨ off = 0x0108 then some 0
  else if off = 0x010C then some (s.sys.zStep + s.sys.zAborts * 2 ^ 8 + b2n s.sys.zFired * 2 ^ 16)
  else if 0x0200 ≤ off ∧ off < 0x0240 then s.sl.cbd.reg (off - 0x0200)
  else if 0x0280 ≤ off ∧ off < 0x02C0 then s.sr.cbd.reg (off - 0x0280)
  else none

/-- The registers of a channel's block by their offset in it (R384). -/
def State.chanReg (s : State) (n : Fin 8) (o : Nat) : Option Nat :=
  let c := s.chans[n]
  if o < 0x100 then some (c.req[Fin.ofNat 64 (o / 4)]).toNat
  else if o < 0x200 then some (c.rsp[Fin.ofNat 64 ((o - 0x100) / 4)]).toNat
  else if o = 0x200 ∨ o = 0x208 then some 0
  else if o = 0x204 then
    some (b2n c.reqBusy + b2n c.rspValid * 2 + b2n c.overrun * 4 + min c.queue.length 8 * 8 + (coreIx c.served).val * 128
      + wingIx c.mapWing * 256)
  else if o = 0x20C then some (s.irqStatus n)
  else if o = 0x210 then some c.irqEn.toNat
  else if o = 0x214 then some (c.ownGroup + b2n c.ownWorld * 16 + b2n c.locked * 32)
  else if o = 0x218 then some c.expect.toNat
  else none

/-- What the register at an offset reads as; none where no table assigns it. -/
def State.reg (s : State) (off : Nat) : Option Nat :=
  if off < 0x1000 then s.sysReg off
  else match chanOf off with
    | some n => s.chanReg n ((off - 0x1000) % 0x400)
    | none => none

/-- Whether an access is refused: only at an assigned offset of a guarded block (R71, R381). -/
def State.cpRefused (s : State) (a : CpAcc) (off : Nat) : Bool :=
  (s.reg off).isSome && match guardOf off with
    | some n => !s.owns a n
    | none => false

/-- A read: CP_ERR and CP_RDATA (R10, R71). Reading has no effect but the latch of ENTRY[0]. -/
def State.cpRead (s : State) (a : CpAcc) (off : Nat) : Bool × Word :=
  if s.cpRefused a off then (true, 0) else (false, wd ((s.reg off).getD 0))

/-! ## Recording (R398) -/

/-- Whether an offset lies in the request or response buffer of a command that R397 keeps out of the log: the vault and keys group
with OWNER_ENROL and BLOB_LOAD, and GRQ_READ. A response buffer tells by the opcode that it echoes. A request whose word 0 has not
been written yet may become such a command and is kept out too (DESIGN CHOICE, assumption 22). -/
def State.secretOff (s : State) (off : Nat) : Bool :=
  match chanOff? off with
  | some (n, o) =>
    let c := s.chans[n]
    let secret (v : Word) : Bool :=
      let op := fld v.toNat 9 0
      decide (0x120 ≤ op ∧ op ≤ 0x12E) || op = 0x0A1
    if o < 0x100 then !c.opSeen || secret c.req[0] else decide (o < 0x200) && secret c.rsp[0]
  | none => false

/-- The CTRL record of an access: direction, CP_ERR and the digest of read data in clear, and sealed its offset with the world in
its bit 0, the data written, and the writer; an access that R397 keeps out of the log leaves its offset and digest alone. Each wing
that records the control port records every access (assumption 22). -/
def State.rhlCtrl (s : State) (a : CpAcc) (off : Nat) (write : Bool) (v : Nat) : State :=
  let flags := leBytes 1 (b2n write + b2n s.sys.err * 2)
  let digest := s.rhlDigest (leBytes 4 v)
  let who := leBytes 1 a.mid.toNat
  let world := off / 2 * 2 + b2n a.world
  let (clear, sealed) := if s.secretOff off then (flags ++ digest, leBytes 2 off)
    else if write then (flags, leBytes 2 world ++ leBytes 4 v ++ who)
    else (flags ++ digest, leBytes 2 world ++ who)
  s.eachWing fun s w =>
    let r := (s.wing w).rhl
    if r.st = .record ∨ r.cfg.ctrl then s.rhlRec w 0x08 clear sealed 3 else s

/-! ## The zeroise sequence (R392) -/

/-- Abandoning a sequence in progress. -/
def State.zAbort (s : State) : State :=
  if s.sys.zStep = 0 then s
  else { s with sys := { s.sys with zStep := 0, zAborts := min 255 (s.sys.zAborts + 1) } }

/-- What a write that passes does to the sequence; `gap` is that since the step before, in CP_CLK cycles. -/
def State.zTrack (s : State) (a : CpAcc) (off gap v : Nat) : State :=
  let z := s.sys
  let same : Bool := decide (z.zMid = a.mid.toNat ∧ z.zWorld = a.world ∧ gap ≤ 256)
  if !s.zEnabled then (if off = 0x0104 ∨ off = 0x0108 then s else s.zAbort)
  else if z.zStep = 0 ∧ off = 0x0104 ∧ v = 0x5A3C0F96 then
    { s with sys := { z with zStep := 1, zMid := a.mid.toNat, zWorld := a.world } }
  else if z.zStep = 1 ∧ off = 0x0104 ∧ v = 0xA5C3F069 ∧ same then { s with sys := { z with zStep := 2 } }
  else if z.zStep = 2 ∧ off = 0x0108 ∧ v = 1 ∧ same then
    State.fireIron { s with sys := { z with zStep := 0, zFired := true } }
  else s.zAbort

/-! ## Writes (R9, R10, R71) -/

/-- A write on the control port: the ownership check, the zeroise sequence, then its effect. Nothing where the port takes no
access. -/
def State.cpWrite (s : State) (a : CpAcc) (off gap v : Nat) (eff : State → State) : State :=
  if !s.cpTakes then s
  else
    let s := match guardOf off with
      | some n => s.ownParity a n
      | none => s
    if s.cpRefused a off then
      let s := s.zAbort
      State.rhlCtrl { s with sys := { s.sys with err := true } } a off true v
    else
      let s := eff (s.zTrack a off gap v)
      State.rhlCtrl { s with sys := { s.sys with err := false } } a off true v

/-- CP_RST_N asserted (R71, R382): the adapter's outputs go to 0, a zeroise sequence in progress is abandoned, and accesses
are ignored until its release (R48). -/
def State.resetCp (s : State) : State :=
  let s := s.zAbort
  { s with sys := { s.sys with rdata := 0, err := false }, pwr := { s.pwr with cpRst := true } }

/-- Writing a Call Board's TAIL (R390). -/
def Cbd.writeTail (c : Cbd) (t : BitVec 16) : Cbd :=
  if (c.head - t).toNat ≤ 4096 then { c with tail := t } else { c with tailErr := true }

/-- Clearing LOST, with LOST_COUNT, and TAIL_ERR (R389). -/
def Cbd.clear (c : Cbd) (v : Nat) : Cbd :=
  let c := if bitOf v 13 then { c with lost := false, lostCount := 0 } else c
  if bitOf v 14 then { c with tailErr := false } else c

/-- A write to a register of a channel's block. -/
def Chan.write (c : Chan) (o v : Nat) : Chan :=
  if o < 0x100 then
    if c.reqBusy then { c with overrun := true }
    else { c with req := c.req.set (Fin.ofNat 64 (o / 4)) (wd v), opSeen := c.opSeen || decide (o / 4 = 0) }
  else if o = 0x204 then (if bitOf v 2 then { c with overrun := false } else c)
  else if o = 0x20C then
    { c with evFree := c.evFree && !bitOf v 1, evSaSl := c.evSaSl && !bitOf v 5, evSaSr := c.evSaSr && !bitOf v 10 }
  else if o = 0x210 then { c with irqEn := wd (v % 2 ^ 13) }
  else c

/-- A write to a register without a row of its own. -/
def State.regWrite (s : State) (off v : Nat) : State :=
  if off = 0x0040 then
    if s.sys.lock then s else { s with sys := { s.sys with line := Vector.ofFn fun (n : Fin 8) => fld v (3 * n.val + 2) (3 * n.val) } }
  else if off = 0x0044 then { s with sys := { s.sys with lock := s.sys.lock || bitOf v 0 } }
  else if off = 0x0080 then { s with sys := { s.sys with alarm := s.sys.alarm &&& (0x3F ^^^ (v % 64)) } }
  else if off = 0x0100 then
    if s.sys.lock ∨ (!bitOf v 0 ∧ (s.vlt.lcCode = 4 ∨ s.vlt.lcCode = 5)) then s
    else { s with sys := { s.sys with zEn := bitOf v 0 } }
  else if off = 0x0208 then s.modWing .sl fun x => { x with cbd := x.cbd.clear v }
  else if off = 0x0288 then s.modWing .sr fun x => { x with cbd := x.cbd.clear v }
  else match chanOf off with
    | some n => s.modChan n fun c => c.write ((off - 0x1000) % 0x400) v
    | none => s

/-- The offset of a register of a channel's block. -/
def chanOff (n : Fin 8) (o : Nat) : Nat := 0x1000 + 0x400 * n.val + o

/-- The offset of a Call Board register. -/
def cbdOff (w : Wing) (o : Nat) : Nat := 0x200 + 0x80 * wingIx w + o

/-- Offsets whose writes have a row of their own. -/
def ownRow (off : Nat) : Bool :=
  off = 0x0104 || off = 0x0108 || off = 0x0204 || off = 0x0284
    || ((chanOf off).isSome && (decide ((off - 0x1000) % 0x400 = 0x200 ∨ (off - 0x1000) % 0x400 = 0x208)))

end Sys2Proof.Machine
end

