-- ==== Sys2Proof/Machine/CpCmds.lean ====
section
/-! DEFINITION. The control port rows: the mailbox handshake (R365, R366, R384), the Call Board (R390), the zeroise
sequence (R392), register writes (R9, R10) and CP_RST_N (R71). -/

namespace Sys2Proof.Machine

/-- Ringing a doorbell: the owner of this moment goes with the request (R368). -/
def Chan.ring (c : Chan) (v : Nat) : Chan :=
  if !bitOf v 0 then c
  else if c.reqBusy then { c with overrun := true }
  else { c with reqBusy := true, bellGroup := c.ownGroup, bellWorld := c.ownWorld }

/-- DOORBELL (R365, R366). -/
def execDoorbell (a : CpAcc) (ch : Fin 8) (v : Word) (s : State) : Host.Outcome State Fault Refusal :=
  .next (s.cpWrite a (chanOff ch 0x200) 0 v.toNat fun s => s.modChan ch fun c => c.ring v.toNat)

/-- Whether the engine copies a request into a queue now: a free place, not in sleep entry (R420), not while the channel
closes for a handover (R344) or waits to change its wing (R328), and before the Script is ready on MBX0 alone (R368). -/
def State.copies (s : State) (ch : Fin 8) : Bool :=
  let c := s.chans[ch]
  s.cpUp && (s.isReady || decide (ch = 0)) && c.reqBusy && decide (c.queue.length < 8) && !s.pwr.entering
    && c.closing.isNone && c.mapNext.isNone

/-- The place that a request takes in the queue. -/
def State.newPlace (s : State) (ch : Fin 8) : Place :=
  let c := s.chans[ch]
  { words := c.req.toList, group := c.bellGroup, world := c.bellWorld, at' := s.rt,
    phase := if s.unserved c.mapWing then .answered .wingUnreachable [] else .queued }

/-- REQ_FREE (R365 step 2). -/
def execReqFree (ch : Fin 8) (s : State) : Host.Outcome State Fault Refusal :=
  .next (if s.copies ch then
      let p := s.newPlace ch
      s.modChan ch fun c => { c with queue := c.queue ++ [p], reqBusy := false, evFree := true, opSeen := false }
    else s)

/-- A response: OPCODE, WING and SEQ echoed, the payload's length and the status (R369). -/
def Place.response (p : Place) (st : Status) (payload : List Word) : List Word :=
  [wd (p.op + payload.length % 64 * 2 ^ 16 + p.wing * 2 ^ 22 + st.code * 2 ^ 24), wd p.seq] ++ payload.take 62

/-- Writing a response's words over the response buffer; words past it stay. -/
def putWords (v : Vector Word 64) (l : List Word) : Vector Word 64 :=
  Vector.ofFn fun (i : Fin 64) => (l[i.val]?).getD v[i]

/-- The change of ownership that a CHAN_OWN response makes (R368). -/
def State.giveChan (s : State) (o : Option (Fin 8 × Nat × Bool)) : State :=
  match o with
  | some (n, g, w) => s.modChan n fun c => { c with ownGroup := g, ownWorld := w }
  | none => s

/-- A request whose opcode the catalogue does not hold is answered here: SEQ first, then UNKNOWN_OPCODE, after the curtain
that the request asks for (R369, R370, R372). -/
def State.answerUnknown (s : State) (ch : Fin 8) : State :=
  match s.chans[ch].head with
  | some p =>
    if p.phase = .queued ∧ !catalogue.contains p.op ∧ s.canServe ch then
      if p.seq ≠ s.chans[ch].expect.toNat then s.reply ch .seqError [wd s.chans[ch].expect.toNat]
      else
        State.finish (s.modChan ch fun c => { c with expect := c.expect + 1 }) ch .unknownOpcode []
    else s
  | none => s

/-- The response of the oldest place is written once RSP_VALID is 0. -/
def State.writeRsp (s : State) (ch : Fin 8) : State :=
  let c := s.chans[ch]
  if c.rspValid then s
  else match c.queue with
    | [] => s
    | p :: _ => match p.phase with
      | .answered st payload =>
        State.giveChan (s.modChan ch fun c => { c with rsp := putWords c.rsp (p.response st payload), rspValid := true }) p.own
      | _ => s

/-- RSP (R365 step 4). -/
def execRspWrite (ch : Fin 8) (s : State) : Host.Outcome State Fault Refusal :=
  .next (if s.cpUp then (s.answerUnknown ch).writeRsp ch else s)

/-- Acknowledging a response frees its place. -/
def Chan.ack (c : Chan) (v : Nat) : Chan :=
  if bitOf v 0 ∧ c.rspValid then { c with rspValid := false, queue := c.queue.drop 1 } else c

/-- RSP_ACK (R365 step 5). -/
def execRspAck (a : CpAcc) (ch : Fin 8) (v : Word) (s : State) : Host.Outcome State Fault Refusal :=
  .next (s.cpWrite a (chanOff ch 0x208) 0 v.toNat fun s => s.modChan ch fun c => c.ack v.toNat)

/-- TAIL (R390). -/
def execCbdTail (a : CpAcc) (w : Wing) (v : Word) (s : State) : Host.Outcome State Fault Refusal :=
  .next (s.cpWrite a (cbdOff w 0x04) 0 v.toNat fun s => s.modWing w fun x => { x with cbd := x.cbd.writeTail (v.setWidth 16) })

/-- ENTRY (R390): a refused read returns 0 and latches nothing. -/
def execCbdEntry (a : CpAcc) (w : Wing) (s : State) : Host.Outcome State Fault Refusal :=
  .next (if !s.cpTakes then s
    else
      let s := s.ownParity a 0
      let r := s.cpRead a (cbdOff w 0x20)
      let s := { s with sys := { s.sys with rdata := r.2, err := r.1 } }
      let s := if r.1 then s else s.modWing w fun x => { x with cbd := { x.cbd with shadow := x.cbd.latch } }
      s.rhlCtrl a (cbdOff w 0x20) false r.2.toNat)

/-- ZEROISE_ARM (R392). -/
def execZeroiseArm (a : CpAcc) (gap : Nat) (v : Word) (s : State) : Host.Outcome State Fault Refusal :=
  .next (s.cpWrite a 0x0104 gap v.toNat id)

/-- ZEROISE_FIRE (R392). -/
def execZeroiseFire (a : CpAcc) (gap : Nat) (v : Word) (s : State) : Host.Outcome State Fault Refusal :=
  .next (s.cpWrite a 0x0108 gap v.toNat id)

/-- ZEROISE_GAP (R392). -/
def execZeroiseGap (s : State) : Host.Outcome State Fault Refusal := .next (if s.cpUp then s.zAbort else s)

/-- REGISTER_WRITE (R9, R10): a register whose writes have a row of their own is written by that row. -/
def execRegisterWrite (a : CpAcc) (addr : BitVec 16) (v : Word) (s : State) : Host.Outcome State Fault Refusal :=
  let off := addr.toNat / 4 * 4
  .next (if ownRow off then s else s.cpWrite a off 0 v.toNat fun s => s.regWrite off v.toNat)

/-- CP_RST_N (R71, R382): it stays asserted until PORT_RESET_RELEASE of the control port. -/
def execCpRstN (s : State) : Host.Outcome State Fault Refusal := .next s.resetCp

end Sys2Proof.Machine
end

