-- ==== Sys2Proof/Machine/StoreOps.lean ====
section
/-! DEFINITION. The engine's own accesses to memory (R122, R148, R210, R249, R401, R448): SA records and counts, spilled session
keys and log blocks, each protected by the MPE under keys of the WKR and put on the memory ports as a master's access is. -/

namespace Sys2Proof.Machine

/-! ## What is stored -/

/-- The bytes of a record, each with whether it is sealed: word 0 (R398), the clear fields, the sealed fields, and zeros up to its
length (assumption 20). -/
def RRec.out (r : RRec) : List (BitVec 8 × Bool) :=
  let b := (leBytes 4 (r.type + r.words * 2 ^ 6 + r.dt * 2 ^ 12) ++ r.clear).map (·, false) ++ r.sealed.map (·, true)
  (b ++ List.replicate (4 * r.words - b.length) (0, false)).take (4 * r.words)

/-- FORMAT, WING and MODE. -/
def Rhl.word0 (r : Rhl) (w : Wing) : Word := wd (1 + wingIx w * 2 ^ 16 + b2n r.cfg.record * 2 ^ 17)

/-- Sealing (R400): the byte at block byte offset o is XORed with byte o mod 16 of E(K, IV || (0x80000000 + o / 16)). -/
def sealBytes (ks : List Nat) (iv off : Nat) (l : List (BitVec 8 × Bool)) : Bytes :=
  l.zipIdx.map fun e =>
    let o := off + e.2
    if e.1.2 then e.1.1 ^^^ (beBytes 16 (aesEncWith ks (iv <<< 32 ||| (0x80000000 + o / 16)))).getD (o % 16) 0 else e.1.1

/-- A block as stored, with its TAG (R399, R400). -/
def Rhl.blockBytes (r : Rhl) (w : Wing) (key : Bytes) (b : RBlock) : Bytes :=
  let ks := aesKeys key
  let iv := beNat (leBytes 8 r.logId ++ leBytes 4 b.seq)
  let words := [r.word0 w] ++ toWords 2 r.logId ++ [wd b.seq] ++ toWords 2 b.rt0 ++ [wd b.used, wd b.before]
  let bytes := wordsToBytes words ++ padTo 4048 (sealBytes ks iv 32 (b.recs.flatMap RRec.out))
  bytes ++ gcmTag ks iv bytes []

/-- The entry of a session key in the key spill area: 72 bytes of key wrap and 8 of zeros (R249). -/
def spillEntry (wrap : Bytes) (j : Nat) (k : Key) : Bytes :=
  kwWrap wrap (wordsToBytes k.attr.words ++ padTo 32 k.key ++ padTo 12 k.salt ++ leBytes 4 j) ++ List.replicate 8 0

/-- Whether an entry of the key spill area unwraps and names its own index (R249). -/
def spillOk (wrap : Bytes) (j : Nat) (b : Bytes) : Bool :=
  (kwUnwrap wrap (b.take 72)).any fun m => decide (leNat ((m.drop 60).take 4) = j)

/-- Where an access of the engine lies in its region (R122, R249, R401; which half of the spill region is which wing's: DEDUCED,
assumption 46): the offset of its first byte, and how many. -/
def State.ownSpan (s : State) : OwnUse → Nat × Nat
  | .saRead sai | .saWrite sai => (128 * sai, 128)
  | .stat sai | .statRead sai => (2 ^ 27 + 64 * sai, 64)
  | .keyRead j | .keyWrite j => (2 ^ 27 + 2 ^ 26 + 80 * j, 80)
  | .block w n => ((wingIx w * s.spillHalf + n) * 4096, 4096)

/-- The region of an access of the engine for a wing. -/
def State.ownRegion (s : State) (w : Wing) : OwnUse → Option (Fin 64)
  | .block _ _ => s.spill
  | _ => (s.wing w).store

/-- Whether an access of the engine writes. -/
def OwnUse.writes : OwnUse → Bool
  | .saRead _ | .statRead _ | .keyRead _ => false
  | .saWrite _ | .stat _ | .keyWrite _ | .block _ _ => true

/-- The bytes that an access of the engine for a wing writes; how the counts of an SA are laid out in their 64 bytes is not
stated, so that they are a free value (assumption 46). -/
def State.ownBytes (s : State) (w : Wing) : OwnUse → Bytes
  | .saWrite sai => match s.sa w sai with
    | some x => wordsToBytes (x.words false)
    | none => List.replicate 128 0
  | .stat _ => leBytes 64 s.freeVal
  | .keyWrite j => match s.vlt.keys.saSpill, tget s.vlt.sess j with
    | some k, some x => spillEntry k j x
    | _, _ => List.replicate 80 0
  | .block w _ => match (s.wing w).rhl.full with
    | b :: _ => (s.wing w).rhl.blockBytes w (s.vlt.keys.rhlLog.getD []) b
    | [] => List.replicate 4096 0
  | _ => []

/-! ## Issue -/

/-- A line of an accepted access goes to the dispatcher of the wing whose lanes work on it (R150); one that the budget does not
hold goes there as Class 1 (R168). -/
def State.admitLine (s : State) (q : Fin 4) (a : Access) (i : Nat) : State :=
  match a.region, a.lines[i]? with
  | some r, some l =>
    let x := s.regions[Fin.ofNat 64 r]
    let key : CtxKey := if x.use = .host then .slot (l.slot.getD 0) else .store r
    if x.d.mode = 0 then s else s.admitItem x.d.owner (.mem q a.seq i) key (if a.cls = 0 ∧ !l.lead then 1 else a.cls) 4
  | _, _ => s

/-- The lines of an accepted access go there. -/
def State.admitLines (s : State) (q : Fin 4) (a : Access) : State :=
  (List.range a.lines.length).foldl (fun s i => s.admitLine q a i) s

/-- The write data of bytes from an offset on, line by line, with their byte strobes. -/
def ownBeats (off : Nat) (b : Bytes) : List (Nat × Nat) :=
  let skip := off % 64
  let all := List.replicate skip 0 ++ b
  (List.range ((all.length + 63) / 64)).map fun i =>
    let used (k : Nat) : Bool := decide (skip ≤ 64 * i + k ∧ 64 * i + k < all.length)
    (leNat (padTo 64 ((all.drop (64 * i)).take 64)), (List.range 64).foldl (fun n k => if used k then n + 2 ^ k else n) 0)

/-- An access of the engine begins: it stands with those of the first request port of the wing that owns its region. One whose
region is not ACTIVE waits, and so does one whose region's descriptor fails parity, which is reported once for it (R36, R42;
DESIGN CHOICE, assumption 46). -/
def State.startOwn (s : State) (w : Wing) (u : OwnUse) (cls : Nat) : State :=
  match s.ownRegion w u with
  | none => s
  | some r =>
    let x := s.regions[r]
    let told := (s.wing w).ownq.any fun e => e.1 = u ∧ e.2.2
    if s.bad (.region x.d.owner r.val) ∧ x.st ≠ .notInstalled then
      (if told then s else (s.regionParity x.d.owner [x.d.base]).modWing w fun y =>
        { y with ownq := y.ownq.map fun e => if e.1 = u then (e.1, e.2.1, true) else e })
    else if x.st ≠ .active then s
    else
      let q : Fin 4 := if x.d.owner = .sl then 0 else 2
      let (off, len) := s.ownSpan u
      let lines := (off % 64 + len + 63) / 64
      let addrs := (List.range lines).map fun k => x.d.base + off / 64 * 64 + 64 * k
      let seq := s.rqps[q].nextSeq
      let a : Access :=
        { tid := 0, op := if u.writes then 1 else 0, mid := 256, world := false, kix := 0, cls := max 1 cls, clsIn := cls,
          curtain := 0, gen := (s.wing x.d.owner).ush.gen, seq := seq, region := some r.val, alen := lines - 1, wdone := true,
          addrs := addrs, at' := s.rt, own := some u, lines := addrs.map fun a => { addr := a, slot := none, t0 := s.rt },
          wbeats := if u.writes then ownBeats off (s.ownBytes w u) else [] }
      let s := if u.writes then s.takeFree else s
      ((s.modWing w fun y => { y with ownq := y.ownq.filter (·.1 ≠ u) }).modRqp q fun p =>
        { p with accs := p.accs ++ [a], nextSeq := seq + 1 }).admitLines q a

/-! ## What asks for them -/

/-- The frames of a wing that may wait for their SA's record, each with its class (R122): those of its staging and the inbound ones
that wait. -/
def State.waitSa (s : State) (w : Wing) : List (Nat × Nat) :=
  (wingPorts w).flatMap fun p =>
    (s.ports[p].staging.filterMap fun f => f.sai.map fun a => (a, f.cls))
      ++ (s.ports[p].inbound.filterMap fun f => if f.wait then f.sai.map fun a => (a, f.cls) else none)

/-- A record that a frame waits for is fetched in the frame's class, with its key where that is spilled, and its counts (R122,
R148, R249, R448). -/
def State.wantSa (s : State) (w : Wing) : State :=
  (s.waitSa w).foldl (fun s e =>
    match s.sa w e.1 with
    | some x =>
      if x.resident ∨ x.gone ∨ x.keyGone then s
      else
        let j := fld x.r.keyRef 19 0
        let s := (s.askOwn w (.saRead e.1) e.2).askOwn w (.statRead e.1) 3
        if (s.wing w).kspill.contains j then s.askOwn w (.keyRead j) e.2 else s
    | none => s) s

/-- The oldest full block of a wing's log, those of the snapshot first, goes to the next place of its half of the spill region
(R396, R401). -/
def State.wantBlock (s : State) (w : Wing) : State :=
  let r := (s.wing w).rhl
  let n := r.spilled.length
  if (r.st = .record ∨ r.st = .snapshot) ∧ !r.full.isEmpty ∧ n < r.spillCap then
    match s.spill with
    | some g => s.askOwn s.regions[g].d.owner (.block w n) 3
    | none => s
  else s

/-! ## What comes of them -/

/-- What an access of the engine came to, if it has ended: the status, and the bytes read. -/
def State.ownGot (s : State) (w : Wing) (u : OwnUse) : Option (Nat × Bytes) :=
  ((s.wing w).ownres.find? (·.1 = u)).map (·.2)

/-- Taking it. -/
def State.ownTaken (s : State) (w : Wing) (u : OwnUse) : State :=
  s.modWing w fun x => { x with ownres := x.ownres.filter (·.1 ≠ u) }

/-- A spilled key that came back: into the cache, or, where its tag or its wrap fails or it names another index, the wing's copy is
absent, and with it the wing's SAs that use it (R249). One that could not be read is read again (DESIGN CHOICE, assumption 46). -/
def State.takeKey (s : State) (w : Wing) (j : Nat) : State :=
  match s.ownGot w (.keyRead j) with
  | none => s
  | some (st, b) =>
    let s := s.ownTaken w (.keyRead j)
    let off := (s.ownSpan (.keyRead j)).1 % 64
    if st = 0 ∧ s.vlt.keys.saSpill.any fun k => spillOk k j (b.drop off) then s.cacheKey w j
    else if st = 0 ∨ st = 2 then
      (s.loseCopy w (.sess j)).log w .keySpillFail 0 j 0 0
    else s.askOwn w (.keyRead j) 3

/-- The keys that came back for no record that is being fetched. -/
def State.takeKeys (s : State) (w : Wing) : State :=
  (s.wing w).ownres.foldl (fun s e => match e.1 with
    | .keyRead j => if (s.waitSa w).any fun a => (s.sa w a.1).any fun x => !x.resident ∧ fld x.r.keyRef 19 0 = j then s
        else s.takeKey w j
    | _ => s) s

/-- The engine's own accesses go on: what is wanted is asked for, what was asked for begins, what nothing waits for is let go. -/
def State.pumpOwn (s : State) (w : Wing) : State :=
  let s := ((s.wantSa w).wantBlock w).takeKeys w
  let s := (s.wing w).ownq.foldl (fun s e => s.startOwn w e.1 e.2.1) s
  s.modWing w fun x => { x with ownres := x.ownres.filter fun e => match e.1 with
    | .saRead _ | .keyRead _ | .block _ _ => true
    | .saWrite _ | .stat _ | .statRead _ | .keyWrite _ => false }

end Sys2Proof.Machine
end

