-- ==== Sys2Proof/Machine/FrameEvents.lean ====
section
/-! DEFINITION. The events of the stream ports: frames, beats, credits and holds (R50 to R59), release and delivery (R133,
R145), fetches (R122), insertions (R105), the timers of frames, and the leases (R143, R271). -/

namespace Sys2Proof.Machine

/-! ## Frames at the pins (R52, R59) -/

/-- What the beats of a frame come to (R59): the whole frame, or its count and the beats discarded after it. -/
inductive Beats where
  | whole
  | mismatch (stray : Nat)
  | cut
deriving DecidableEq, Repr

/-- The beats of a frame against its LEN. -/
def beatsOf (len got : Nat) (eof : Bool) : Beats :=
  let n := (len + 15) / 16
  let k := (got + 15) / 16
  if eof then (if k = n then .whole else .mismatch (k - n)) else if k < n then .cut else .mismatch (k - n)

/-- A beat or frame on a port that is not open: NOT_OPEN, once for each opening (R59). What counts as an opening attempt is not stated:
a PORT_OPEN that succeeds, or a release of the port's reset, makes the next one count again, a refused PORT_OPEN does not (DESIGN
CHOICE, assumption 48). -/
def State.notOpen (s : State) (p : Fin 64) (line : Bool) : State :=
  let x := s.ports[p]
  if (if line then x.lsINotOpen else x.hsINotOpen) then s
  else
    let s := s.modPort p fun x => if line then { x with lsINotOpen := true } else { x with hsINotOpen := true }
    s.log (portWing p) .notOpen p.val (b2n line) 0 0

/-- Adding to a port's count. -/
def State.countPortN (s : State) (p : Fin 64) (c : PCnt) (k : Nat) : State :=
  s.modPort p fun x => { x with cnt := bumpAt x.cnt c.ix k }

/-- The sideband of a frame on HS_I as a FRAME record keeps it: SAI, CLASS, CURTAIN, LT_VALID and LTIME (R50, R398). -/
def hsSide (f : HsFrame) : Bytes :=
  leBytes 3 (f.sai.toNat + f.cls.toNat * 2 ^ 20 + b2n f.curtain * 2 ^ 22 + b2n f.ltime.isSome * 2 ^ 23)
    ++ leBytes 8 (f.ltime.elim 0 BitVec.toNat)

/-- A frame on HS_I or LS_I up to its LEN (R52, R59): whether it goes on, and the state with its cells taken and its faults
counted. -/
def State.takeFrame (s : State) (p : Fin 64) (line : Bool) (len : Nat) (data : Bytes) (eof : Bool) (side : Bytes) : Bool × State :=
  let x := s.ports[p]
  let w := portWing p
  if x.sideGone line ∨ !s.cpUp ∨ (if line then x.lsIFail else x.hsIFail) then (false, s)
  else if x.st ≠ .opened then (false, s.notOpen p line)
  else if !s.flowing w then (false, s)
  else if (if line then x.lsIHeld else x.hsIHeld) < cells len then
    let s := s.modPort p fun x => if line then { x with lsIFail := true } else { x with hsIFail := true }
    (false, s.log w .creditViolation p.val (b2n line) 0 0)
  else
    let s := (s.takeCells p line (cells len)).rhlFrame p (if line then 1 else 0) len 0 side (data.take len)
    if len = 0 ∨ x.sp.mtu < len then (false, s.countPort p (if line then .lsLenInvalid else .hsLenInvalid))
    else match beatsOf len data.length eof with
      | .whole => (true, s)
      | .mismatch n =>
        (false, (s.countPort p (if line then .lsLenMismatch else .hsLenMismatch)).countPortN p
          (if line then .lsStrayBeat else .hsStrayBeat) n)
      | .cut => (false, s.countPort p (if line then .lsTruncated else .hsTruncated))

/-- Whether a port takes the frames of its host side, so that a curtain on one is placed (R59, R163). -/
def State.takesHost (s : State) (p : Fin 64) : Bool :=
  let x := s.ports[p]
  !x.sideGone false && s.cpUp && !x.hsIFail && decide (x.st = .opened) && s.flowing (portWing p)

/-- OUTBOUND_FRAME (R50 to R59, R85, R163). -/
def execOutboundFrame (p : Fin 64) (f : HsFrame) (s : State) : Host.Outcome State Fault Refusal :=
  let s := s.placeCurtain p (f.curtain && s.takesHost p)
  match s.takeFrame p false f.len.toNat f.data f.eof (hsSide f) with
  | (false, s) => .next (s.credit p)
  | (true, s) =>
    let w := portWing p
    let g : GFrame :=
      { handle := 0, reason := 0, inb := false, port := p, cls := f.cls.toNat, bytes := padTo f.len.toNat f.data,
        sai := 0xFFFFF, tag := 0, arr := s.now w, queue := 0, saiIn := f.sai.toNat, clsIn := f.cls.toNat,
        curtain := f.curtain, ltime := f.ltime.map BitVec.toNat, resIn := (s.wing w).prm.resid }
    .next ((s.selectFrame g).credit p)

/-- The frame delivered with ABORTED where a frame that ends in error on LS_I had begun its cut-through delivery: whether it
had is left open (R57, R59, assumption 2). -/
def State.abortCut (s : State) (p : Fin 64) (bytes : Bytes) : State :=
  let w := portWing p
  let s0 := s
  match senderOf s.ports[p].cls (s.wing w).meshEtype bytes with
  | .key kt key an => match s.boxFind w kt key with
    | some (_, e) =>
      let sai := if kt = 1 then e.sai / 4 * 4 + an else e.sai
      if e.state = 2 ∧ (!e.lock ∨ e.port = portIx p) then
        match s.selectIn w p sai with
        | some x =>
          if x.r.holdVerify ∨ x.r.isEsp ∨ !x.resident ∨ !inHeaderOk x.r bytes then s
          else match pnOf x.r x.pn bytes, s.vlt.keyAt x.r.keyLoc with
            | some pn, some k =>
              let out := openedBytes x.r k pn bytes
              let s := s.takeFree
              let alone := s.ports[p].inbound.all fun g => g.began.isNone ∧ g.sai ≠ some sai ∧ !s.ports[p].sp.ordered
              if x.accepts pn ∧ s0.freeVal % 2 = 1 ∧ alone ∧ s.ports[p].canDeliver out.length then
                s.deliverAborted p none out sai x.r.cls
              else s
            | _, _ => s
        | none => s
      else s
    | none => s
  | _ => s

/-- INBOUND_FRAME (R50 to R59, R99). -/
def execInboundFrame (p : Fin 64) (f : LsFrame) (s : State) : Host.Outcome State Fault Refusal :=
  let bytes := padTo f.len.toNat f.data
  match s.takeFrame p true f.len.toNat f.data f.eof (leBytes 1 (b2n f.err)) with
  | (false, s') =>
    let cut := decide (s'.ports[p].cnt[PCnt.lsTruncated.ix] ≠ s.ports[p].cnt[PCnt.lsTruncated.ix])
    .next ((if cut then s'.abortCut p bytes else s').credit p)
  | (true, s) =>
    if f.err then .next (((s.countPort p .lsErr).abortCut p bytes).credit p)
    else .next ((s.takeIn (s.inCarrier p bytes)).credit p)

/-- STRAY_BEAT (R59). -/
def execStrayBeat (p : Fin 64) (line : Bool) (s : State) : Host.Outcome State Fault Refusal :=
  let x := s.ports[p]
  if x.sideGone line ∨ !s.cpUp ∨ (if line then x.lsIFail else x.hsIFail) then .next s
  else if x.st ≠ .opened then .next (s.notOpen p line)
  else .next (s.countPort p (if line then .lsStrayBeat else .hsStrayBeat))

/-- CREDIT (R52, R53, R59): at most 1,023 cells are counted, and the first of each 1,024 excess pulses is logged. -/
def execCreditPulse (p : Fin 64) (line : Bool) (s : State) : Host.Outcome State Fault Refusal :=
  let x := s.ports[p]
  if x.sideGone line ∨ !s.cpUp then .next s
  else
    let s := s.modPort p fun x => if line then { x with pulses := x.pulses.set 3 (x.pulses[3] + 1) }
      else { x with pulses := x.pulses.set 2 (x.pulses[2] + 1) }
    if (if line then x.lsOCred else x.hsOCred) < 1023 then
      .next (s.modPort p fun x => if line then { x with lsOCred := x.lsOCred + 1 } else { x with hsOCred := x.hsOCred + 1 })
    else
      let n := if line then x.lsOExcess else x.hsOExcess
      let s := s.modPort p fun x => if line then { x with lsOExcess := n + 1 } else { x with hsOExcess := n + 1 }
      .next (if n % 1024 = 0 then s.log (portWing p) .creditOverflow p.val (if line then 3 else 2) 0 0 else s)

/-- LS_HOLD (R58, R59, R136). While the VDDC domain takes no inputs (R81) the level stands on the pin, for the engine to sample
once it does. -/
def execLsHold (p : Fin 64) (hold : Bool) (rsn : BitVec 2) (s : State) : Host.Outcome State Fault Refusal :=
  let x := s.ports[p]
  if x.sideGone true then .next s
  else
    let s := s.modPort p fun x =>
      { x with hold := hold, holdRsn := rsn.toNat, holdSince := if hold ∧ !x.hold then s.rt else x.holdSince,
               holdSpent := x.holdSpent && hold }
    let s := if s.cpUp ∧ hold ∧ rsn = 3 then s.countPort p .lsHoldRsnReserved else s
    .next (if s.cpUp ∧ s.rhlPort p then s.rhlRec (portWing p) 0x04 (leBytes 1 p.val ++ leBytes 1 (b2n hold) ++ leBytes 1 rsn.toNat) [] 2 else s)

/-! ## Release and delivery -/

/-- FRAME_RELEASE (R133): where nothing holds the frame. -/
def execFrameRelease (p : Fin 64) (id : Nat) (s : State) : Host.Outcome State Fault Refusal :=
  let x := s.ports[p]
  match x.staging.find? fun f => f.id = id with
  | some f =>
    let late := f.ltime.any fun t => decide (t + x.sp.launchTol * 2 ^ 32 < (s.wing (portWing p)).prm.t)
    if x.absent ∨ late ∨ !s.mayRelease p f then .next s else .next (s.releaseOut p f)
  | none => .next s

/-- FRAME_TAG_CHECK (R145): where the lane work of the frame is done and no earlier frame goes before it. -/
def execFrameTagCheck (p : Fin 64) (id : Nat) (s : State) : Host.Outcome State Fault Refusal :=
  let x := s.ports[p]
  match x.inbound.find? fun f => f.id = id with
  | some f =>
    if x.absent ∨ f.wait ∨ !s.itemDone (.inb p id) ∨ x.inBehind f then .next s else .next (s.checkIn p f)
  | none => .next s

/-! ## Fetches (R122, R124, R249) -/

/-- The frames that wait for a record that cannot be had: their SA is absent. -/
def State.fetchFail (s : State) (w : Wing) (sai : Nat) : State :=
  (wingPorts w).foldl (fun s p =>
    let s := (s.ports[p].staging.filter fun f => f.sai = some sai).foldl (fun s f =>
      (s.noSaAs (f.toG p 8) f.noSaAct).unstage p f.id) s
    (s.ports[p].inbound.filter fun f => f.sai = some sai ∧ f.wait).foldl (fun s f =>
      (s.noSaAs { s.inCarrier p f.bytes with sai := sai, arr := f.arr, resIn := f.resIn, asymIn := f.asymIn } f.noSaAct).unInbound
        p f.id) s) s

/-- The settings of an SA that a frame which waited for its record was admitted with (R121). -/
def InFrame.settings (f : InFrame) (x : Sa) : Sa :=
  { x with r := { x.r with cls := f.cls, holdVerify := f.held, window := f.window, pnThresh := f.thresh } }

/-- The frames that waited for a record go on: staged frames to the lanes, inbound ones to their window check. -/
def State.fetchDone (s : State) (w : Wing) (sai : Nat) : State :=
  (wingPorts w).foldl (fun s p =>
    (s.ports[p].inbound.filter fun f => f.sai = some sai ∧ f.wait).foldl (fun s f =>
      match s.sa w sai with
      | some x =>
        (s.unInbound p f.id).windowIn { s.inCarrier p f.bytes with sai := sai, arr := f.arr, resIn := f.resIn, asymIn := f.asymIn }
          (some f.id) f.admRt f.noSaAct sai (f.settings x)
      | none => s) s) (s.pumpKs w)

/-- SA_FETCH (R122, R124, R249): the record that was read enters the cache with its key, or its tag or its key's wrap has failed;
one that could not be read is read again (DESIGN CHOICE, assumption 46). The model makes both checks itself, so that what the row says
of their outcomes is not read. -/
def execSaFetch (w : Wing) (sai : Nat) (_tagOk _keyOk : Bool) (s : State) : Host.Outcome State Fault Refusal :=
  match s.sa w sai, s.ownGot w (.saRead sai) with
  | some x, some (st, _) =>
    if x.resident ∨ x.gone then .next (s.ownTaken w (.saRead sai))
    else if st = 2 then
      let s := (s.ownTaken w (.saRead sai)).modSa w sai fun x => { x with gone := true }
      .next ((s.log w .saStoreTag 0 sai 0 0).fetchFail w sai)
    else if st ≠ 0 then .next ((s.ownTaken w (.saRead sai)).askOwn w (.saRead sai) 3)
    else
      let j := fld x.r.keyRef 19 0
      let s := s.takeKey w j
      if (s.sa w sai).any Sa.keyGone then .next ((s.ownTaken w (.saRead sai)).fetchFail w sai)
      else if (s.wing w).kspill.contains j then .next s
      else
        let cls := ((s.waitSa w).find? (·.1 = sai)).elim 3 (·.2)
        let s := (((s.ownTaken w (.saRead sai)).evictSa w cls).modSa w sai fun x => { x with resident := true, used := s.rt }).cacheKey
          w j
        let s := if x.r.inb then s.countSa w sai .windowCollapse 1 else s
        .next (s.fetchDone w sai)
  | _, _ => .next s

/-! ## The insertion arbiter (R105) -/

/-- BOX_INSERTION (R105): the oldest request. -/
def execBoxInsertion (w : Wing) (s : State) : Host.Outcome State Fault Refusal :=
  match (s.wing w).box.reqs with
  | [] => .next s
  | r :: rest =>
    let own : Bool := match r with
      | .command _ _ => true
      | .learned _ _ _ _ => false
    let s := if rest.isEmpty then s else s.rhlGrant w 14 own
    let s := s.modBox w fun b => { b with reqs := rest }
    match r with
    | .learned kt key c f => .next (s.boxLearn w kt key c f)
    | .command ch e => match s.boxInstall w e with
      | (some slot, s) => .next (if s.chans[ch].waiting = some .box then s.finish ch .ok [wd (locator slot)] else s)
      | (none, s) => .next (if s.chans[ch].waiting = some .box then s.finish ch .boxFull [] else s)

/-! ## Timers of frames and entries -/

/-- LATE (R135). -/
def execLateFrame (p : Fin 64) (id : Nat) (s : State) : Host.Outcome State Fault Refusal :=
  let x := s.ports[p]
  match x.staging.find? fun f => f.id = id with
  | some f =>
    if f.ltime.any fun t => decide (t + x.sp.launchTol * 2 ^ 32 < (s.wing (portWing p)).prm.t) then
      .next (s.discardOut p f .late) else .next s
  | none => .next s

/-- LS_HOLD_LIMIT (R136): every staged frame of the port moves to the Green Room. -/
def execLsHoldLimit (p : Fin 64) (s : State) : Host.Outcome State Fault Refusal :=
  let x := s.ports[p]
  let w := portWing p
  if s.cpUp ∧ x.hold ∧ !x.holdSpent ∧ x.holdSince + x.sp.holdLimit * 1000 ≤ s.rt then
    let s := (s.modPort p fun x => { x with holdSpent := true }).countPort p .lsHoldLimit
    let s := x.staging.foldl (fun s f => (s.toGrq w (f.toG p 0xC)).unstage p f.id) s
    .next (s.log w .lsHoldLimit p.val 0 x.staging.length 0)
  else .next s

/-- REKEY_OVERLAP (R141): an overlap that runs goes on whatever its NEXT_SAI becomes (DESIGN CHOICE, assumption 19). -/
def execRekeyOverlap (w : Wing) (sai : Nat) (s : State) : Host.Outcome State Fault Refusal :=
  match s.sa w sai with
  | some x =>
    if x.st = .active ∧ x.r.overlapMs ≠ 0 ∧ (x.overlapAt.any fun t => decide (t + x.r.overlapMs * 1000000 ≤ s.rt)) then
      .next (s.startSaClose w sai) else .next s
  | none => .next s

/-- UNKEYED_TTL (R107). An entry in a slot that fails parity stays, as one that no unit acts on (R36), and still counts toward
LEARN_LIMIT (DESIGN CHOICE, assumption 16). -/
def execUnkeyedTtl (w : Wing) (slot : Nat) (s : State) : Host.Outcome State Fault Refusal :=
  match tget (s.wing w).box.slots slot with
  | some e =>
    if e.state = 1 ∧ !s.bad (.box w slot) ∧ e.at' + (s.wing w).unkeyedTtl * 1000000000 < s.rt then
      .next (s.boxClear w slot) else .next s
  | none => .next s

/-- GRQ_HOLD_TIMEOUT (R113). -/
def execGrqHoldTimeout (w : Wing) (handle : Nat) (s : State) : Host.Outcome State Fault Refusal :=
  let g := (s.wing w).grq
  match g.frames.find? fun f => f.handle = handle with
  | some f =>
    let q : Fin 3 := Fin.ofNat 3 f.queue
    if f.admRt + g.timeout[q] * 1000 ≤ s.rt then
      .next (s.modWing w fun x => { x with grq :=
        { x.grq with frames := x.grq.frames.filter fun f => f.handle ≠ handle,
                     timedOut := bumpAt x.grq.timedOut q 1, sumTo := bumpAt x.grq.sumTo q 1 } })
    else .next s
  | none => .next s

/-- GRQ_SUMMARY (R113): at most once per millisecond. -/
def execGrqSummary (w : Wing) (s : State) : Host.Outcome State Fault Refusal :=
  let g := (s.wing w).grq
  if g.sumAt.any fun t => decide (s.rt < t + 1000000) then .next s
  else
    let qs := (List.finRange 3).filter fun q => g.sumFull[q] + g.sumTo[q] ≠ 0
    if qs.isEmpty then .next s
    else
      let s := qs.foldl (fun s q => s.log w .grqSummary q.val 0 g.sumFull[q] g.sumTo[q]) s
      .next (s.modWing w fun x => { x with grq :=
        { x.grq with sumFull := Vector.replicate 3 0, sumTo := Vector.replicate 3 0, sumAt := some s.rt } })

/-! ## Leases (R142, R143, R271) -/

/-- The vault refuses a lease request: the wing retries later. -/
def State.leaseRefused (s : State) (w : Wing) (sai : Nat) : State := s.modSa w sai fun x => { x with leaseHeld := true }

/-- A grant reaches the wing: its first replaces the installed PN (R271). -/
def State.leaseGiven (s : State) (w : Wing) (sai a b : Nat) : State :=
  let s := s.modSa w sai fun x =>
    if x.leaseEnd = 0 then { x with pn := a, leaseEnd := b, leaseAsk := none, leaseHeld := false }
    else { x with leaseNext := some (a, b), leaseAsk := none, leaseHeld := false }
  ((s.countWing w .leaseGrants).rhlVault w 0 (leBytes 8 a ++ leBytes 8 b)).leaseOn w sai none

/-- LEASE_GRANT (R271). Without its path to the vault the wing gets no answer (R143). -/
def execLeaseGrant (w : Wing) (sai : Nat) (cut : JCut) (s : State) : Host.Outcome State Fault Refusal :=
  match s.sa w sai with
  | some x =>
    if !x.r.groupPn ∨ x.leaseAsk.isNone ∨ x.leaseHeld ∨ s.pathLost w then .next s
    else if s.vlt.keys.ret.isNone ∨ ((s.vlt.leaseIx sai).isNone ∧ s.vlt.leaseFree.isNone) then .next (s.leaseRefused w sai)
    else
      let a := ((s.vlt.leaseIx sai).bind fun i => s.vlt.lease i).elim 1 fun e => e.2.2
      if x.r.lastPn < a ∨ (a = 0 ∧ (s.vlt.leaseIx sai).isSome) then
        .next ((s.modSa w sai fun x => { x with leaseSpent := true, leaseAsk := none }).leaseOn w sai none)
      else
        let b := min (a + 65536) (x.r.lastPn + 1)
        let body := leBytes 4 (sai + b2n x.r.pn64 * 2 ^ 20) ++ leBytes 8 b
        .next (s.commitRecord 2 0 s.vlt.updCtr s.vlt.kumDigest body cut fun s =>
          (s.modVlt fun v => v.applySlot v.activeSlot).leaseGiven w sai a b)
  | none => .next s

/-- LEASE_REFRESH_RETRY (R143): a second after the last request. -/
def execLeaseRefreshRetry (w : Wing) (sai : Nat) (s : State) : Host.Outcome State Fault Refusal :=
  match s.sa w sai with
  | some x => match x.leaseAsk with
    | some t =>
      if t + 1000000000 ≤ s.rt then
        .next ((s.modSa w sai fun x => { x with leaseAsk := some s.rt, leaseHeld := false }).log w .leaseHold 0 sai
          (x.leaseEnd % 2 ^ 32) (x.leaseEnd / 2 ^ 32))
      else .next s
    | none => .next s
  | none => .next s

end Sys2Proof.Machine
end

