-- ==== Sys2Proof/Machine/KeyCmds.lean ====
section
/-! DEFINITION. The vault and key commands of the catalogue (R374): DEV_KEYS to ATTEST_REST. -/

namespace Sys2Proof.Machine

/-- DEV_KEYS (R244). Keys that the Iron zeroised give IRON_HELD. -/
def execDevKeys (ch : Fin 8) (s : State) : Host.Outcome State Fault Refusal :=
  .next (s.runCmd ch { op := 0x120, lenMin := 0, lenMax := 0 } fun s c => Res.vaultRec c (leBytes 4 s.vlt.ctx)
    (Res.vault s c
      (match s.vlt.keys.trans, s.vlt.keys.attest with
       | some t, some a =>
         .done s .ok (bytesToWords didBytes ++ [wd s.vlt.ctx] ++ bytesToWords (ecPub t) ++ bytesToWords (ecPub a))
       | _, _ => failed s .ironHeld)))

/-- KUM_PART (R374): the words stay gathered on the channel until they are given again. -/
def execKumPart (ch : Fin 8) (s : State) : Host.Outcome State Fault Refusal :=
  .next (s.runCmd ch { op := 0x121, lenMin := 1, lenMax := 62 } fun s c =>
    let n := fld (c.w 0) 21 16 - 1
    Res.need (c.clean 2 7 && decide (c.w 2 + n ≤ 104)) s
      (good (s.modChan c.ch fun x =>
        { x with kum := (List.range n).foldl (fun t i => tput t (c.w 2 + i) (c.words.getD (3 + i) 0)) x.kum })))

/-! ## KUM_SUBMIT, one row for each action (R263) -/

/-- Whether the KUM gathered on a channel has an action that a row is for. -/
def State.kumIs (s : State) (ch : Fin 8) (f : Nat → Bool) : Bool := f (kumAction s.chans[ch].kumWords)

/-- KUM_SUBMIT: one KUM or move at a time (R276), so nothing starts while a move is being burnt. -/
def State.runKum (s : State) (ch : Fin 8) (f : Nat → Bool) (action : Ctx → State → List Word → Res) : State :=
  if s.vlt.burn.isSome then s
  else s.runSel ch { op := 0x122, lenMin := 0, lenMax := 0, hold := true } (fun _ => s.kumIs ch f)
    fun s c => Res.vaultRec c (leBytes 4 s.vlt.ctx) (s.kum c (action c))

/-- INSTALL_KEY, and every action that is reserved (R262, R263). -/
def execInstallKey (ch : Fin 8) (cut : JCut) (s : State) : Host.Outcome State Fault Refusal :=
  .next (s.runKum ch (fun a => a < 2 || 5 < a) fun c s ws =>
    match s.vlt.kumKey ws with
    | .error st => s.kumReject c ws st
    | .ok (key, salt) =>
      let blob := s.vlt.kumBlob ws
      let k : Key := { attr := kumAttr ws, key := key, salt := salt, at' := s.rt }
      .done (s.commitKum ws (wordsToBytes blob) cut fun s =>
        (s.modVlt fun v => v.setVersion (kumKeyId ws) (kumCtr ws)).loadClassA (kumKeyId ws) k) .ok blob)

/-- DESTROY_KEY (R263): a loaded cell closes (R274). -/
def execDestroyKey (ch : Fin 8) (cut : JCut) (s : State) : Host.Outcome State Fault Refusal :=
  .next (s.runKum ch (· == 2) fun _ s ws =>
    good (s.commitKum ws [] cut fun s =>
      (s.modVlt fun v => v.setVersion (kumKeyId ws) (kumCtr ws)).startKeyClose (.classA (kumKeyId ws))))

/-- OWNER_ROTATE (R259, R263): the hash is burnt before the record commits. -/
def execOwnerRotate (ch : Fin 8) (cut : JCut) (s : State) : Host.Outcome State Fault Refusal :=
  .next (s.runKum ch (· == 3) fun c s ws =>
    match s.vlt.ownerSlot with
    | some i =>
      if i = 3 then s.kumReject c ws .ownerSlotsSpent
      else if !s.fuseOk then s.kumReject c ws .fuseRailAbsent
      else
        let h := sha384 (wordsToBytes (wordsAt ws 38 24))
        let n : Fin 4 := i + 1
        let s := s.modVlt fun v => { v with owner := v.owner.set n (some h) }
        good (s.commitKum ws [] cut fun s => s)
    | none => s.kumReject c ws .kumOwner)

/-- REINSTATE (R302): under the retention key, derived from ROOT where the Iron took it, and zeroised again where the record does
not commit. -/
def execReinstate (ch : Fin 8) (cut : JCut) (s : State) : Host.Outcome State Fault Refusal :=
  .next (s.runKum ch (· == 4) fun c s ws =>
    if !s.vlt.ironHeld then s.kumReject c ws .notIroned
    else if !s.vlt.quiet 0 then s.kumReject c ws .tamperActive
    else
      let ret := s.vlt.keys.ret
      let s := s.modVlt fun v => { v with keys := { v.keys with ret := some v.kumRet } }
      let s := s.commitKum ws [] cut fun s => s.modVlt fun v => (v.setIron false).deriveAll
      good (if cut = .beforeCommit then s.modVlt fun v => { v with keys := { v.keys with ret := ret } } else s))

/-- LC_MOVE (R280, R281). -/
def execLcMove (ch : Fin 8) (cut : JCut) (s : State) : Host.Outcome State Fault Refusal :=
  .next (s.runKum ch (· == 5) fun c s ws =>
    match s.vlt.moveBit (kumArg ws), cut with
    | some (bit, true), _ =>
      let s := s.abortVault .lcAbort (some c.ch)
      if !s.fuseOk then s.kumReject c ws .fuseRailAbsent else .wait (s.beginBurn bit) .burn
    | _, _ =>
      if s.vlt.lcCode = 4 ∧ kumArg ws = 5 then s.kumReject c ws .lcMovesSpent else s.kumReject c ws .lcRefused)

/-- OWNER_ENROL (R259). -/
def execOwnerEnrol (ch : Fin 8) (s : State) : Host.Outcome State Fault Refusal :=
  .next (if s.vlt.burn.isSome then s
    else s.runCmd ch { op := 0x123, lenMin := 12, lenMax := 12, hold := true } fun s c => Res.vaultRec c []
      (Res.vault s c
        (if s.vlt.lcCode ≠ 3 ∨ s.vlt.owner[(0 : Fin 4)].isSome then failed s .notPermitted
         else if !s.fuseOk then failed s .fuseRailAbsent
         else good (s.modVlt fun v => { v with owner := v.owner.set 0 (some (wordsToBytes (wordsAt c.words 2 12))) }))))

/-! ## Class A cells (R258, R274) -/

/-- BLOB_LOAD: the checks of R258 in their order. -/
def execBlobLoad (ch : Fin 8) (s : State) : Host.Outcome State Fault Refusal :=
  .next (s.runCmd ch { op := 0x124, lenMin := 27, lenMax := 27, hold := true, iron := true } fun s c =>
    let blob := wordsAt c.words 2 27
    let id := fld (wordAt blob 0) 22 16
    let a := KeyAttr.ofWords blob 3
    Res.vaultRec c (leBytes 4 (KLoc.classA id).ref ++ wordsToBytes a.words) (Res.vault s c
      (match kwUnwrap (s.vlt.keys.wkr.getD []) (wordsToBytes (wordsAt blob 7 20)) with
       | none => failed s .blobInvalid
       | some m =>
         if m.take 28 ≠ wordsToBytes (blob.take 7) ∨ a.clsB then failed s .blobInvalid
         else if wordsNat (wordsAt blob 1 2) ≠ s.vlt.version id then
           failed (s.countWing (s.cmdWing c) .blobStale) .blobStale
         else if !a.lcAllowed.testBit (s.vlt.lcCode - 1) then failed s .lcRefused
         else
           let (k, s) := s.readKey (s.cmdWing c) (.classA id)
           match k with
           | some k => failed s (if k.closeAt.isSome then .unitClosing else .classALoaded)
           | none =>
             if s.vlt.freeCell.isNone then failed s .classAFull
             else good (s.loadClassA id
               { attr := a, key := (m.drop 28).take 32, salt := (m.drop 60).take 12, at' := s.rt }))))

/-- Closing a key that a command names: joined where it closes already, at once with FORCE (R274, R345). -/
def State.closeKey (s : State) (c : Ctx) (l : KLoc) (w : Wait) : Res :=
  if (s.vlt.keyAt l).isNone then failed s .notFound
  else if c.force then good (s.forceKey l)
  else .wait (s.startKeyClose l) w

/-- CLASS_A_UNLOAD (R274). -/
def execClassAUnload (ch : Fin 8) (s : State) : Host.Outcome State Fault Refusal :=
  .next (s.runCmd ch { op := 0x125, lenMin := 1, lenMax := 1, close := true, hold := true, iron := true } fun s c =>
    Res.need (c.clean 2 7) s (Res.vault s c (s.closeKey c (.classA (c.w 2)) (.classA (c.w 2)))))

/-! ## Class B keys (R267, R268) -/

/-- A target and its attributes as an operation gives them: MALFORMED where the reference is no target or a reserved bit
is set. -/
def Res.target (s : State) (c : Ctx) (i ai : Nat) (f : KLoc → KeyAttr → Res) : Res :=
  match kLoc (c.w i) with
  | some l =>
    Res.need (c.clean i 24 && l.isTarget && keyAttrClean c.words ai) s
      (Res.vaultRec c (leBytes 4 l.ref ++ wordsToBytes (wordsAt c.words ai 4))
        (Res.vault s c (f l { KeyAttr.ofWords c.words ai with generated := false })))
  | none => failed s .malformed

/-- A key that a command names, used once (R254, R255). -/
def Res.named (s : State) (c : Ctx) (ref : Nat) (u : Usage) (f : State → KLoc → Key → Res) : Res :=
  match kLoc ref with
  | some l =>
    Res.need (decide (ref < 2 ^ 24)) s (Res.keyBack s c l
      (match s.commandKey c l u with
       | (.error st, s) => failed s st
       | (.ok k, s) => f s l k))
  | none => failed s .malformed

/-- KEY_GENERATE (R267): with a wrapped copy where one is asked for. -/
def execKeyGenerate (ch : Fin 8) (s : State) : Host.Outcome State Fault Refusal :=
  .next (s.runCmd ch { op := 0x126, lenMin := 9, lenMax := 9, hold := true, iron := true } fun s c =>
    Res.target s c 2 3 fun l a0 =>
      let a := { a0 with generated := true }
      let wrap := bitOf (c.w 10) 31
      let place (s : State) (kek : Option (KLoc × Key)) : Res :=
        if !s.vlt.drbgOk then failed s .entropyFail
        else
          let (m, s) := s.draw (ktypeLen a.ktype)
          let (st, s) := s.placeKey (s.cmdWing c) l (s.newKey a m (c.salt 7))
          match kek with
          | some (kl, k) =>
            let out := kwWrap k.material m
            .done (s.useKey (s.cmdWing c) kl 1) st (if st = .ok then [wd out.length] ++ bytesToWords (padTo 40 out) else [])
          | none => .done s st (if st = .ok then List.replicate 11 0 else [])
      Res.need (decide (fld (c.w 10) 30 24 = 0)) s
        (match s.placeCheck c l a with
         | (some st, s) => failed s st
         | (none, s) =>
           if wrap then
             (if !a.wrapOut then failed s .keyRefused
              else Res.named s c (fld (c.w 10) 23 0) .wrap fun s kl k => place s (some (kl, k)))
           else place s none))

/-- KEY_UNWRAP (R267). -/
def execKeyUnwrap (ch : Fin 8) (s : State) : Host.Outcome State Fault Refusal :=
  .next (s.runCmd ch { op := 0x127, lenMin := 20, lenMax := 20, hold := true, iron := true } fun s c =>
    Res.target s c 2 4 fun l a =>
      match s.placeCheck c l a with
      | (some st, s) => failed s st
      | (none, s) =>
        if c.w 11 ≠ ktypeLen a.ktype + 8 then failed s .keyRefused
        else Res.named s c (c.w 3) .wrap fun s kl k =>
          match kwUnwrap k.material ((wordsToBytes (wordsAt c.words 12 10)).take (c.w 11)) with
          | none => failed s .unwrapFail
          | some m =>
            let (st, s) := (s.useKey (s.cmdWing c) kl 1).placeKey (s.cmdWing c) l (s.newKey a m (c.salt 8))
            .done s st [])

/-- KEY_DERIVE (R243, R267). -/
def execKeyDerive (ch : Fin 8) (s : State) : Host.Outcome State Fault Refusal :=
  .next (s.runCmd ch { op := 0x128, lenMin := 13, lenMax := 13, hold := true, iron := true } fun s c =>
    Res.target s c 2 4 fun l a =>
      match s.placeCheck c l a with
      | (some st, s) => failed s st
      | (none, s) => Res.named s c (c.w 3) .derive fun s kl k =>
          let m := derive k.material "HOST-DRV" s.vlt.ctx (8 * ktypeLen a.ktype) (wordsToBytes (wordsAt c.words 11 4))
          let (st, s) := (s.useKey (s.cmdWing c) kl 1).placeKey (s.cmdWing c) l (s.newKey a m (c.salt 8))
          .done s st [])

/-- MKA_DERIVE (R268): the ICK and the KEK of a CAK into two session keys. -/
def execMkaDerive (ch : Fin 8) (s : State) : Host.Outcome State Fault Refusal :=
  .next (s.runCmd ch { op := 0x129, lenMin := 12, lenMax := 12, hold := true, iron := true } fun s c =>
    let isA : Bool := match kLoc (c.w 2) with
      | some (.classA _) => true
      | _ => false
    let n := c.w 5
    Res.need (isA && c.clean 2 24 && c.clean 3 20 && c.clean 4 20 && decide (1 ≤ n ∧ n ≤ 32)) s
      (Res.vaultRec c (leBytes 4 (c.w 2)) (Res.vault s c
        (let (b1, s) := s.holdsKey (s.cmdWing c) (.sess (c.w 3))
         let (b2, s) := s.holdsKey (s.cmdWing c) (.sess (c.w 4))
         if b1 ∨ b2 ∨ c.w 3 = c.w 4 then failed s .keySlotBusy
         else Res.named s c (c.w 2) .mka fun s kl k =>
           let ckn := (wordsToBytes (wordsAt c.words 6 8)).take n
           let bits := 8 * ktypeLen k.attr.ktype
           let mk (label : String) (u : Usage) : Key := s.newKey (mkaAttr k.attr u) (mkaKdf k.material label ckn bits) []
           let s' := s.useKey (s.cmdWing c) kl 1
           good (((s'.placeKey (s.cmdWing c) (.sess (c.w 3)) (mk "IEEE8021 ICK" .icv)).2).placeKey (s.cmdWing c) (.sess (c.w 4))
             (mk "IEEE8021 KEK" .wrap)).2))))

/-- MKA_ICV (R268): the parts gather on the channel until the last. -/
def execMkaIcv (ch : Fin 8) (s : State) : Host.Outcome State Fault Refusal :=
  .next (s.runCmd ch { op := 0x12A, lenMin := 3, lenMax := 61, hold := true, iron := true } fun s c =>
    let n := fld (c.w 3) 15 8
    let len := fld (c.w 0) 21 16
    Res.need (c.clean 2 24 && decide (fld (c.w 3) 7 2 = 0 ∧ fld (c.w 3) 31 16 = 0 ∧ 1 ≤ n ∧ n ≤ 236
        ∧ len = 2 + (n + 3) / 4)) s
      (Res.vaultRec c (leBytes 4 (c.w 2)) (Res.vault s c (Res.named s c (c.w 2) .icv fun s kl k =>
        let bytes := (wordsToBytes (wordsAt c.words 4 59)).take n
        let all := (if bitOf (c.w 3) 0 then [] else s.chans[c.ch].icv) ++ bytes
        let last := bitOf (c.w 3) 1
        let s := (s.useKey (s.cmdWing c) kl 1).modChan c.ch fun x => { x with icv := if last then [] else all }
        .done s .ok (if last then bytesToWords (cmac k.material all) else [])))))

/-- Whether an SA that has not reported CLOSED names a key (R274). -/
def State.keyInUse (s : State) (ref : Nat) : Bool :=
  ((s.sl.sas ++ s.sr.sas).any fun e => e.2.st ≠ .closed ∧ e.2.r.keyRef = ref)
    || s.chans.any fun c => c.staged.any fun e => match e.2 with
      | .saInstall _ r _ => r.keyRef = ref
      | _ => false

/-- KEY_DESTROY (R274): a session key that no SA uses goes at once, a memory key slot closes. -/
def execKeyDestroy (ch : Fin 8) (s : State) : Host.Outcome State Fault Refusal :=
  .next (s.runCmd ch { op := 0x12B, lenMin := 1, lenMax := 1, close := true, hold := true, iron := true } fun s c =>
    Res.need (c.clean 2 24) s
      (match kLoc (c.w 2) with
       | some (.sess j) => Res.vault s c
         (if (tget s.vlt.sess j).isNone then failed s .notFound
          else if s.keyInUse (c.w 2) then failed s .keyInUse
          else good (s.endKeyClose (.sess j) c.force))
       | some (.slot k) => Res.vault s c
         (if (tget s.vlt.slots k).isNone then failed s .notFound
          else if c.force then good (s.forceKey (.slot k))
          else .wait (s.startKeyClose (.slot k)) (.key (c.w 2)))
       | _ => failed s .malformed))

/-- KEY_INFO (R245). -/
def execKeyInfo (ch : Fin 8) (s : State) : Host.Outcome State Fault Refusal :=
  .next (s.runCmd ch { op := 0x12C, lenMin := 1, lenMax := 1 } fun s c =>
    Res.need (c.clean 2 24) s
      (match kLoc (c.w 2) with
       | some l => Res.vaultRec c (leBytes 4 (c.w 2)) (Res.vault s c (Res.keyBack s c l
         (let (k, s) := s.readKey (s.cmdWing c) l
          match k, l with
          | some k, _ => .done s .ok (k.attr.words ++ [wd k.uses, 1])
          | none, .classA id => if s.vlt.version id ≠ 0 then .done s .ok (List.replicate 6 0) else failed s .notFound
          | none, _ => failed s .notFound)))
       | none => failed s .malformed))

/-! ## Attestation (R272, R273) -/

/-- A KEY statement's subject: a key whose owner, state and end are checked, whatever its use. -/
def State.attestKey (s : State) (c : Ctx) (l : KLoc) : Except Status Key × State :=
  let w := s.cmdWing c
  let (k, s) := s.readKey w l
  match k with
  | none => (.error .notFound, s)
  | some k =>
    if k.closeAt.isSome ∨ !k.attr.lcAllowed.testBit (s.vlt.lcCode - 1) ∨ !k.attr.groups.testBit c.group
        ∨ !(if c.world then k.attr.world1 else k.attr.world0) then (.error .keyRefused, s)
    else if k.ended s.rt then (.error .keySpent, s.spend w l)
    else (.ok k, s)

/-- ATTEST (R272, R273, R279): IDENTITY alone in RETIRED; a LINK under the key of the context before. -/
def execAttest (ch : Fin 8) (s : State) : Host.Outcome State Fault Refusal :=
  .next (s.runCmd ch { op := 0x12D, lenMin := 6, lenMax := 6, hold := true, iron := true } fun s c =>
    let kind := c.w 2
    let nonce := wordsAt c.words 4 4
    let v := s.vlt
    let own := v.keys.attest.getD (attestKeyOf v.ctx)
    let z4 : List Word := List.replicate 4 0
    Res.need (decide (1 ≤ kind ∧ kind ≤ 3)) s
      (Res.vaultRec c (leBytes 4 v.ctx) (Res.vault s c
        (if v.lcCode = 6 ∧ kind ≠ 2 then failed s .lcRefused
         else if kind = 1 then
           (match kLoc (c.w 3) with
            | some l => Res.need (c.clean 3 24) s (Res.keyBack s c l
              (match s.attestKey c l with
               | (.error st, s) => failed s st
               | (.ok k, s) => if !v.drbgOk then failed s .entropyFail
                 else (s.useKey (s.cmdWing c) l 1).sign c own (s.statement 1 v.ctx nonce l.ref k.attr.words
                   ((cmac k.material (asciiBytes "TRILOTH KEYCHECK")).take 8) [])))
            | none => failed s .malformed)
         else if kind = 2 then s.sign c own (s.statement 2 v.ctx nonce 0 z4 [] (ecPub own))
         else if v.lcCode = 1 ∨ v.prev = 0 ∨ v.prev = v.ctx then failed s .keyRefused
         else s.sign c (attestKeyOf v.prev) (s.statement 3 v.prev nonce v.ctx z4 [] (ecPub own))))))

/-- ATTEST_REST (R374). -/
def execAttestRest (ch : Fin 8) (s : State) : Host.Outcome State Fault Refusal :=
  .next (s.runCmd ch { op := 0x12E, lenMin := 0, lenMax := 0 } fun s c =>
    let st := s.chans[c.ch].stmt
    if st.length ≤ 62 then failed s .notFound else .done s .ok ((st.drop 62).take 6))

end Sys2Proof.Machine
end

