-- ==== Sys2Proof/Machine/LifeCmds.lean ====
section
/-! DEFINITION. The life-cycle and tamper commands of the catalogue (R374): BOOT_STATUS to TAMPER_RELEASE. -/

namespace Sys2Proof.Machine

/-! ## Start-up -/

/-- BOOT_STATUS (R284). -/
def execBootStatus (ch : Fin 8) (s : State) : Host.Outcome State Fault Refusal :=
  .next (s.runCmd ch { op := 0x140, lenMin := 0, lenMax := 0 } fun s _ =>
    let st := match s.boot.phase with
      | .held st => st.code
      | _ => 0
    .done s .ok [wd (st + s.vlt.lcCode * 2 ^ 8), wd s.vlt.ctx])

/-- RCB_READ (R305): the second half marks every entry read. -/
def execRcbRead (ch : Fin 8) (s : State) : Host.Outcome State Fault Refusal :=
  .next (s.runCmd ch { op := 0x141, lenMin := 1, lenMax := 1 } fun s c =>
    Res.need (c.clean 2 1) s (Res.vault s c
      (let ws := bytesToWords (memBytes s.vlt.sram (0xE00 + 128 * c.w 2) 128)
       .done (if c.w 2 = 1 then s.modVlt fun v => { v with rcbUnread := false, rcbFill := 0 } else s) .ok ws)))

/-- Words of the longest image: its head and a body of 458,752 bytes (R285). -/
def imageMax : Nat := 41 + 458752 / 4

/-- Writing the words of an image part. -/
def Ctx.imagePut (c : Ctx) (t : Tbl Word) (n : Nat) : Tbl Word :=
  (List.range n).foldl (fun t i => tput t (c.w 2 + i) (c.words.getD (3 + i) 0)) t

/-- Words of an image, as far as its length word says it (R374). -/
def imageEnd (t : Tbl Word) : Nat :=
  match tget t 2 with
  | some l => min imageMax (41 + l.toNat / 4)
  | none => imageMax

/-- An image part taken into the words already given; none where it reaches past the image's length. -/
def Ctx.imagePart (c : Ctx) (t : Tbl Word) : Option (Tbl Word) :=
  let n := fld (c.w 0) 21 16 - 1
  if c.w 2 + n ≤ imageMax then
    let t := c.imagePut t n
    if c.w 2 + n ≤ imageEnd t then some t else none
  else none

/-- IMAGE_WRITE (R285). -/
def execImageWrite (ch : Fin 8) (s : State) : Host.Outcome State Fault Refusal :=
  .next (s.runCmd ch { op := 0x142, lenMin := 1, lenMax := 62 } fun s c =>
    match c.imagePart s.boot.image with
    | some t => good { s with boot := { s.boot with image := t } }
    | none => failed s .malformed)

/-- Words of an image, 0 where none was given. -/
def imageWords (t : Tbl Word) (i n : Nat) : List Word := (List.range n).map fun k => (tget t (i + k)).getD 0

/-- Whether every word of an image was given (R374). -/
def imageWhole (t : Tbl Word) (n : Nat) : Bool := decide ((t.take n).map (·.1) = List.range n)

/-- The checks of R286 for the state whose code is given. -/
def imageOk (t : Tbl Word) (lc : Nat) : Bool :=
  let h := imageWords t 0 17
  let w := wordAt h
  let len := w 2
  let body := wordsToBytes (imageWords t 41 (len / 4))
  let pub := body.take 96
  decide (w 0 = 1 ∧ fld (w 3) 31 6 = 0 ∧ fld (w 4) 31 2 = 0 ∧ len % 4 = 0 ∧ 4 ≤ len ∧ len ≤ 458752)
    && imageWhole t (41 + len / 4)
    && decide (beNat (sha384 pub) = (Config.scriptKeyHash (Fin.ofNat 4 (w 4))).toNat)
    && ecdsaVerify pub (sha384 (wordsToBytes h)) (wordsToBytes (imageWords t 17 24))
    && decide (sha384 body = wordsToBytes (h.drop 5)) && (w 3).testBit (lc - 1)

/-- IMAGE_GO (R286, R287): an image refused is not kept. -/
def execImageGo (ch : Fin 8) (s : State) : Host.Outcome State Fault Refusal :=
  .next (s.runCmd ch { op := 0x143, lenMin := 0, lenMax := 0 } fun s _ =>
    let t := s.boot.image
    if imageOk t s.vlt.lcCode then
      let w1 := wordAt (imageWords t 1 1) 0
      good { s with boot := { s.boot with phase := .loading, hash := wordsToBytes (imageWords t 5 12),
                                          scriptLevel := fld w1 15 0, stambe := fld w1 31 16 } }
    else failed { s with boot := { s.boot with image := [] } } .imageInvalid)

/-! ## Life cycle -/

/-- LC_STATUS (R374). -/
def execLcStatus (ch : Fin 8) (s : State) : Host.Outcome State Fault Refusal :=
  .next (s.runCmd ch { op := 0x144, lenMin := 0, lenMax := 0 } fun s c => Res.vault s c
    (let v := s.vlt
     .done s .ok ([wd (v.lcCode + v.lcSeq * 2 ^ 8 + v.epoch * 2 ^ 16 + b2n v.ironHeld * 2 ^ 25 + b2n v.hold * 2 ^ 26)]
       ++ v.cond.toList.map wd)))

/-- A move that no KUM authorises: nothing starts while another is being burnt (R276). Its request checked, every key operation in
progress is aborted (R281 step 1). -/
def State.unsignedMove (s : State) (c : Ctx) (bit : Option Nat) : Res :=
  Res.vault s c (match bit with
    | some b =>
      let s := s.abortVault .lcAbort (some c.ch)
      if s.fuseOk then .wait (s.beginBurn b) .burn else failed s .fuseRailAbsent
    | none => failed s .lcRefused)

/-- LC_ADVANCE (R280, R281). -/
def execLcAdvance (ch : Fin 8) (s : State) : Host.Outcome State Fault Refusal :=
  .next (if s.vlt.burn.isSome then s
    else s.runCmd ch { op := 0x145, lenMin := 1, lenMax := 1, hold := true } fun s c =>
      Res.need (c.clean 2 8) s (s.unsignedMove c (match s.vlt.moveBit (c.w 2) with
        | some (b, kum) => if kum ∨ c.w 2 = 6 then none else some b
        | none => none)))

/-- LC_RETIRE (R280, R284): from every state where start-up is held with EPOCH_EXHAUSTED. -/
def execLcRetire (ch : Fin 8) (s : State) : Host.Outcome State Fault Refusal :=
  .next (if s.vlt.burn.isSome then s
    else s.runCmd ch { op := 0x146, lenMin := 0, lenMax := 0, hold := true } fun s c =>
      s.unsignedMove c (if s.boot.phase = .held .epochExhausted then some 19
        else match s.vlt.moveBit 6 with
          | some (b, false) => some b
          | _ => none))

/-! ## Tamper settings and hold -/

/-- Settings words 0 to 9 within R295. -/
def settingsOk (ws : List Word) : Bool :=
  let w := wordAt ws 0
  decide (fld w 7 4 = 0 ∧ 1 ≤ fld w 15 8 ∧ 100 ≤ fld w 31 16) && (List.range 9).all fun i => wordAt ws (1 + i) < 4096

/-- Whether some level for a state code of the list falls. -/
def Vault.lowers (v : Vault) (ws : List Word) (codes : List Nat) : Bool :=
  (List.range 9).any fun i => codes.any fun lc => respLevel (wordAt ws (1 + i)) lc < respLevel (v.setting (1 + i)) lc

/-- Whether a write in SERVICE is locked (R297, R298), against the settings written last. -/
def Vault.settingsLocked (v : Vault) (ws : List Word) : Bool :=
  let o := v.setting 0
  let n := wordAt ws 0
  let longer := decide (fld o 15 8 < fld n 15 8 ∨ fld o 31 16 < fld n 31 16)
  let clears := decide (fld o 3 0 &&& fld n 3 0 ≠ fld o 3 0)
  v.lowers ws [4, 5] || clears || (longer && !((v.setting 10).testBit 16 && !v.lowers ws [1, 2, 3, 4, 5, 6]))

/-- TAMPER_SET (R295, R297, R298): a write ends restoration. Without the retention key it cannot be made. -/
def execTamperSet (ch : Fin 8) (s : State) : Host.Outcome State Fault Refusal :=
  .next (s.runCmd ch { op := 0x147, lenMin := 10, lenMax := 10 } fun s c =>
    let ws := wordsAt c.words 2 10
    Res.need (settingsOk ws) s (Res.vault s c
      (if s.vlt.keys.ret.isNone then failed s .ironHeld
       else if s.vlt.lcCode = 4 ∧ s.vlt.settingsLocked ws then failed s .tamperLocked
       else good (s.modVlt fun v =>
         let m := memWr32 (memPut v.sram 0xF00 (wordsToBytes ws)) 0xF28 ((v.setting 10 + 1) % 2 ^ 16)
         Vault.setMac { v with sram := m }))))

/-- TAMPER_GET (R295). -/
def execTamperGet (ch : Fin 8) (s : State) : Host.Outcome State Fault Refusal :=
  .next (s.runCmd ch { op := 0x148, lenMin := 0, lenMax := 0 } fun s c => Res.vault s c
    (.done s .ok ((List.range 11).map fun i => wd (s.vlt.setting i))))

/-- TAMPER_RELEASE (R294). -/
def execTamperRelease (ch : Fin 8) (s : State) : Host.Outcome State Fault Refusal :=
  .next (s.runCmd ch { op := 0x149, lenMin := 0, lenMax := 0 } fun s c => Res.vault s c
    (if !s.vlt.hold then good s
     else if s.vlt.quiet 1000000 then good (s.modVlt fun v => { v with hold := false })
     else failed s .tamperActive))

end Sys2Proof.Machine
end

