-- ==== Sys2Proof/Machine/MemCmds.lean ====
section
/-! DEFINITION. The lane and memory commands of the catalogue (R374): CLASS_SET, LANE_STATUS, STORE_SET, REGION_INSTALL to
REGION_PIN, MEMSLOT_LOAD. -/

namespace Sys2Proof.Machine

/-! ## Lanes -/

/-- CLASS_SET (R153), staged. -/
def execClassSet (ch : Fin 8) (s : State) : Host.Outcome State Fault Refusal :=
  .next (s.runCmd ch { op := 0x0C0, lenMin := 1, lenMax := 1, wing := 1 } fun s c =>
    let x := ClassCfg.ofWord (c.w 2)
    if x.ok then good (s.stage c.ch [c.wing] (.classCfg c.wing x)) else failed s .classCfgInvalid)

/-- The code of a role in LANE_STATUS. -/
def Role.code : Role → Nat
  | .reserved => 0
  | .shared => 1
  | .lent => 2
  | .understudy => 3
  | .struck => 4

/-- The word of a lane in LANE_STATUS as a wing reports it (R152, R336). -/
def State.laneWord (s : State) (serving : Wing) (l : Fin 28) : Word :=
  if s.reach serving (laneWing l) then
    let x := s.lanes[l]
    let house := s.role l = .understudy ∧ x.items.any fun i => i.cls = 3
    wd ((s.role l).code + b2n house * 8 + b2n x.closing * 16)
  else wd 7

/-- LANE_STATUS (R152). -/
def execLaneStatus (ch : Fin 8) (s : State) : Host.Outcome State Fault Refusal :=
  .next (s.runCmd ch { op := 0x0C1, lenMin := 0, lenMax := 0 } fun s c =>
    .done s .ok ((List.finRange 28).map (s.laneWord s.chans[c.ch].mapWing)))

/-! ## Regions -/

/-- Whether some memory port of a region keeps tags in the carve-out (R66, R178). -/
def State.carves (s : State) (d : RDesc) : Bool :=
  decide (d.mode ≠ 0) && (!s.sideband d 0 || !s.sideband d 4096)

/-- First address and length of each area of a region: its pages, its counters, its tree and, where it has one, its tags
(R177). -/
def State.areas (s : State) (d : RDesc) : List (Nat × Nat) :=
  [(d.base, d.last + 1 - d.base)] ++ (if d.mode = 0 then [] else [(d.ctrBase, 64 * d.pages), (d.treeBase, 64 * d.nodes)])
    ++ (if s.carves d then [(d.tagBase, d.tagBytes)] else [])

/-- Whether two areas share an address. -/
def areasMeet (a b : Nat × Nat) : Bool := decide (a.1 < b.1 + b.2 ∧ b.1 < a.1 + a.2)

/-- Whether any two of a list of areas share an address. -/
def areasClash : List (Nat × Nat) → Bool
  | [] => false
  | a :: t => t.any (areasMeet a) || areasClash t

/-- The restrictions of R175 and the top of the address space (R176). -/
def State.rdescOk (s : State) (d : RDesc) : Bool :=
  decide (d.mode ≤ 2 ∧ d.mpMap ≤ 2 ∧ (d.repair → d.mode = 2) ∧ (d.retain → d.mode ≠ 0) ∧ d.base % 4096 = 0
    ∧ d.last % 4096 = 4095 ∧ d.base ≤ d.last ∧ d.ctrBase % 4096 = 0 ∧ d.treeBase % 4096 = 0
    ∧ (s.carves d → d.tagBase % 4096 = 0)) && (s.areas d).all fun a => a.1 + a.2 ≤ 2 ^ 40

/-- The regions installed. -/
def State.installed (s : State) : List Region := s.regions.toList.filter (·.st ≠ .notInstalled)

/-- Bytes of the CONFIDENTIAL and AUTHENTICATED regions installed (R174). -/
def State.protectedBytes (s : State) : Nat :=
  s.installed.foldl (fun n x => if x.d.mode = 0 then n else n + (x.d.last + 1 - x.d.base)) 0

/-- Bytes that a wing pins, those of regions included whose lines are still locked (R190). -/
def State.pinnedBytes (s : State) (w : Wing) : Nat :=
  (List.finRange 64).foldl (fun n r =>
    let x := s.regions[r]
    if x.st ≠ .notInstalled ∧ x.st ≠ .closed ∧ x.d.mode ≠ 0 ∧ x.d.owner = w ∧ (x.d.pin ∨ s.holdsLocks r)
      then n + (x.d.last + 1 - x.d.base) else n) 0

/-- The descriptor check of R212 under the retention key. -/
def State.descCheck (s : State) (r : Fin 64) (d : RDesc) : Bytes :=
  (cmac (s.vlt.keys.ret.getD []) (d.checkBytes r.val)).take 8

/-- The key check of an install (R176, R254): the status it fails with. -/
def State.treeKeyCheck (s : State) (d : RDesc) : Option Status × State :=
  let (k, s) := s.slotKey d.owner (fld d.treeKey 11 0)
  match k with
  | none => (some .keyRefused, s)
  | some k =>
    if k.allows .memory s.vlt.lcCode none ∧ !k.ended s.rt then (none, s) else (some .keyRefused, s)

/-- A region installed: resumed from the vault's record, or in INIT (R179). Its counts go on (R118, R214); metadata lines whose check
failed keep failing unless the region is installed afresh (R204). -/
def State.putRegion (s : State) (r : Fin 64) (d : RDesc) (use : RUse) : State :=
  let fill := d.pin && decide (d.mode ≠ 0)
  let cnt := s.regions[r].cnt
  if d.resume then
    let x : Region := { st := .active, d := d, use := use, root := leNat ((s.vlt.regionRec r.val).take 8),
                        fillIx := if fill then some 0 else none, readyLate := fill, cnt := cnt,
                        badMeta := s.regions[r].badMeta }
    let s := s.modRegion r fun _ => x
    if fill then s else s.log d.owner .regionReady r.val 0 0 0
  else s.modRegion r fun _ => { st := .init, d := d, use := use, cnt := cnt }

/-- The checks of an install in the order of R176, and the install (R279, R301, R345). -/
def State.installRegion (s : State) (c : Ctx) (r : Fin 64) (d : RDesc) (use : RUse) (clean : Bool) : Res :=
  if s.vlt.ironHeld then failed s .ironHeld
  else if s.vlt.lcCode = 6 then failed s .lcRefused
  else Res.reaching s c d.owner
    (if s.regions[r].st = .closing then failed s .unitClosing
     else if s.regions[r].st ≠ .notInstalled ∨ !clean ∨ !s.rdescOk d
         ∨ (use = .host ∧ d.mode ≠ 0 ∧ (fld d.treeKey 23 22 ≠ 1 ∨ fld d.treeKey 21 12 ≠ 0)) then failed s .regionInvalid
     else if areasClash (s.areas d) ∨ (s.areas d).any fun a => s.installed.any fun x => (s.areas x.d).any (areasMeet a)
       then failed s .regionOverlap
     else if d.mode ≠ 0 ∧ 2 ^ 36 < s.protectedBytes + (d.last + 1 - d.base) then failed s .protectedFull
     else if d.mode ≠ 0 ∧ d.pin ∧ 2 ^ 28 < s.pinnedBytes d.owner + (d.last + 1 - d.base) then failed s .pinFull
     else if d.resume ∧ (s.vlt.regionRec r.val).drop 8 ≠ s.descCheck r d then failed s .resumeMismatch
     else if use = .host ∧ d.mode ≠ 0 then
       (match s.treeKeyCheck d with
        | (some st, s) => failed s st
        | (none, s) => good (s.putRegion r d use))
     else good (s.putRegion r d use))

/-- REGION_INSTALL (R175, R176, R179). -/
def execRegionInstall (ch : Fin 8) (s : State) : Host.Outcome State Fault Refusal :=
  .next (s.runCmd ch { op := 0x0E0, lenMin := 16, lenMax := 16 } fun s c =>
    let (r, d) := rdescOfWords c.words 2
    s.installRegion c r d .host (rdescClean c.words 2))

/-- STORE_SET (R122, R243, R249): an AUTHENTICATED region of at least 272 MiB under keys of the WKR; its key fields are
ignored. -/
def execStoreSet (ch : Fin 8) (s : State) : Host.Outcome State Fault Refusal :=
  .next (s.runCmd ch { op := 0x007, lenMin := 17, lenMax := 17 } fun s c =>
    let (r, d0) := rdescOfWords c.words 2
    let d := { d0 with treeKey := 0 }
    let spill := bitOf (c.w 18) 0
    Res.need (c.clean 18 1) s
      (if (if spill then s.spill.isSome else (s.wing d.owner).store.isSome) then failed s .alreadyExists
       else
         let ok := rdescClean c.words 2 && decide (d.mode = 2 ∧ 272 * 2 ^ 20 ≤ d.last + 1 - d.base)
         match s.installRegion c r d (if spill then .spill else .saStore) ok with
         | .done s .ok _ => good (if spill then { s with spill := some r }
             else s.modWing d.owner fun x => { x with store := some r })
         | x => x))

/-- A region that a command names: NOT_FOUND where it is not installed, WING_UNREACHABLE where its wing is not reached. -/
def Res.region (s : State) (c : Ctx) (n : Nat) (f : Fin 64 → Res) : Res :=
  let r : Fin 64 := Fin.ofNat 64 (c.w 2)
  Res.need (c.clean 2 n) s
    (if s.regions[r].st = .notInstalled then failed s .notFound else Res.reaching s c s.regions[r].d.owner (f r))

/-- REGION_READ (R175). -/
def execRegionRead (ch : Fin 8) (s : State) : Host.Outcome State Fault Refusal :=
  .next (s.runCmd ch { op := 0x0E1, lenMin := 1, lenMax := 1 } fun s c => Res.region s c 6 fun r =>
    let x := s.regions[r]
    .done s .ok (x.d.words r.val x.st.code x.d.depth (s.bad (.region x.d.owner r.val)) x.root))

/-- REGION_CLOSE (R211, R343). -/
def execRegionClose (ch : Fin 8) (s : State) : Host.Outcome State Fault Refusal :=
  .next (s.runCmd ch { op := 0x0E2, lenMin := 1, lenMax := 1, close := true } fun s c => Res.region s c 6 fun r =>
    if s.regions[r].st = .closed then good s
    else if c.force then good (s.forceRegion r)
    else .wait (s.startRegionClose r) (.region r))

/-- Removing a region: what named it as a store names nothing more. Its index keeps which metadata lines failed (R204). -/
def State.removeRegion (s : State) (r : Fin 64) : State :=
  let s := (s.modRegion r fun x => { cnt := x.cnt, badMeta := x.badMeta }).fix (.region s.regions[r].d.owner r.val)
  let s := if s.spill = some r then { s with spill := none } else s
  s.eachWing fun s w => if (s.wing w).store = some r then s.modWing w fun x => { x with store := none } else s

/-- REGION_REMOVE (R374): the region must be CLOSED. -/
def execRegionRemove (ch : Fin 8) (s : State) : Host.Outcome State Fault Refusal :=
  .next (s.runCmd ch { op := 0x0E3, lenMin := 1, lenMax := 1 } fun s c => Res.region s c 6 fun r =>
    if s.regions[r].st = .closed then good (s.removeRegion r) else failed s .unitClosing)

/-- REGION_PIN (R190): a change on an ACTIVE region takes effect once the accesses in flight have ended; a pin is filled before it is
answered, an unpinning is answered once its lines are written back; in INIT the pin is applied with INIT. -/
def execRegionPin (ch : Fin 8) (s : State) : Host.Outcome State Fault Refusal :=
  .next (s.runCmd ch { op := 0x0E4, lenMin := 1, lenMax := 1 } fun s c => Res.region s c 7 fun r =>
    let x := s.regions[r]
    let pin := bitOf (c.w 2) 6
    let flight : List (Fin 4 × Nat) := (List.finRange 4).flatMap fun q => (s.rqps[q].accs.filter fun a =>
      a.region = some r.val ∧ a.lines.any (·.phase ≠ .done)).map fun a => (q, a.seq)
    let set (s : State) : State := s.modRegion r fun x => { x with d := { x.d with pin := pin } }
    let later (s : State) : State := (set s).modRegion r fun x =>
      { x with pinWait := some flight, closeAt := s.rt, fillIx := if pin then x.fillIx else none }
    if x.st = .closing ∨ x.st = .closed then failed s .unitClosing
    else if x.d.mode = 0 then good (set s)
    else if pin ∧ !x.d.pin ∧ 2 ^ 28 < s.pinnedBytes x.d.owner + (x.d.last + 1 - x.d.base) then failed s .pinFull
    else if x.st = .init then (if pin then .wait (set s) (.pin r) else good (set s))
    else if x.pinned = pin ∧ x.d.pin = pin ∧ x.fillIx.isNone then good s
    else .wait (later s) (.pin r))

/-! ## Memory key slots -/

/-- MEMSLOT_LOAD (R247, R253): a reference to a Class A key into an empty slot of both wings. -/
def execMemslotLoad (ch : Fin 8) (s : State) : Host.Outcome State Fault Refusal :=
  .next (s.runCmd ch { op := 0x0E5, lenMin := 2, lenMax := 2, hold := true, iron := true } fun s c =>
    Res.need (c.clean 2 12 && c.clean 3 24) s
      (match kLoc (c.w 3) with
       | some (.classA id) =>
         let w := s.chans[c.ch].mapWing
         if s.pathLost .sl ∧ s.pathLost .sr then failed s .keyPathLost
         else if (tget s.vlt.slots (c.w 2)).any fun e => e.closeAt.isSome then failed s .unitClosing
         else if (tget s.vlt.slots (c.w 2)).isSome then failed s .keySlotBusy
         else match s.commandKey c (.classA id) .memory with
           | (.error st, s) => failed s st
           | (.ok k, s) =>
             if 2 < k.attr.ktype then failed s .keyRefused
             else
               let (st, s) := (s.useKey w (.classA id) 1).writeSlot (c.w 2) (some id) none
               .done s st []
       | _ => failed s .malformed))

end Sys2Proof.Machine
end

