-- ==== Sys2Proof/Machine/MemEvents.lean ====
section
/-! DEFINITION. The events of the memory side: requests, write data and responses on the request ports (R60 to R69), the
memory ports (R65 to R68), the checks of lines (R192 to R195, R203, R206), curtains (R199 to R201), re-encryption (R207),
INIT and the pin fill (R179, R190). -/

namespace Sys2Proof.Machine

/-! ## Requests (R60 to R64, R69, R215, R225) -/

/-- Requests outstanding on a port (R62). -/
def RqPort.outstanding (x : RqPort) : Nat :=
  x.accs.countP (fun a => !a.presented ∧ a.own.isNone) + x.dq.countP (·.last)

/-- Whether an outstanding request has an ATID. -/
def RqPort.tidBusy (x : RqPort) (tid : Nat) : Bool :=
  x.accs.any (fun a => a.tid = tid ∧ !a.presented ∧ a.own.isNone) || x.dq.any (·.tid = tid)

/-- Whether a request port accepts requests: RQPn_AREADY is 1 (R64, R229, R293). -/
def State.ready4 (s : State) (q : Fin 4) : Bool :=
  let x := s.rqps[q]
  x.st = .opened && !x.rst && !x.struck && s.taking (rqpWing q)
    && (s.wing (rqpWing q)).ush.hold.isNone && decide (x.outstanding < 128)

/-- Whether a request breaks a rule of R60 and R61 (R69). -/
def reqMalformed (r : AReq) (op : Nat) : Bool :=
  decide (op = 3 ∨ r.addr.toNat % 64 ≠ 0 ∨ (op = 2 ∧ r.curtain.toNat = 0)
    ∨ (op < 2 ∧ 4096 < r.addr.toNat % 4096 + 64 * (r.len.toNat + 1)))

/-- Counting a denied access and its KEY_DENIED event, at most one in a millisecond on the owning wing (R181). -/
def State.keyDenied (s : State) (r : Fin 64) (q : Fin 4) (addr mid : Nat) (why : Nat × Nat) : State :=
  let w := s.regions[r].d.owner
  let s := s.countRegion r 9 1
  if (s.wing w).mpe.denyAt.all fun t => t + 1000000 ≤ s.rt then
    (s.logAddr r .keyDenied addr mid q (why.1 + why.2 * 2 ^ 12)).modMpe w fun m => { m with denyAt := some s.rt }
  else s

/-- Once the data of a write has come it is known which of its lines are partial, each two uses of its key: an access that would
take a key past its limit is denied whole (R181). -/
def State.limitWrite (s : State) (q : Fin 4) (seq : Nat) : State :=
  match s.access q seq with
  | none => s
  | some a =>
    let spent (k : Nat) : Bool := (s.vlt.keyAt (.slot k)).any fun x =>
      decide (x.attr.useLimit ≠ 0 ∧ x.attr.useLimit < x.uses + s.reservedUses k)
    match a.region, (a.lines.filterMap MLine.slot).find? spent with
    | some r, some k => if a.fixed.isSome ∨ s.regions[Fin.ofNat 64 r].d.mode = 0 then s
      else (s.modAcc q seq fun a => { a with fixed := some 1 }).keyDenied (Fin.ofNat 64 r) q (a.addrs.headD 0) a.mid (k, 1)
    | _, _ => s

/-- Write data beats of an access: past its WLAST the write is whole, and MALFORMED where WLAST does not match ALEN (R69). -/
def State.feed (s : State) (q : Fin 4) (seq : Nat) (data strb : Nat) (last : Bool) : State :=
  match s.access q seq with
  | none => s
  | some a =>
    let bs := if a.wbeats.length ≤ 4 then a.wbeats ++ [(data, strb)] else a.wbeats
    let bad := last && decide (bs.length ≠ a.alen + 1)
    let s := s.modAcc q seq fun a => { a with wbeats := bs, wdone := last, fixed := if bad then some 6 else a.fixed }
    if bad ∧ a.fixed ≠ some 6 then s.modRqp q fun x => { x with cnt := bumpAt x.cnt 0 1 }
    else if last then s.limitWrite q seq else s

/-- The beat goes to the oldest write that still waits for data, or is kept for the next (R62). -/
def State.takeBeat (s : State) (q : Fin 4) (data strb : Nat) (last : Bool) : State :=
  match s.rqps[q].accs.find? fun a => a.op = 1 ∧ !a.wdone with
  | some a => s.feed q a.seq data strb last
  | none => s.modRqp q fun x => { x with early := x.early ++ [(data, strb, last)] }

/-- The beats that came before their request (R62). -/
def State.feedEarly : Nat → Fin 4 → State → State
  | 0, _, s => s
  | n + 1, q, s => match s.rqps[q].early with
    | [] => s
    | (d, m, l) :: rest =>
      if s.rqps[q].accs.any fun a => a.op = 1 ∧ !a.wdone then
        State.feedEarly n q ((s.modRqp q fun x => { x with early := rest }).takeBeat q d m l)
      else s

/-- Each line of an access counts to the Lead budget of its request's wing (R167, R168). -/
def State.leadLines (s : State) (w : Wing) : List MLine → List MLine × State
  | [] => ([], s)
  | l :: t =>
    let (c, s) := s.leadAdmit w 0 4
    let (t, s) := s.leadLines w t
    ({ l with lead := decide (c = 0) } :: t, s)

/-- What the MPE makes of an access that the Usher granted (R174, R181, R191, R335): the status that ends it, or its region
and class. -/
def State.mpeAccept (s : State) (q : Fin 4) (a : Access) (slots : List (Option Nat)) : Access × State :=
  let w := rqpWing q
  let addr := (a.lines.head?.map MLine.addr).getD 0
  match s.regionAt w addr with
  | none =>
    ({ a with fixed := some 1 }, s.log w .noRegion 0 (addrArgs addr a.mid q).1 (addrArgs addr a.mid q).2 0)
  | some r =>
    let d := s.regions[r].d
    if !s.reach w d.owner then
      ({ a with fixed := some 3 }, s.modRqp q fun x => { x with cnt := bumpAt x.cnt 1 1 })
    else
      let (deny, s) := if d.mode = 0 then (none, s)
        else s.keyDenies d.owner (s.master w a.mid).group a.world slots
      match deny with
      | some why => ({ a with fixed := some 1 }, s.keyDenied r q addr a.mid why)
      | none =>
        let n := a.lines.length
        let (cls, s) := if a.clsIn = 0 ∧ d.owner ≠ w then (1, s.countWing w .leadCrossWing) else (a.clsIn, s)
        let (lines, s) := if cls ≠ 0 then (a.lines, s)
          else if d.mode = 0 then (a.lines.map fun l => { l with lead := true }, s) else s.leadLines w a.lines
        let s := if a.curtain = 0 then s.countRegion r (if a.op = 0 then 0 else 1) n else s
        let s := if a.op = 1 then s.modRqp q fun x =>
            { x with wregs := x.wregs ++ a.addrs.map fun addr => (a.mid, r.val, a.seq, addr) } else s
        ({ a with region := some r.val, cls := cls, lines := lines }, s)

/-- The MEM_REQ record of a request (R398). -/
def State.rhlReq (s : State) (q : Fin 4) (r : AReq) (op : Nat) : State :=
  if s.rhlMem q then
    s.rhlRec (rqpWing q) 0x05 (leBytes 1 q.val)
      (leBytes 5 r.addr.toNat ++ leBytes 1 op ++ leBytes 1 r.len.toNat ++ leBytes 1 r.mid.toNat ++ leBytes 1 (b2n r.world)
        ++ leBytes 2 r.kix.toNat ++ leBytes 1 (r.cls.toNat + r.curtain.toNat * 4) ++ leBytes 1 r.tid.toNat) 5
  else s

/-- A request accepted on RQPn A with AOP = `op`: the rules of R61, the Usher's check of its lines (R215, R225, R226), and
what the MPE makes of it. -/
def State.acceptReq (s : State) (q : Fin 4) (r : AReq) (op : Nat) : State :=
  if !s.ready4 q ∨ s.laneFull (rqpWing q) (decide (r.cls = 0)) then s
  else
    let w := rqpWing q
    let seq := s.rqps[q].nextSeq
    let bad := reqMalformed r op || s.rqps[q].tidBusy r.tid.toNat
    let s := (s.modRqp q fun x => { x with nextSeq := seq + 1 }).rhlReq q r op
    let addrs := if op < 2 then (List.range (r.len.toNat + 1)).map (r.addr.toNat + 64 * ·) else []
    let a : Access :=
      { tid := r.tid.toNat, op := op, mid := r.mid.toNat, world := r.world, kix := r.kix.toNat, cls := r.cls.toNat,
        clsIn := r.cls.toNat, curtain := if bad then 0 else r.curtain.toNat, gen := (s.wing w).ush.gen, seq := seq,
        region := none, alen := r.len.toNat, addrs := if bad then [] else addrs, at' := s.rt }
    let (a, s) :=
      if bad then ({ a with fixed := some 6 }, s.modRqp q fun x => { x with cnt := bumpAt x.cnt 0 1 })
      else
        let s := s.mgParity w a.mid
        if op = 2 then
          (if (s.master w a.mid).valid then (a, s)
           else ({ a with fixed := some 1, curtain := 0 }, s.ushRefuse w q a.mid 2 a.world a.kix 0 0 (.refuse 1 none false 0)))
        else
          let s := (s.usherParity w a.mid addrs).regionParity w addrs
          let ds := s.usherLines w a.mid a.world (decide (op = 1)) a.kix addrs
          let refused := (addrs.zip ds).filter fun e => match e.2 with
            | .refuse _ _ _ _ => true
            | .grant _ _ => false
          match refused with
          | (addr, d) :: _ => ({ a with fixed := some 1 }, s.ushRefuse w q a.mid op a.world a.kix addr refused.length d)
          | [] =>
            let slots := ds.map fun d => match d with
              | .grant k _ => k
              | .refuse _ _ _ _ => none
            let cls := ds.foldl (fun c d => match d with
              | .grant _ f => max c f
              | .refuse _ _ _ _ => c) a.clsIn
            let lines := (addrs.zip slots).map fun e => ({ addr := e.1, slot := e.2, t0 := s.rt } : MLine)
            s.mpeAccept q { a with clsIn := cls, cls := cls, lines := lines } slots
    let s := s.modRqp q fun x => { x with accs := x.accs ++ [a] }
    ((s.admitLines q a).feedEarly 512 q).pump

/-- MEM_READ (R192): a request with AOP = 0b00, or 0b11 where its field says so. -/
def execMemRead (q : Fin 4) (r : AReq) (s : State) : Host.Outcome State Fault Refusal :=
  .next (s.acceptReq q r (if r.op = 3 then 3 else 0))

/-- MEM_WRITE (R194): a request with AOP = 0b01. -/
def execMemWrite (q : Fin 4) (r : AReq) (s : State) : Host.Outcome State Fault Refusal :=
  .next (s.acceptReq q r (if r.op = 3 then 3 else 1))

/-- CURTAIN_ONLY (R61, R226): a request with AOP = 0b10. -/
def execCurtainOnly (q : Fin 4) (r : AReq) (s : State) : Host.Outcome State Fault Refusal :=
  .next (s.acceptReq q r (if r.op = 3 then 3 else 2))

/-- WRITE_DATA (R62, R69). -/
def execWriteData (q : Fin 4) (data : BitVec 512) (strb : BitVec 64) (last : Bool) (s : State) :
    Host.Outcome State Fault Refusal :=
  let x := s.rqps[q]
  if x.st = .closed ∨ x.rst ∨ x.struck then .next s
  else
    let tid := ((x.accs.find? fun a => a.op = 1 ∧ !a.wdone).map Access.tid).getD 0
    let s := if s.rhlMem q then s.rhlRec (rqpWing q) 0x06
        (leBytes 1 q.val ++ leBytes 2 0 ++ s.rhlDigest (leBytes 64 data.toNat)) (leBytes 1 tid) 3 else s
    .next (s.takeBeat q data.toNat strb.toNat last).pump

/-- RQP_RESPONSE_ACCEPTED (R62): the beat at the head of D leaves. -/
def execRqpResponseAccepted (q : Fin 4) (s : State) : Host.Outcome State Fault Refusal :=
  .next (s.modRqp q fun x => { x with dq := x.dq.tail })

/-! ## Memory ports (R65 to R69) -/

/-- The MP_LINE record of a line of a request on a memory port (R398): the outcome of a tag check that is still to come is a free
value (assumption 20). -/
def State.rhlLine (s : State) (m : Fin 4) (x : MpReq) (k : Nat) (l : MpLine) (err : Bool) (data sb : Nat) : State :=
  let w := mpWing m
  let r := (s.wing w).rhl
  if r.st = .record ∨ r.cfg.rqpMask ≠ 0 then
    let base := leBytes 5 (x.addr + 64 * k) ++ leBytes 1 x.aid
    let out := if x.write ∨ err then 0 else s.freeVal % 3
    let s := if x.write ∨ err then s else s.takeFree
    let clear := leBytes 1 m.val ++ leBytes 1 (b2n x.write + out * 2 + b2n err * 8)
    match l.use with
    | .data _ _ _ _ | .reenc _ _ _ => s.rhlRec w 0x07 (clear ++ s.rhlDigest (leBytes 64 data)) base 4
    | _ => s.rhlRec w 0x07 (clear ++ List.replicate 4 0) (base ++ leBytes 64 data ++ leBytes 8 sb) 22
  else s

/-- MP_REQUEST_ACCEPTED (R229): the first request presented is accepted, and its response time begins (R68). -/
def execMpRequestAccepted (m : Fin 4) (s : State) : Host.Outcome State Fault Refusal :=
  match s.mps[m].aq with
  | [] => .next s
  | x :: rest =>
    if !s.mps[m].alive then .next s
    else
      let s := s.modMp m fun p => { p with aq := rest, out := p.out ++ [{ x with at' := s.rt }] }
      .next (if x.write then x.lines.zipIdx.foldl (fun s e => s.rhlLine m x e.2 e.1 false e.1.data e.1.sb) s
        else s).pump

/-- A metadata or tag line could not be read or written (R69): META_MEM_ERR, and MEM_ERR on every access that waits for it; of a read
released before its check that makes the verify curtain answer TAG_FAIL (DESIGN CHOICE, assumption 26). -/
def State.metaErr (s : State) (w : Wing) (addr : Nat) (write timeout : Bool) : State :=
  match s.metaRegion w addr with
  | none => s
  | some r =>
    let s := s.log w .metaMemErr r.val (addr % 2 ^ 32) (addr / 2 ^ 32 + b2n timeout * 2 ^ 8) 0
    if write then s.wbFailed r addr else s.metaLost w addr

/-- An INIT write has failed (R179): no further one is issued, and the region is CLOSED. -/
def State.initErr (s : State) (r : Fin 64) (addr : Nat) : State :=
  if s.regions[r].st = .init then
    let s := (s.modRegion r fun x => { x with st := .closed }).purgeMeta r
    (s.log s.regions[r].d.owner .regionInitFail r.val (addr % 2 ^ 32) (addr / 2 ^ 32) 0).answerWaiters (.pin r) .unitClosing []
  else s

/-- A line of a request has ended with an error or with no response in time (R68, R69): MEM_ERR on a data line, without a tag check and
without poisoning, but for the write that started a re-encryption (R207). -/
def State.mpFail (s : State) (u : MpUse) (addr : Nat) (write timeout : Bool) : State :=
  match u with
  | .data q _ seq i => s.failLine q seq i 5
  | .mline w addr | .tline w addr =>
    if (s.wing w).mpe.fetching.contains addr then
      (s.modMpe w fun m => { m with fetching := m.fetching.erase addr }).metaErr w addr false timeout
    else s
  | .wback w addr => s.metaErr w addr true timeout
  | .reenc w page j =>
    if write then
      match s.reencOf w page with
      | some e => (s.poisonAs (Fin.ofNat 64 e.region) (page + 64 * j) e.mid e.q e.slot false).endBuffered (page + 64 * j) 5
      | none => s
    else (s.modReenc w page fun e => { e with failed := true }).dropItem (.page w page j)
  | .init r _ => s.initErr r addr

/-- A line of a request has been answered (R192, R194, R67). -/
def State.mpDone (s : State) (u : MpUse) (write : Bool) (data sb : Nat) : State :=
  match u with
  | .data q _ seq i =>
    if write then
      let s := match (s.access q seq).bind fun a => a.lines[i]? with
        | some l => if l.trig then s.endBuffered l.addr 0 else s
        | none => s
      s.endLine q seq i fun l => { l with status := 0 }
    else s.modLine q seq i fun l => if l.phase = .reading then { l with phase := .gotData, cipher := data, tag := sb, t0 := s.rt } else l
  | .mline w addr | .tline w addr => s.modMpe w fun m => if m.fetching.contains addr then
      { m with fetching := m.fetching.erase addr, arrived := m.arrived ++ [(addr, data, sb)] } else m
  | .reenc w page j => if write then s.endBuffered (page + 64 * j) 0 else s.reencGot w page j data sb
  | .init r ix => s.modRegion r fun y => if y.st = .init then { y with initIx := ix + 1 } else y
  | .wback w addr => match s.metaRegion w addr with
    | some r => s.modRegion r fun x => { x with wbFail := x.wbFail.filter (· ≠ addr) }
    | none => s

/-- The lines of a request from the `k`th on end with an error. -/
def State.mpFailFrom (s : State) (x : MpReq) (k : Nat) (timeout : Bool) : State :=
  (x.lines.zipIdx.drop k).foldl (fun s e => s.mpFail e.1.use (x.addr + 64 * e.2) x.write timeout) s

/-- A request leaves the outstanding ones. -/
def State.mpGone (s : State) (m : Fin 4) (x : MpReq) : State :=
  s.modMp m fun p => { p with out := p.out.filter (·.aid ≠ x.aid) }

/-- A beat of read data: the next line of its request. The response ends with its last line, or with a beat that carries DLAST
before that: the lines that it leaves out end as those of an error (DESIGN CHOICE, assumption 26). -/
def State.readBeat (s : State) (m : Fin 4) (x : MpReq) (b : MpBeat) : State :=
  match x.lines[x.got]? with
  | none => s.mpGone m x
  | some l =>
    let sb := if s.mps[m].sb then b.sb.toNat else 0
    let s := s.rhlLine m x x.got l b.err b.data.toNat sb
    let ends := b.last || decide (x.lines.length ≤ x.got + 1)
    let s := if ends then s.mpGone m x
      else s.modMp m fun p => { p with out := p.out.map fun y => if y.aid = x.aid then { y with got := y.got + 1 } else y }
    let s := if b.err then s.mpFail l.use (x.addr + 64 * x.got) false false else s.mpDone l.use false b.data.toNat sb
    if ends then s.mpFailFrom x (x.got + 1) false else s

/-- The response to a write: all its lines have been accepted, or none counts as accepted. -/
def State.writeBeat (s : State) (m : Fin 4) (x : MpReq) (err : Bool) : State :=
  let s := s.mpGone m x
  if err then s.mpFailFrom x 0 false else x.lines.foldl (fun s l => s.mpDone l.use true 0 0) s

/-- MP_RESPONSE (R65, R67, R69): a beat that names no outstanding request is stray. -/
def execMpResponse (m : Fin 4) (b : MpBeat) (s : State) : Host.Outcome State Fault Refusal :=
  if !s.mps[m].alive ∨ !s.cpUp then .next s
  else match s.mps[m].out.find? fun x => x.aid = b.did.toNat ∧ x.write = b.write with
    | none => .next (s.log (mpWing m) .mpStray m.val b.did.toNat 0 0)
    | some x => .next (if x.write then s.writeBeat m x b.err else s.readBeat m x b).pump

/-- MP_RESPONSE_TIMEOUT (R68). -/
def execMpResponseTimeout (m : Fin 4) (aid : BitVec 8) (s : State) : Host.Outcome State Fault Refusal :=
  match s.mps[m].out.find? fun x => x.aid = aid.toNat ∧ x.at' + s.mps[m].timeout * 1000 ≤ s.rt with
  | none => .next s
  | some x => .next ((s.mpGone m x).mpFailFrom x x.got true).pump

/-! ## Checks of lines (R193, R195, R203, R206) -/

/-- The access of a port with an ATID that has a line in one of some phases. -/
def State.lineOf (s : State) (q : Fin 4) (tid line : Nat) (f : Access → MLine → Bool) : Option (Access × MLine × Fin 64) :=
  s.rqps[q].accs.findSome? fun a => match a.lines[line]?, a.region with
    | some l, some r => if a.tid = tid ∧ a.own.isNone ∧ f a l then some (a, l, Fin.ofNat 64 r) else none
    | _, _ => none

/-- LINE_VERIFY (R193, R203): the checks of a read line complete. -/
def execLineVerify (q : Fin 4) (tid : BitVec 7) (line : Nat) (s : State) : Host.Outcome State Fault Refusal :=
  match s.lineOf q tid.toNat line fun a l => a.op = 0 ∧ l.phase = .gotData ∧ l.known with
  | none => .next s
  | some (a, l, r) => .next (s.verifyLine q a line l r).pump

/-- PARTIAL_WRITE (R195): the line is verified and the written bytes are merged into it, or it is poisoned. -/
def execPartialWrite (q : Fin 4) (tid : BitVec 7) (line : Nat) (s : State) : Host.Outcome State Fault Refusal :=
  match s.lineOf q tid.toNat line fun a l => a.op = 1 ∧ (l.phase = .repaired ∨ (l.phase = .gotData ∧ l.known)) with
  | none => .next s
  | some (a, l, r) => .next (s.mergePartial q a line l r).pump

/-- TAG_REPAIR (R206): the search completes. -/
def execTagRepair (q : Fin 4) (tid : BitVec 7) (line : Nat) (s : State) : Host.Outcome State Fault Refusal :=
  match s.lineOf q tid.toNat line fun _ l => l.phase = .repairing with
  | none => .next s
  | some (a, l, r) => .next (s.repairLine q a line l r).pump

/-! ## Curtains (R199 to R201) -/

/-- The access of a port whose curtain of a type is not complete. -/
def State.curtainOf (s : State) (q : Fin 4) (tid kind : Nat) : Option Access :=
  s.rqps[q].accs.find? fun a => a.tid = tid ∧ a.curtain = kind ∧ a.cur.isNone

/-- The earlier requests of a curtain's master on its port (R198). -/
def RqPort.before (x : RqPort) (a : Access) : List Access := x.accs.filter fun b => b.seq < a.seq ∧ b.mid = a.mid

/-- Splitting the failures that a curtain covers from those it does not. -/
def covered (a : Access) (l : List (Nat × Nat)) : Bool × List (Nat × Nat) :=
  (l.any fun e => e.1 = a.mid ∧ e.2 < a.seq, l.filter fun e => ¬(e.1 = a.mid ∧ e.2 < a.seq))

/-- A curtain completes; the request that carries it is performed where that is with OK (R202, R214). -/
def State.endCurtain (s : State) (q : Fin 4) (a : Access) (status : Nat) : State :=
  let s := s.modAcc q a.seq fun a => { a with cur := some status }
  match a.region with
  | some r => if status = 0 ∧ a.fixed.isNone ∧ a.op < 2 then
      s.countRegion (Fin.ofNat 64 r) (if a.op = 0 then 0 else 1) a.lines.length else s
  | none => s

/-- CURTAIN_ISSUE (R199). -/
def execCurtainIssue (q : Fin 4) (tid : BitVec 7) (s : State) : Host.Outcome State Fault Refusal :=
  match s.curtainOf q tid.toNat 1 with
  | none => .next s
  | some a =>
    if (s.rqps[q].before a).all (s.accIssued q) then .next (s.endCurtain q a 0).pump
    else .next s

/-- CURTAIN_VERIFY (R200): TAG_FAIL where a covered read failed after its release, UNREACHABLE where a lost bridge ended
one (R335). -/
def execCurtainVerify (q : Fin 4) (tid : BitVec 7) (s : State) : Host.Outcome State Fault Refusal :=
  match s.curtainOf q tid.toNat 2 with
  | none => .next s
  | some a =>
    let x := s.rqps[q]
    if (x.before a).all fun b => b.op ≠ 0 ∨ b.fixed.isSome ∨ b.lines.all (·.phase = .done) ∨ x.vlost.contains (b.mid, b.seq) then
      let (bad, vf) := covered a x.vfails
      let (lost, vl) := covered a x.vlost
      let s := s.modRqp q fun x => { x with vfails := vf, vlost := vl }
      .next (s.endCurtain q a (if bad then 2 else if lost then 3 else 0)).pump
    else .next s

/-- Whether a persist curtain needs a metadata line whose last write-back failed, be it before the curtain began to wait (R201). -/
def State.flushLost (s : State) (x : RqPort) (a : Access) : Bool :=
  (s.flushList x a).any fun e =>
    let r := s.regions[Fin.ofNat 64 e.1]
    r.wbFail.contains (r.d.lineAddr e.2.1)

/-- CURTAIN_PERSIST (R201): MEM_ERR where one of the writes that it waits for has failed, UNREACHABLE where a lost bridge
ended one (R335). -/
def execCurtainPersist (q : Fin 4) (tid : BitVec 7) (s : State) : Host.Outcome State Fault Refusal :=
  match s.curtainOf q tid.toNat 3 with
  | none => .next s
  | some a =>
    let x := s.rqps[q]
    let lost := (covered a x.plost).1
    if x.writesDone a ∧ (lost ∨ s.persisted a) then
      let bad := (covered a x.pfails).1 || a.flushErr || s.flushLost x a
      let s := s.modRqp q fun x =>
        { x with pfails := (covered a x.pfails).2, plost := (covered a x.plost).2,
                 wregs := x.wregs.filter fun e => ¬(e.1 = a.mid ∧ e.2.2.1 < a.seq) }
      .next (s.endCurtain q a (if bad then 5 else if lost then 3 else 0)).pump
    else .next s

/-! ## Re-encryption (R207 to R209) -/

/-- Whether a line is the one whose write started a page's re-encryption and waits for it. -/
def MLine.starts (l : MLine) (page : Nat) : Bool := l.trig && decide (l.phase ≠ .done ∧ l.addr / 4096 * 4096 = page)

/-- The writes that stand in the buffer of a page whose re-encryption is abandoned are made to the page as it is (R207, R208). -/
def State.redoBuffered (s : State) (page : Nat) : State :=
  (List.finRange 4).foldl (fun s q => s.rqps[q].accs.foldl (fun s a =>
    (List.range a.lines.length).foldl (fun s i =>
      if (a.lines[i]?).any fun l => l.buf ∧ l.phase = .writing ∧ l.addr / 4096 * 4096 = page then
        (s.modLine q a.seq i fun l =>
          { l with phase := .waiting, buf := false, known := false, tagged := false, metaOk := false }).admitLine q a i
      else s) s) s) s

/-- A re-encryption is abandoned (R207): MEM_ERR on the write that started it. -/
def State.abandon (s : State) (e : Reenc) (page : Nat) : State :=
  let s := s.redoBuffered page
  match s.access e.q e.seq with
  | some a => (List.range a.lines.length).foldl (fun (s : State) (i : Nat) =>
      if (a.lines[i]?).any fun l => l.starts page then s.failLine e.q a.seq i 5 else s) s
  | none => s

/-- PAGE_REENCRYPTED (R207, R209): every write of the page has been accepted, or a read has failed and it is abandoned, with
MEM_ERR on the write that started it. -/
def execPageReencrypted (w : Wing) (page : Nat) (s : State) : Host.Outcome State Fault Refusal :=
  match s.reencOf w page with
  | none => .next s
  | some e =>
    let r : Fin 64 := Fin.ofNat 64 e.region
    let drop (s : State) : State := (s.modMpe w fun m => { m with reencs := m.reencs.filter (·.page ≠ page) }).dropPage w page
    if s.pageOut w page then .next s
    else if e.failed then
      .next ((drop s).abandon e page).pump
    else
      let trigOpen := (s.access e.q e.seq).any fun a => a.lines.any (·.starts page)
      if !e.draining ∨ !e.writes.isEmpty ∨ trigOpen then .next s
      else
        let major := (s.ctrLine r page).elim 0 majorOf
        let s := ((drop s).countRegion r 7 1).logAddr r .pageReencrypted page e.mid e.q (major % 2 ^ 32)
        let s := if major = 2 ^ 64 - 1 then (s.logAddr r .majorExhausted page e.mid e.q 0).raiseAlarm .memIntegrity else s
        .next s.pump

/-! ## INIT and the pin fill (R179, R190) -/

/-- Holding every metadata line of a region, all of them zero after INIT, as far as there is room: what finds none is left to a pin
fill (R189, R190). -/
def State.holdZeros (s : State) (r : Fin 64) : State :=
  let d := s.regions[r].d
  let s := s.modRegion r fun x => { x with fillIx := some 0 }
  let s := (List.range d.mlines).foldl (fun s i => s.cacheTake d.owner r (d.mlineAddr i, 0, 0)) s
  if (List.range d.mlines).all fun i => (s.cached d.owner (d.mlineAddr i)).isSome then
    s.modRegion r fun x => { x with fillIx := none, pinned := true }
  else s

/-- REGION_READY (R179). -/
def execRegionReady (r : Fin 64) (s : State) : Host.Outcome State Fault Refusal :=
  let x := s.regions[r]
  if x.st ≠ .init ∨ x.initIx < s.initCount r ∨ s.initOut r then .next s
  else
    let pin := x.d.pin && decide (x.d.mode ≠ 0)
    let s := s.modRegion r fun x => { x with st := .active, root := 0 }
    let s := (if pin then s.holdZeros r else s).log x.d.owner .regionReady r.val 0 0 0
    .next (if s.regions[r].fillIx.isSome then s else s.answerWaiters (.pin r) .ok []).pump

/-- Unlocking the lines of a region, which is no longer pinned: its counter lines, written back, leave the lock array. -/
def State.unpin (s : State) (r : Fin 64) : State :=
  let d := s.regions[r].d
  let counts (c : CLine) : Bool := c.region = r.val && (d.mlineAt c.addr).any fun i => decide (i < d.pages)
  (s.modRegion r fun x => { x with pinned := false, fillIx := none }).modMpe d.owner fun m =>
    { m with cache := (m.cache.filter fun c => !counts c).map fun c => if c.region = r.val then { c with locked := false } else c }

/-- PIN_FILL (R190): a fill is complete, and the pin counts as applied; or the lines of a region to be unpinned have been
written back. -/
def execPinFill (r : Fin 64) (s : State) : Host.Outcome State Fault Refusal :=
  let x := s.regions[r]
  if x.st ≠ .active ∨ x.pinWait.isSome then .next s
  else
    match x.fillIx with
    | some i =>
      if i < x.d.mlines then .next s
      else
        let s := s.modRegion r fun x => { x with fillIx := none, pinned := true, readyLate := false }
        let s := if x.readyLate then s.log x.d.owner .regionReady r.val 0 0 0 else s
        .next (if x.d.pin then s.answerWaiters (.pin r) .ok [] else s).pump
    | none =>
      if !x.d.pin ∧ (x.pinned ∨ s.holdsLocks r) then
        (if s.unflushed r then .next s.pump else .next (((s.unpin r).answerWaiters (.pin r) .ok [])).pump)
      else .next (s.answerWaiters (.pin r) .ok [])

end Sys2Proof.Machine
end

