-- ==== Sys2Proof/Machine/PortCmds.lean ====
section
/-! DEFINITION. The port commands of the catalogue (R374): PORT_OPEN to CLOSE_TIMEOUT, PTP_SET. -/

namespace Sys2Proof.Machine

/-- Why a port of a wing cannot be opened, the port itself apart: IRON_HELD (R301), a snapshot or a replay (R396, R408). -/
def State.openRefused (s : State) (w : Wing) : Option Status :=
  if s.vlt.ironHeld then some .ironHeld
  else if (s.wing w).rhl.st = .snapshot ∨ (s.wing w).rhl.st = .replaying then some .rhlState
  else none

/-- Opening a port; during sleep entry it closes at once, as every open port does (R420). -/
def State.admitPort (s : State) (p : Fin 64) : State :=
  let s := s.openPort p
  if s.pwr.entering then s.startPortClose p else s

/-- Opening a request port, in the same way. -/
def State.openRqp (s : State) (q : Fin 4) : State :=
  let s := s.modRqp q fun x => { x with st := .opened, forced := false }
  if s.pwr.entering then s.startRqpClose q else s

/-- PORT_OPEN (R53, R54, R49, R279, R345). A port that is already open stays as it is. -/
def execPortOpen (ch : Fin 8) (s : State) : Host.Outcome State Fault Refusal :=
  .next (s.runCmd ch { op := 0x020, lenMin := 1, lenMax := 1 } fun s c =>
    let p := c.port 2
    Res.need (c.clean 2 6) s <| Res.reaching s c (portWing p)
      (match s.openRefused (portWing p) with
       | some st => failed s st
       | none =>
         if s.vlt.lcCode = 6 then failed s .lcRefused
         else if s.ports[p].absent then failed s .portAbsent
         else match s.ports[p].st with
           | .closing => failed s .unitClosing
           | .opened => good s
           | .closed => good (s.admitPort p)))

/-- PORT_CLOSE (R343, R344): a closed port answers at once. -/
def execPortClose (ch : Fin 8) (s : State) : Host.Outcome State Fault Refusal :=
  .next (s.runCmd ch { op := 0x021, lenMin := 1, lenMax := 1, close := true } fun s c =>
    let p := c.port 2
    Res.need (c.clean 2 6) s <| Res.reaching s c (portWing p)
      (if s.ports[p].st = .closed then good s
       else if c.force then good (s.forcePort p)
       else .wait (s.startPortClose p) (.port p)))

/-- PORT_CLS_SET (R84), staged. -/
def execPortClsSet (ch : Fin 8) (s : State) : Host.Outcome State Fault Refusal :=
  .next (s.runCmd ch { op := 0x022, lenMin := 5, lenMax := 5 } fun s c =>
    let p := c.port 2
    Res.need (c.clean 2 6 && portClsOk c.words 3) s <| Res.reaching s c (portWing p)
      (good (s.stage c.ch [portWing p] (.portCls p (PortCls.ofWords c.words 3)))))

/-- PORT_SP_SET (R131), staged. -/
def execPortSpSet (ch : Fin 8) (s : State) : Host.Outcome State Fault Refusal :=
  .next (s.runCmd ch { op := 0x023, lenMin := 4, lenMax := 4 } fun s c =>
    let p := c.port 2
    Res.need (c.clean 2 6 && portSpOk c.words 3) s <| Res.reaching s c (portWing p)
      (good (s.stage c.ch [portWing p] (.portSp p (PortSp.ofWords c.words 3)))))

/-- The state of a port as PORT_GET reports it. -/
def Port.code (x : Port) : Nat :=
  if x.absent then 0 else match x.st with
    | .closed => 1
    | .opened => 2
    | .closing => 3

/-- PORT_GET (R374). -/
def execPortGet (ch : Fin 8) (s : State) : Host.Outcome State Fault Refusal :=
  .next (s.runCmd ch { op := 0x024, lenMin := 1, lenMax := 1 } fun s c =>
    let p := c.port 2
    let x := (s.view c.ch).ports[p]
    Res.need (c.clean 2 6) s <| Res.reaching s c (portWing p)
      (.done s .ok (wd x.code :: x.cls.words ++ x.sp.words ++ x.ptp.words)))

/-- RQP_OPEN (R374, R49, R345). -/
def execRqpOpen (ch : Fin 8) (s : State) : Host.Outcome State Fault Refusal :=
  .next (s.runCmd ch { op := 0x025, lenMin := 1, lenMax := 1 } fun s c =>
    let q : Fin 4 := Fin.ofNat 4 (c.w 2)
    Res.need (c.clean 2 2) s <| Res.reaching s c (rqpWing q)
      (match s.openRefused (rqpWing q) with
       | some st => failed s st
       | none =>
         if s.rqps[q].rst ∨ s.rqps[q].struck then failed s .portAbsent
         else match s.rqps[q].st with
           | .closing => failed s .unitClosing
           | .opened => good s
           | .closed => good (s.openRqp q)))

/-- RQP_CLOSE (R343, R344). -/
def execRqpClose (ch : Fin 8) (s : State) : Host.Outcome State Fault Refusal :=
  .next (s.runCmd ch { op := 0x026, lenMin := 1, lenMax := 1, close := true } fun s c =>
    let q : Fin 4 := Fin.ofNat 4 (c.w 2)
    Res.need (c.clean 2 2) s <| Res.reaching s c (rqpWing q)
      (if s.rqps[q].st = .closed then good s
       else if c.force then good (s.forceRqp q)
       else .wait (s.startRqpClose q) (.rqp q)))

/-- MP_TIMEOUT (R68), staged. -/
def execMpTimeout (ch : Fin 8) (s : State) : Host.Outcome State Fault Refusal :=
  .next (s.runCmd ch { op := 0x027, lenMin := 2, lenMax := 2 } fun s c =>
    let m : Fin 4 := Fin.ofNat 4 (c.w 2)
    Res.need (c.clean 2 2 && decide (1 ≤ c.w 3 ∧ c.w 3 ≤ 1000)) s <| Res.reaching s c (mpWing m)
      (good (s.stage c.ch [mpWing m] (.mpTimeout m (c.w 3)))))

/-- CLOSE_TIMEOUT (R144, R211), staged. -/
def execCloseTimeout (ch : Fin 8) (s : State) : Host.Outcome State Fault Refusal :=
  .next (s.runCmd ch { op := 0x028, lenMin := 2, lenMax := 2, wing := 1 } fun s c =>
    Res.need (c.clean 2 1 && decide (10 ≤ c.w 3 ∧ c.w 3 ≤ 1000000)) s
      (good (s.stage c.ch [c.wing] (.closeTimeout c.wing (bitOf (c.w 2) 0) (c.w 3)))))

/-- PTP_SET (R317), staged; ASYM is the engine's (R447). -/
def execPtpSet (ch : Fin 8) (s : State) : Host.Outcome State Fault Refusal :=
  .next (s.runCmd ch { op := 0x165, lenMin := 5, lenMax := 5 } fun s c =>
    let p := c.port 2
    Res.need (c.clean 2 6 && ptpCfgOk c.words 3) s <| Res.reaching s c (portWing p)
      (good (s.stage c.ch [portWing p] (.ptp p (PtpCfg.ofWords c.words 3)))))

end Sys2Proof.Machine
end

