-- ==== Sys2Proof/Machine/TrieCmds.lean ====
section
/-! DEFINITION. The policy trie commands of the catalogue (R374): PT_STAGE to MESH_ETYPE, and how a commit goes on (R96,
R97). -/

namespace Sys2Proof.Machine

/-! ## Commits -/

/-- Nodes in use: those of the version in force and of the other version until its copies are freed (R97). -/
def Trie.nodesUsed (t : Trie) : Nat :=
  t.cur.names.length + (t.other.elim 0 fun v => (v.names.filter fun n => !t.cur.names.contains n).length)

/-- The result words of a wing's commit. -/
def Trie.result (t : Trie) : List Word := [wd t.cur.pfxs.length, wd t.nodesUsed]

/-- Whether a wing takes a commit now: none is in progress, and no bank is being copied (R97, R355). -/
def Trie.ready (t : Trie) : Bool := t.commit.isNone && t.copying.isEmpty

/-- Starting to build the version that the staged changes make, for a channel. -/
def State.buildTrie (s : State) (w : Wing) (ch : Fin 8) : Status × State :=
  let t := (s.wing w).trie
  let v := t.cur.build t.staged
  match buildStatus t.cur v with
  | .ok =>
    let groups := t.staged.filterMap fun c => match c with
      | .group g _ => some g
      | _ => none
    (.ok, s.modTrie w fun t => { t with other := some v, staged := [], commit := some false, commitCh := some ch, wrote := groups })
  | st => (st, s)

/-- The next waiting commit of a wing starts; one that fails is answered, and the next is tried, at most `n`. -/
def State.nextCommit : Nat → Wing → State → State
  | 0, _, s => s
  | n + 1, w, s =>
    if (s.wing w).trie.ready then
      match (List.finRange 8).find? fun ch => match s.chans[ch].waiting with
          | some (.ptCommit w' _ _) => w' = w
          | _ => false with
      | some ch => match s.buildTrie w ch with
        | (.ok, s) => s
        | (st, s) => State.nextCommit n w (s.finish ch st [])
      | none => s
    else s

/-- What a PT_COMMIT of a wing comes to when its command is taken: it fails at once, or waits. -/
def State.commitRes (s : State) (w : Wing) (ch : Fin 8) (both : Bool) (res : List Word) : Res :=
  if (s.wing w).trie.ready then
    match s.buildTrie w ch with
    | (.ok, s) => .wait s (.ptCommit w both res)
    | (st, s) => failed s st
  else .wait s (.ptCommit w both res)

/-! ## Commands -/

/-- Whether bits of a 128-bit key past a length are 0. -/
def keyClean (len key : Nat) : Bool := decide (key % 2 ^ (128 - len) = 0)

/-- Staging a change of a wing's trie (R96). -/
def State.stageTrie (s : State) (w : Wing) (c : TChange) : Res :=
  if 4096 ≤ (s.wing w).trie.staged.length then failed s .ptStageFull
  else good (s.modTrie w fun t => { t with staged := t.staged ++ [c] })

/-- PT_STAGE (R93, R96). -/
def execPtStage (ch : Fin 8) (s : State) : Host.Outcome State Fault Refusal :=
  .next (s.runCmd ch { op := 0x060, lenMin := 7, lenMax := 7, wing := 1 } fun s c =>
    let len := fld (c.w 2) 15 8
    let key := beNat (wordsToBytes (wordsAt c.words 3 4))
    Res.need (decide (fld (c.w 2) 7 1 = 0 ∧ fld (c.w 2) 31 16 = 0 ∧ len ≤ 128) && keyClean len key && policyOk c.words 7) s
      (s.stageTrie c.wing (if bitOf (c.w 2) 0 then .remove len key else .add len key (Policy.ofWords c.words 7))))

/-- GROUP_SET (R95). -/
def execGroupSet (ch : Fin 8) (s : State) : Host.Outcome State Fault Refusal :=
  .next (s.runCmd ch { op := 0x061, lenMin := 33, lenMax := 33, wing := 1 } fun s c =>
    let ms := (wordsAt c.words 3 32).map BitVec.toNat
    Res.need (c.clean 2 12 && ms.all fun m => decide (m < 2 ^ 20)) s
      (s.stageTrie c.wing (.group (c.w 2) ms)))

/-- PT_COMMIT (R96, R97): SL first where both wings are named. -/
def execPtCommit (ch : Fin 8) (s : State) : Host.Outcome State Fault Refusal :=
  .next (s.runCmd ch { op := 0x062, lenMin := 0, lenMax := 0, wing := 3 } fun s c =>
    s.commitRes c.wing c.ch c.both [])

/-- PT_DISCARD (R374). -/
def execPtDiscard (ch : Fin 8) (s : State) : Host.Outcome State Fault Refusal :=
  .next (s.runCmd ch { op := 0x063, lenMin := 0, lenMax := 0, wing := 1 } fun s c =>
    good (s.modTrie c.wing fun t => { t with staged := [] }))

/-- The leading bits of the node that a command names, where the version holds it: the root block at stage 0. -/
def TrieVer.find (v : TrieVer) (stage node : Nat) : Option Nat :=
  if stage = 0 then (if node < 256 then some 0 else none) else v.named stage node

/-- Whether an entry of a version fails parity when it is read: the version not in force shares the stored nodes whose index it has
in common with the one in force, and has a root bank of its own. -/
def State.entryBad (s : State) (w : Wing) (inForce : Bool) (stage node pre ix : Nat) : Bool :=
  let t := (s.wing w).trie
  let e : Ent := .trie w stage node ix
  if inForce || (decide (stage ≠ 0) && t.cur.named stage node = some pre) then s.bad e else t.oldBad.contains e

/-- The words of entries of a node. -/
def State.entryWords (s : State) (w : Wing) (v : TrieVer) (inForce : Bool) (stage node pre first n : Nat) : List Word :=
  (List.range n).flatMap fun i =>
    let ix := first + i
    (v.entry stage pre (if stage = 0 then node * 256 + ix else ix)).words (s.entryBad w inForce stage node pre ix)

/-- PT_READ (R97). -/
def execPtRead (ch : Fin 8) (s : State) : Host.Outcome State Fault Refusal :=
  .next (s.runCmd ch { op := 0x064, lenMin := 2, lenMax := 2, wing := 2 } fun s c =>
    let stage := fld (c.w 2) 3 0
    let node := fld (c.w 2) 17 4
    let first := fld (c.w 3) 7 0
    let n := fld (c.w 3) 15 8
    let t := (s.wing c.wing).trie
    let old := bitOf (c.w 2) 31
    Res.need (decide (fld (c.w 2) 30 18 = 0 ∧ fld (c.w 3) 31 16 = 0 ∧ stage ≤ 14 ∧ (stage ≠ 0 ∨ node < 256) ∧ 1 ≤ n
        ∧ n ≤ 30 ∧ first + n ≤ 256)) s
      (match if old then t.other else some t.cur with
       | none => failed s .notFound
       | some v => match v.find stage node with
         | some pre => .done s .ok (s.entryWords c.wing v (!old) stage node pre first n)
         | none => failed s .notFound))

/-- Rewriting one entry of a version. -/
def TrieVer.rewrite (v : TrieVer) (stage node ix : Nat) (e : TEnt) : TrieVer :=
  if stage = 0 then { v with root := tput v.root (node * 256 + ix) e }
  else { v with nodes := tput v.nodes node (tput ((tget v.nodes node).getD []) ix e) }

/-- PT_WRITE_ENTRY (R98): the bank in force. -/
def execPtWriteEntry (ch : Fin 8) (s : State) : Host.Outcome State Fault Refusal :=
  .next (s.runCmd ch { op := 0x065, lenMin := 4, lenMax := 4, wing := 2 } fun s c =>
    let stage := fld (c.w 2) 3 0
    let node := fld (c.w 2) 17 4
    let ix := c.w 3
    Res.need (decide (fld (c.w 2) 31 18 = 0 ∧ ix < 256 ∧ stage ≤ 14 ∧ (stage ≠ 0 ∨ node < 256)) && tentOk c.words 4) s
      (match (s.wing c.wing).trie.cur.find stage node with
       | some _ => good ((s.modTrie c.wing fun t =>
           { t with cur := t.cur.rewrite stage node ix (TEnt.ofWords c.words 4) }).fix (.trie c.wing stage node ix))
       | none => failed s .notFound))

/-- PT_POLICY (R93). -/
def execPtPolicy (ch : Fin 8) (s : State) : Host.Outcome State Fault Refusal :=
  .next (s.runCmd ch { op := 0x066, lenMin := 1, lenMax := 1, wing := 2 } fun s c =>
    Res.need (c.clean 2 17) s
      (match (s.wing c.wing).trie.cur.policyAt (c.w 2) with
       | some p => .done s .ok p.words
       | none => failed s .notFound))

/-- PT_STATUS (R374). -/
def execPtStatus (ch : Fin 8) (s : State) : Host.Outcome State Fault Refusal :=
  .next (s.runCmd ch { op := 0x067, lenMin := 0, lenMax := 0, wing := 2 } fun s c =>
    let t := (s.wing c.wing).trie
    .done s .ok (t.result ++ [wd t.staged.length, wd (b2n t.commit.isSome)]))

/-- MESH_ETYPE (R88), staged. -/
def execMeshEtype (ch : Fin 8) (s : State) : Host.Outcome State Fault Refusal :=
  .next (s.runCmd ch { op := 0x068, lenMin := 1, lenMax := 1, wing := 1 } fun s c =>
    Res.need (c.clean 2 16) s (good (s.stage c.ch [c.wing] (.meshEtype c.wing (c.w 2)))))

/-! ## The switch and its report -/

/-- TRIE_SWITCH (R96): the new version is built, and the root bank switches in one step, once a bank copy has ended (R355). What the
commit rewrote has good parity; the old copies keep theirs until they are freed. -/
def execTrieSwitch (w : Wing) (s : State) : Host.Outcome State Fault Refusal :=
  let t := (s.wing w).trie
  match t.commit, t.other with
  | some false, some v =>
    if !t.copying.isEmpty then .next s
    else
    let keep (e : Ent) : Bool := match e with
      | .trie w' stage node _ => !(w' = w ∧ (stage = 0 ∨ v.named stage node ≠ t.cur.named stage node))
      | .group w' g _ => !(w' = w ∧ t.wrote.contains g)
      | _ => true
    let old := s.upsets.filter fun e => !keep e
    let s := { s with upsets := s.upsets.filter keep }
    .next (s.modTrie w fun t =>
      { t with cur := v, other := some t.cur, bank := !t.bank, commit := some true, wrote := [], oldBad := old })
  | _, _ => .next s

/-- The report of a wing's commit: answered, or for both wings the commit of SR follows. -/
def State.reportCommit (s : State) (w : Wing) (ch : Fin 8) : State :=
  match s.chans[ch].waiting with
  | some (.ptCommit w' both res) =>
    if w' ≠ w then s
    else
      let res := res ++ (s.wing w).trie.result
      if both ∧ w = .sl then
        (s.commitRes .sr ch false res).settle ch s.chans[ch].expect
      else s.finish ch .ok res
  | _ => s

/-- TRIE_COMMIT_COMPLETE (R97): the old copies are freed, the commit is reported, and a waiting commit starts. -/
def execTrieCommitComplete (w : Wing) (s : State) : Host.Outcome State Fault Refusal :=
  let t := (s.wing w).trie
  match t.commit with
  | some true =>
    let s := s.modTrie w fun t => { t with other := none, commit := none, commitCh := none, oldBad := [] }
    let s := match t.commitCh with
      | some ch => s.reportCommit w ch
      | none => s
    .next (State.nextCommit 9 w s)
  | _ => .next s

end Sys2Proof.Machine
end

