-- ==== Sys2Proof/Machine/WingOps.lean ====
section
/-! DEFINITION. The wings apart: lanes struck and lent work settled (R170 to R172, R333, R352), the loss of a core (R356,
R357), the declaration of a lost bridge (R330 to R336) and of a failed wing (R287, R338). -/

namespace Sys2Proof.Machine

/-! ## Work cut off on a lane (R171, R333) -/

/-- The frame in release of a port is cut and counted on its SA; `sent` says how many of its bytes had passed, where that is
known. -/
def State.cutRelease (s : State) (p : Fin 64) (c : SaCnt) (sent : Option Nat) : State :=
  let sai := s.ports[p].lsOut.bind LsOut.sai
  let s := match sent with
    | some k => s.zeroTailAt p k
    | none => s.zeroTail p
  s.countFrameSa p sai c

/-- A frame in cut-through delivery is cut: zeros from there on, with status BAD_TAG; its PTP record is exported as ever
(R171, R325). -/
def State.cutDelivery (s : State) (p : Fin 64) (f : InFrame) (c : SaCnt) (sent : Option Nat) : State :=
  let out := s.openedNow p f
  let s := s.takeFree
  let k := sent.getD (s.freeVal % (out.length + 1))
  let s := (s.takeFree.unpend p f).countFrameSa p f.sai c
  let w := portWing p
  let sof := f.began.getD { ts := s.now w, resid := (s.wing w).prm.resid }
  let resid := (sof.resid - f.resIn) / 2 ^ 16
  let full := ptpCorrect s.ports[p].ptp false f.asymIn resid out
  ((s.deliver p f.began (zeroFrom full k) (f.sai.getD 0xFFFFF) f.cls 1).ptpExport p true f.arr sof.ts resid out).unInbound p f.id

/-- An item in delivery is cut. -/
def State.cutItem (s : State) (i : LItem) (c : SaCnt) (sent : Option Nat) : State :=
  match i.of with
  | .inb p id => match s.ports[p].inbound.find? (·.id = id) with
    | some f => s.cutDelivery p f c sent
    | none => s
  | _ => s

/-- Everything in release or in delivery on a lane is cut. -/
def State.cutLane (s : State) (l : Fin 28) (c : SaCnt) (sent : Option Nat) : State :=
  let ps := (List.finRange 64).filter (s.releasing l)
  let items := s.lanes[l].items.filter s.inRelease
  let s := ps.foldl (fun s p => s.cutRelease p c sent) s
  items.foldl (fun s i => s.cutItem i c sent) s

/-! ## Lanes (R152, R170 to R172, R352) -/

/-- The memory lines of a lane that have not left it are read again (R171). -/
def State.rereadLines (s : State) (l : Fin 28) : State :=
  s.lanes[l].items.foldl (fun s i => match i.of with
    | .mem q seq k => s.modRqp q fun x => { x with accs := x.accs.map fun a => if a.seq = seq then
        { a with lines := a.lines.modify k fun m =>
            if m.phase = .gotData ∨ m.phase = .repairing then { m with phase := .waiting, known := false } else m }
        else a }
    | .page w page j =>
      if (s.reencOf w page).any fun e => e.raw.any fun x => x.1 = j then
        (s.modReenc w page fun e => { e with raw := e.raw.filter (·.1 ≠ j), need := e.need ++ [j] }).dropItem i.of
      else s
    | _ => s) s

/-- The understudies of a wing. -/
def State.understudies (s : State) (w : Wing) : List (Fin 28) :=
  (List.finRange 28).filter fun l => laneWing l = w ∧ s.lanes[l].st = .understudy

/-- While an understudy is to be promoted, the lowest one of the wing is taken to its known-answer test; the items it carries
in full house restart (R158, R352). Nothing is tested while another test is under way. -/
def State.testNext (s : State) (w : Wing) : State :=
  let mine := s.understudies w
  if (s.wing w).disp.need = 0 ∨ mine.any fun l => s.lanes[l].testing then s
  else match mine.head? with
    | some l => ((s.modLane l fun x => { x with testing := true }).restartLane l s.inRelease).modLane l fun x =>
        { x with closing := x.closing || s.holdsRelease l }
    | none => s.modDisp w fun d => { d with need := 0 }

/-- A lane is struck: cause 0 margin, 1 watchdog, 2 known-answer test, 3 command. Its items restart; those in release complete
on it, except under the watchdog, which cuts them. -/
def State.strikeLane (s : State) (l : Fin 28) (cause : Nat) (sent : Nat) : State :=
  let w := laneWing l
  let was := s.lanes[l].st
  let old := s.role
  let s := if cause = 1 then
      let s := s.lanes[l].items.foldl (fun s i => s.markWd i.of) s
      ((s.cutLane l .laneAbort (some sent)).rereadLines l).restartLane l (fun _ => false) true
    else s
  let s := s.modLane l fun x => { x with st := .struck, testing := false, closing := if cause = 1 then false else x.closing }
  let s := (if was = .understudy then (s.restartLane l s.inRelease).modLane l fun x =>
      { x with closing := x.closing || s.holdsRelease l } else s).reassign old
  let s := (s.roleChanged w (unitName 0 (l.val % 14) w) true).log w .laneStruck l.val cause 0 0
  let s := if s.lanes[l].closing then s else s.logClosed w 3 l.val (decide (cause = 1))
  let s := if was = .inService ∧ (s.wing w).wearCfg.promoteEn then s.modDisp w fun d => { d with need := d.need + 1 } else s
  s.testNext w

/-! ## Control cores (R356, R357, R360) -/

/-- The wings that a core serves. -/
def State.servedBy (s : State) (c : CoreId) : List Wing :=
  [Wing.sl, Wing.sr].filter fun w => (s.wing w).served = c ∧ !(s.wing w).headless

/-- The commands that a lost core had accepted and not answered: CORE_LOST. Those accepted after its last heartbeat that it
had not begun wait on. SEQ counts those answered. -/
def State.coreLost (s : State) (c : CoreId) : State :=
  let t := (s.core c).beatAt
  { s with chans := s.chans.map fun (x : Chan) =>
      if x.served ≠ c then x
      else x.queue.foldl (fun (x : Chan) (p : Place) =>
        let put (q : Place) : List Place := x.queue ++ [q]
        match p.phase with
        | .answered _ _ => { x with queue := put p }
        | .running _ => { x with queue := put { p with phase := .answered .coreLost [] } }
        | .queued => if p.at' ≤ t then
            { x with queue := put { p with phase := .answered .coreLost [] },
                     expect := if p.seq = x.expect.toNat then x.expect + 1 else x.expect }
          else { x with queue := put p }) { x with queue := [] } }

/-- A Script update that a lost core ends (R360): where the core that is left runs the new image it is PARTIAL, where that
core still loads it goes on, else it is ABORTED. -/
def State.updateLost (s : State) (c : CoreId) : State :=
  let o := s.core (otherCore c)
  if s.upd.step = 0 ∨ o.reloading then s
  else if o.hash = s.upd.hash then (s.logBoth .updatePartial 0 (coreIx c).val 0 0).adoptImage
  else { (s.logBoth .updateAborted 0 (coreIx c).val 0 0) with upd := {} }

/-- The unplanned loss of a core, which is struck in its wear record from then on (R349): the other serves both wings, or, where it
cannot, each wing that this one served is HEADLESS. In a partition a wing has its own core alone. -/
def State.loseCore (s : State) (c : CoreId) : State :=
  let old := s.role
  let ws := s.servedBy c
  let s := if (s.core c).struck then s else s.roleChanged (homeWing c) (unitName 3 0 (homeWing c)) true
  let s := ((s.modCore c fun x => { x with lost := true, armed := false }).disarm (otherCore c)).coreLost c
  let s := if s.upd.hand.isSome then s.dropHand .coreLost else s
  let s := if s.joined then
      if (s.core (otherCore c)).able then
        (ws.foldl (fun s w => s.giveWing w (otherCore c)) (s.takeGrant (otherCore c))).logBoth .coreTakeover 0 (coreIx c).val 0 0
      else ws.foldl State.orphan s
    else s.rehome
  let s := (s.updateLost c).reassign old
  if s.joined then (List.finRange 8).foldl State.settle s else s

/-- CORE_STRUCK: a core is struck until CORE_RST_N (R358), and takes over no more (R388). -/
def State.markCore (s : State) (c : CoreId) : State :=
  (((s.modCore c fun x => { x with struck := true }).disarm (otherCore c)).roleChanged (homeWing c)
    (unitName 3 0 (homeWing c)) true).logBoth .coreStruck 0 (coreIx c).val 0 0

/-! ## Liveness (R330) -/

/-- A wing's liveness mark. -/
def State.mark (s : State) : Wing → Option Nat
  | .sl => s.vlt.markSl
  | .sr => s.vlt.markSr

/-- Whether a wing's mark was renewed within the last 20 µs. -/
def State.markFresh (s : State) (w : Wing) : Bool := (s.mark w).any fun t => decide (s.rt ≤ t + 20000)

/-! ## The declaration (R330, R331, R333 to R336) -/

/-- The items of a wing leave the other wing's lanes, for the lists that `put` makes of them. -/
def State.pullLent (s : State) (w : Wing) (put : State → Fin 28 → LItem → State) : State :=
  ((List.finRange 28).filter fun l => laneWing l ≠ w).foldl (fun s l =>
    let mine := s.lanes[l].items.filter fun i => i.wing = w
    let s := s.modLane l fun x => { x with items := x.items.filter fun i => i.wing ≠ w }
    mine.foldl (fun s i => put s l i) s) s

/-- A lane of the other wing, where an item of a wing was. -/
def farLane : Wing → Fin 28
  | .sl => 14
  | .sr => 0

/-- At its declaration a wing's items on borrowed lanes, and those whose tokens the far wing has come to discard, restart on its
own lanes; what the far wing has on this wing's lanes waits there no longer, for the far wing's own declaration (R333, R334). -/
def State.settleLent (s : State) (w : Wing) : State :=
  let strays := (s.wing w).disp.stray
  let s := (s.modDisp w fun d => { d with stray := [] }).pullLent w State.restartItem
  let s := strays.foldl (fun s i => s.restartItem (farLane w) i) s
  s.pullLent (otherWing w) fun s _ i => s.modDisp i.wing fun d => { d with stray := d.stray ++ [i] }

/-- How many items a declaration restarts. -/
def State.lentItems (s : State) (w : Wing) : Nat :=
  (s.wing w).disp.stray.length + (List.finRange 28).foldl (fun n l => if laneWing l = w then n
    else n + s.lanes[l].items.countP fun i => i.wing = w) 0

/-- Work in release or delivery on the other wing's lanes, whose blocks do not return, is cut (R333). -/
def State.cutLent (s : State) : State :=
  (List.finRange 28).foldl (fun s l =>
    let ps := (List.finRange 64).filter fun p => s.releasing l p ∧ portWing p ≠ laneWing l
    let items := s.lanes[l].items.filter fun i => s.inRelease i ∧ i.wing ≠ laneWing l
    let s := ps.foldl (fun s p => s.cutRelease p .bridgeAbort none) s
    items.foldl (fun s i => s.cutItem i .bridgeAbort none) s) s

/-- What a cross-wing access of a wing comes to at its declaration (R335). A write that has its W beats is performed, its
response discarded; a read that has been answered is performed no more, but what has come of its line is still checked. -/
def State.endCross (s : State) (q : Fin 4) (a : Access) : State :=
  let noteV (s : State) : State := s.modRqp q fun x => { x with vlost := x.vlost ++ [(a.mid, a.seq)] }
  let noteP (s : State) : State := s.modRqp q fun x => { x with plost := x.plost ++ [(a.mid, a.seq)] }
  let s := if a.op = 0 ∧ a.presented ∧ a.lines.any fun l => l.released ∧ l.phase ≠ .done then noteV s else s
  let s := if a.op = 1 ∧ a.lines.any fun l => l.phase ≠ .done then noteP s else s
  let drop (s : State) : State := s.modAcc q a.seq fun a => { a with fixed := some 3, lines := [] }
  if a.presented then s
  else
    let s := s.modRqp q fun x => { x with cnt := bumpAt x.cnt 1 1 }
    if (a.curtain ≠ 0 ∧ a.cur.isNone) ∨ (a.op = 1 ∧ !a.wdone) then
      drop ((List.range a.lines.length).foldl (fun s i => s.dropItem (.mem q a.seq i)) s)
    else if a.op = 1 then
      let b : DBeat := { tid := a.tid, kind := 1, status := 3, data := 0, verified := false, last := true }
      (s.modAcc q a.seq fun a => { a with presented := true }).pushBeats q [b]
    else s.endAcc q a 3

/-- The accesses of a wing to the far wing's regions. -/
def State.endCrossAll (s : State) (w : Wing) : State :=
  ((List.finRange 4).filter fun q => rqpWing q = w).foldl (fun s q =>
    s.rqps[q].accs.foldl (fun s a =>
      if s.crossAcc q a ∧ a.fixed.isNone ∧ a.op < 2 ∧ (!a.presented ∨ a.op = 0) then s.endCross q a else s) s) s

/-- Whether what a channel of a wing waits for concerns the far wing. -/
def State.farWait (s : State) (w : Wing) (ch : Fin 8) : Wait → Bool
  | .port p => portWing p ≠ w
  | .rqp q => rqpWing q ≠ w
  | .sa sai => (s.sa (otherWing w) sai).isSome
  | .region r => s.regions[r].d.owner ≠ w
  | .pin r => s.regions[r].d.owner ≠ w
  | .classA _ => false
  | .key _ => false
  | .ptCommit w' both _ => both || w' ≠ w
  | .ushCommit w' both => both || w' ≠ w
  | .strike u => match u with
    | .lane l => laneWing l ≠ w
    | .trieBank w' _ _ => w' ≠ w
    | .core c => homeWing c ≠ w
    | _ => false
  | .handover _ => true
  | .join _ => false
  | .box => (s.wing (otherWing w)).box.reqs.any fun r => match r with
    | .command n _ => n = ch
    | .learned _ _ _ _ => false
  | .burn => false

/-- Forwarded commands still in flight (R336). -/
def State.endForwarded (s : State) (w : Wing) : State :=
  (List.finRange 8).foldl (fun s ch =>
    if s.chans[ch].mapWing = w ∧ s.chans[ch].waiting.any (s.farWait w ch) then s.finish ch .wingUnreachable [] else s) s

/-- A Script update stops where it is; each core goes on with the image it holds or loads (R360). -/
def State.stopUpdate (s : State) : State :=
  if s.upd.step = 0 then s
  else { (s.logBoth .updateAborted 0 (if s.upd.step < 4 then 1 else 0) 0 0) with upd := { s.upd with step := 0, hand := none } }

/-- A change of link state after the declaration (R331). A wing that the other finds FAR_LOST is reached no more: its commands are
answered (R336, R338). -/
def State.setLink (s : State) (w : Wing) (l : Link) : State :=
  let s := (s.modWing w fun x => { x with link := l }).log w .linkState 0 l.code 0 0
  if l = .farLost then s.refuseAll (otherWing w) else s

/-- A wing declares the bridge lost: cause 0 silence, 1 parity, 2 beacon, 3 far FAILED. From then on it sends no work, so that what
is in release or in delivery across the bridge is cut; each wing settles its own work at its own declaration (R331 to R336). -/
def State.declareLost (s : State) (w : Wing) (cause : Nat) : State :=
  let x := s.wing w
  let far := otherWing w
  if x.link ≠ .joined ∨ x.rhl.st = .replaying then s
  else
    let st : Link := if cause = 3 ∨ !s.markFresh far then .farLost else .partitioned
    let s := s.cutLent
    let mine := s.lentItems w
    let old := s.role
    let s := ((s.modDisp w fun d => { d with declaredAt := some s.rt }).settleLent w).modWing w fun y => { y with link := st }
    let s := s.reassign old
    let s := s.log w .partition mine (cause + st.code * 4) (x.lastTok % 2 ^ 32) (x.lastTok / 2 ^ 32)
    let s := s.raiseAlarm .wing
    let s := if s.upd.hand.isSome then s.dropHand .wingUnreachable else s
    let s := (s.endCrossAll w).endForwarded w
    let s := { s.stopUpdate with cores := s.cores.map fun (c : Core) => { c with missed := 0, armed := false, got := 0 } }
    let old := s.role
    let s := s.rehome.reassign old
    let s := if st = .farLost then s.refuseAll far else s
    if s.spill.any fun r => s.regions[r].d.owner ≠ w then s.rhlFreeze w 4 0 else s

/-- The commands that wait for a JOIN fail (R340). -/
def State.dropJoin (s : State) : State :=
  s.rawAnswer (fun x => match x with | .join _ => true | _ => false) .wingUnreachable

/-- A wing reports FAILED: its channels answer WING_UNREACHABLE, and the other wing is FAR_LOST at once (R329, R330); a JOIN
fails. -/
def State.failWing (s : State) (w : Wing) : State :=
  let far := otherWing w
  if (s.wing w).failed then s
  else
    let s := (s.modWing w fun x => { x with failed := true }).refuseAll w
    match (s.wing far).link with
    | .joined => s.declareLost far 3
    | .partitioned => s.setLink far .farLost
    | .rejoinReady => s.dropJoin.setLink far .farLost
    | .farLost => s

/-! ## The bridge (R330, R331) -/

/-- Whether a wing's bridge end and data path run. -/
def State.wingRuns (s : State) (w : Wing) : Bool :=
  s.pwr.awake && decide (s.boot.phase = .ready) && !(s.wing w).failed && decide ((s.wing w).rhl.st ≠ .replaying)

/-- A token with good parity reaches a wing: `link` is the state that a beacon carries. -/
def State.hearToken (s : State) (w : Wing) (link : Option Link) : State :=
  let s := s.modWing w fun y =>
    { y with lastTok := s.rt, tokRun := if y.lastTok + 20000 ≤ s.rt then s.rt else y.tokRun,
             farOk := match link with
               | some l => decide (l = .partitioned ∨ l = .rejoinReady)
               | none => y.farOk }
  if link = some .partitioned ∨ link = some .farLost then s.declareLost w 2 else s

/-- In each nanosecond a wing's bridge end that has no other token to send sends a beacon, with its link state, which reaches a far
wing that runs while the bridge carries tokens there. -/
def State.sendBeacon (s : State) (w : Wing) : State :=
  let far := otherWing w
  if !(s.wing w).failed ∧ s.wingRuns far ∧ Config.bridgeUp (far = .sr) s.rt then s.hearToken far (some (s.wing w).link) else s

/-- Whether some frame in release or in delivery has its blocks on a lane of the other wing. -/
def State.lentRelease (s : State) : Bool :=
  ((List.finRange 64).any fun p => s.ports[p].lsOut.any fun o => !o.done && o.lane.any fun l => laneWing l ≠ portWing p)
    || (List.finRange 28).any fun l => s.lanes[l].items.any fun i => i.wing ≠ laneWing l && s.inRelease i

/-- What one nanosecond brings on the bridge: beacons, and the end of what needs blocks that do not return (R330, R333). -/
def State.bridgeTick (s : State) : State :=
  let s := s.eachWing State.sendBeacon
  let s := if s.lentRelease then (if s.bridgeOk then s else s.cutLent) else s
  if s.joinDue then s.joinNow else s

end Sys2Proof.Machine
end

