-- ==== Sys2Proof/Machine/RepairOps.lean ====
section
/-! DEFINITION. Monitored units and their wear records (R346 to R349), and strikes by margin and by command (R348, R350,
R351, R355, R361). -/

namespace Sys2Proof.Machine

/-! ## Units (R346, R349) -/

/-- The number of a trie bank within its wing: 0 to 16 node banks, 17 to 19 root banks. -/
def bankNo (root : Bool) (ix : Nat) : Nat := if root then 17 + ix else ix

/-- The trie bank of a number. -/
def bankOf (n : Nat) : Option (Bool × Nat) := if n < 17 then some (false, n) else if n < 20 then some (true, n - 17) else none

/-- Kind, index and wing of a monitored unit; a trie bank is one of its wing's SRAM banks, those of the lowest numbers. -/
def monitored : UnitId → Option (Nat × Nat × Wing)
  | .lane l => some (0, l.val % 14, laneWing l)
  | .sramBank w ix => some (1, ix, w)
  | .trieBank w root ix => some (1, bankNo root ix, w)
  | .trieStage w ix => some (2, ix, w)
  | .core c => some (3, 0, homeWing c)
  | .boxPath w => some (4, 0, w)
  | .mpePath w => some (5, 0, w)
  | .ushPath w => some (6, 0, w)
  | .dispatcher w => some (7, 0, w)
  | .bridgeEnd w => some (8, 0, w)
  | .vault => some (9, 0, .sl)
  | .port _ => none
  | .rqp _ => none
  | .mp _ => none
  | .vaultPath _ => none
  | .sa _ _ => none
  | .region _ => none
  | .chan _ => none
  | .slot _ => none
  | .classA _ => none

/-- How many units of a kind a wing reports. -/
def unitCount (kind : Nat) : Nat :=
  if kind = 0 then 14 else if kind = 1 then Config.sramBanks else if kind = 2 then 15 else 1

/-- Whether a trie bank is an understudy that serves nothing yet. -/
def Trie.spareBank (t : Trie) (n : Nat) : Bool := (n = 16 && !t.spareUsed) || (n = 19 && !t.rootSpareUsed)

/-- ROLE of a unit (R349): 0 in service, 1 understudy, 2 struck. A unit without a spare that the watchdog struck is named in
its wing's `struck` (R26). -/
def State.roleCode (s : State) (kind ix : Nat) (w : Wing) : Nat :=
  if (s.wing w).struck.contains (unitName kind ix w) then 2
  else if kind = 0 then
    match s.lanes[Fin.ofNat 28 (wingIx w * 14 + ix)].st with
    | .inService => 0
    | .understudy => 1
    | .struck => 2
  else if kind = 1 then
    let t := (s.wing w).trie
    match bankOf ix with
    | some b => if t.struckBanks.contains b then 2 else if t.spareBank ix then 1 else 0
    | none => 0
  else if kind = 3 then (let c := s.core (homeCore w)
    if c.struck ∨ c.lost then 2 else 0)
  else 0

/-! ## Records (R349) -/

/-- The record of a unit in its eight words; the margins of one that has not been sampled are free values. -/
def State.wearWords (s : State) (kind ix : Nat) (w : Wing) : List Word :=
  let w := if kind = 9 then Wing.sl else w
  let name := unitName kind ix w
  let r := (tget s.wear name).getD {}
  let free (k : Nat) : Nat := Config.freeValue (s.freeCtr + ix * 4 + k) % 2 ^ 16
  let m := if r.sampled then r.margin else free 0
  let lo := if r.sampled then r.mmin else free 1
  let st := if r.sampled then r.start else free 2
  let rows := if kind = 1 then ((tget s.rows (bankKey w ix)).getD []).length else 0
  [wd (name + s.roleCode kind ix w * 2 ^ 17 + b2n r.warned * 2 ^ 19 + b2n r.critical * 2 ^ 20), wd (m + lo * 2 ^ 16),
   wd (st + rows * 2 ^ 16), wd (s.wing w).wearN] ++ tsWords r.changed

/-- The history of a unit, 64 values: those of checks that were not made are free values. -/
def State.wearHist (s : State) (name : Nat) : List Nat :=
  let h := ((tget s.wear name).getD {}).hist
  (List.range (64 - h.length)).map (fun k => Config.freeValue (s.freeCtr + k) % 2 ^ 16) ++ h

/-- Two 16-bit values in each word, the earlier in the low half. -/
def pairWords : List Nat → List Word
  | a :: b :: t => wd (a % 2 ^ 16 + b % 2 ^ 16 * 2 ^ 16) :: pairWords t
  | [a] => [wd (a % 2 ^ 16)]
  | [] => []

/-- One sample of a unit against the strike threshold. -/
def WearRec.sample (r : WearRec) (m thr : Nat) : WearRec :=
  let below := if m < thr then r.below + 1 else 0
  if r.sampled then { r with margin := m, mmin := min r.mmin m, low := if r.fresh then min r.low m else m, fresh := true, below := below }
  else { r with sampled := true, margin := m, mmin := m, start := m, low := m, fresh := true, below := below }

/-- A unit that stays in service below its threshold: WEAR_CRITICAL, once (R348). -/
def State.wearCritical (s : State) (w : Wing) (name m : Nat) : State :=
  if ((tget s.wear name).getD {}).critical then s
  else ((s.log w .wearCritical 0 name m 0).markCritical w name).raiseAlarm .wear

/-! ## Strikes (R350, R355, R356, R358, R361) -/

/-- Whether a lane may be struck for its margin or by command: an understudy, or one for which an understudy is left. -/
def State.laneSpare (s : State) (l : Fin 28) : Bool :=
  let w := laneWing l
  s.lanes[l].st = .understudy || decide ((s.wing w).disp.need < (s.understudies w).length)

/-- Whether the spare of a trie bank is still to be had. -/
def Trie.spareFree (t : Trie) (root : Bool) : Bool :=
  !(if root then t.rootSpareUsed else t.spareUsed) && t.copying.all fun b => b.1 ≠ root

/-- A trie bank is struck: its contents are copied to the spare, which BANK_STRUCK ends. The spare itself, while it holds
nothing, is struck at once. Answers none where no spare is left. -/
def State.strikeBank (s : State) (w : Wing) (root : Bool) (ix : Nat) : Option State :=
  let t := (s.wing w).trie
  if !t.spareFree root then none
  else if t.spareBank (bankNo root ix) then
    let s := s.modTrie w fun t => { t with struckBanks := t.struckBanks ++ [(root, ix)], spareUsed := t.spareUsed || !root,
                                           rootSpareUsed := t.rootSpareUsed || root }
    some ((s.roleChanged w (unitName 1 (bankNo root ix) w) true).log w .bankStruck 0 (unitName 2 (bankNo root ix) w) 0 0)
  else some (s.modTrie w fun t => { t with copying := t.copying ++ [(root, ix)] })

/-- The handover that takes everything from a core. -/
def handFrom (c : CoreId) : Nat := (coreIx c).val

/-- The status with which a core cannot be struck as planned, if any: ok where it can. -/
def State.coreStrikeStatus (s : State) (c : CoreId) : Status :=
  let o := s.core (otherCore c)
  if !s.joined then .wingUnreachable
  else if s.upd.step ≠ 0 then .notPermitted
  else if s.upd.hand.any fun h => h ≠ handFrom c then .unitClosing
  else if o.struck ∨ o.lost then .coreStruck
  else if !o.able then .noSpare
  else .ok

/-- The planned strike of a core begins. -/
def State.strikeCore (s : State) (c : CoreId) : State :=
  let s := s.markCore c
  if (s.servedBy c).isEmpty ∧ s.chans.all fun x => x.served ≠ c then s.logBoth .coreHandover 0 (coreIx c).val 0 0
  else if s.upd.hand = some (handFrom c) then s
  else s.beginHand (handFrom c)

/-- The rows on the slowest path of a bank, as its monitor names them, are remapped (R354). -/
def State.remapSlow (s : State) (w : Wing) (bank : Nat) : State :=
  (Config.slowRows s.freeCtr).foldl (fun s r => s.remapRow w bank r) s.takeFree

/-- A trie bank by its own name, which is one of its wing's SRAM banks (assumption 36). -/
def bankUnit : UnitId → UnitId
  | .sramBank w ix => match bankOf ix with
    | some (root, n) => .trieBank w root n
    | none => .sramBank w ix
  | u => u

/-- The planned strike of a core, where the other may take over. What stood in its way is given up: a handover to this core, or an
update (R348, R360). -/
def State.marginCore (s : State) (c : CoreId) : Option State :=
  if !s.joined ∨ !(s.core (otherCore c)).able ∨ (s.core c).struck ∨ (s.core c).lost then none
  else
    let s := if s.upd.hand.any fun h => h ≠ handFrom c then s.dropHand .coreStruck else s
    some ((s.updateLost c).strikeCore c).settleHand

/-- The strike of a unit whose margin has stayed below its threshold; none where it stays in service (R348). -/
def State.marginStrike (s : State) (u : UnitId) : Option State :=
  match bankUnit u with
  | .lane l => if s.lanes[l].st ≠ .struck ∧ s.laneSpare l then some (s.strikeLane l 0 0) else none
  | .trieBank w root ix => s.strikeBank w root ix
  | .core c => s.marginCore c
  | .sramBank w ix => some ((s.remapSlow w ix).modWear (bankKey w ix) fun r => { r with below := 0 })
  | _ => none

/-- Whether a unit has been struck, or its strike has begun. -/
def State.isStruck (s : State) (u : UnitId) : Bool :=
  match bankUnit u with
  | .lane l => s.lanes[l].st = .struck
  | .trieBank w root ix => (s.wing w).trie.struckBanks.contains (root, ix) || (s.wing w).trie.copying.contains (root, ix)
      || (s.wing w).struck.contains (unitName 1 (bankNo root ix) w)
  | .core c => (s.core c).struck || (s.core c).lost
  | _ => match monitored u with
    | some (kind, ix, w) => (s.wing w).struck.contains (unitName kind ix w)
    | none => false

end Sys2Proof.Machine
end

