-- ==== Sys2Proof/Machine/RepairCmds.lean ====
section
/-! DEFINITION. The repair commands of the catalogue (R374): WEAR_CFG to JOIN. -/

namespace Sys2Proof.Machine

/-- WEAR_CFG (R347). -/
def execWearCfg (ch : Fin 8) (s : State) : Host.Outcome State Fault Refusal :=
  .next (s.runCmd ch { op := 0x180, lenMin := 3, lenMax := 3, wing := 1 } fun s c =>
    let new := WearCfg.ofWords c.words 2
    let old := ((s.view c.ch).wing c.wing).wearCfg
    if !wearCfgOk c.words 2 then failed s .wearCfgInvalid
    else if s.vlt.lcCode = 4 ∧ ((old.autoStrike ∧ !new.autoStrike) ∨ (old.promoteEn ∧ !new.promoteEn)) then failed s .lcRefused
    else good (s.stage c.ch [c.wing] (.wearCfg c.wing new)))

/-- WEAR_REPORT (R349): up to seven records from an index on. -/
def execWearReport (ch : Fin 8) (s : State) : Host.Outcome State Fault Refusal :=
  .next (s.runCmd ch { op := 0x181, lenMin := 2, lenMax := 2, wing := 2 } fun s c =>
    Res.need (c.clean 2 4 && decide (c.w 2 < 10)) s
      (let n := min 7 (unitCount (c.w 2) - c.w 3)
       .done { s with freeCtr := s.freeCtr + 2 ^ 14 } .ok
         (wd n :: (List.range n).flatMap fun i => s.wearWords (c.w 2) (c.w 3 + i) c.wing)))

/-- WEAR_HISTORY (R349). -/
def execWearHistory (ch : Fin 8) (s : State) : Host.Outcome State Fault Refusal :=
  .next (s.runCmd ch { op := 0x182, lenMin := 1, lenMax := 1 } fun s c =>
    let kind := fld (c.w 2) 3 0
    let ix := fld (c.w 2) 15 4
    let w := wingOf (fld (c.w 2) 16 16)
    Res.need (c.clean 2 17 && decide (kind < 10)) s
      (if unitCount kind ≤ ix ∨ (kind = 9 ∧ w = .sr) then failed s .notFound
       else Res.reaching s c (if kind = 9 then s.chans[c.ch].mapWing else w)
         (.done { s with freeCtr := s.freeCtr + 64 } .ok (pairWords (s.wearHist (c.w 2))))))

/-- The strike of a lane by command. -/
def State.cmdLane (s : State) (c : Ctx) (l : Fin 28) : Res :=
  Res.reaching s c (laneWing l)
    (if s.isStruck (.lane l) then good s else if s.laneSpare l then good (s.strikeLane l 3 0) else failed s .noSpare)

/-- The strike of a trie bank by command. -/
def State.cmdBank (s : State) (c : Ctx) (w : Wing) (b : Bool × Nat) : Res :=
  Res.reaching s c w
    (let t := (s.wing w).trie
     if t.copying.contains b then .wait s (.strike (.trieBank w b.1 b.2))
     else if s.isStruck (.trieBank w b.1 b.2) then good s
     else match s.strikeBank w b.1 b.2 with
       | none => failed s .noSpare
       | some s => if (s.wing w).trie.copying.contains b then .wait s (.strike (.trieBank w b.1 b.2)) else good s)

/-- The strike of a control core by command. -/
def State.cmdCore (s : State) (x : CoreId) : Res :=
  if s.isStruck (.core x) ∧ s.upd.hand ≠ some (handFrom x) then good s
  else match s.coreStrikeStatus x with
    | .ok =>
      let s := if (s.core x).struck then s else s.strikeCore x
      if s.upd.hand = some (handFrom x) then .wait s (.strike (.core x)) else good s
    | st => failed s st

/-- STRIKE (R355): a unit already struck answers OK. -/
def execStrike (ch : Fin 8) (s : State) : Host.Outcome State Fault Refusal :=
  .next (s.runCmd ch { op := 0x183, lenMin := 1, lenMax := 1 } fun s c =>
    let kind := fld (c.w 2) 3 0
    let ix := fld (c.w 2) 15 4
    let hi := bitOf (c.w 2) 16
    Res.need (c.clean 2 17) s
      (if kind = 0 ∧ ix < 28 then s.cmdLane c (Fin.ofNat 28 ix)
       else if kind = 3 ∧ ix = 0 then s.cmdCore (if hi then .r else .l)
       else if kind = 2 then match bankOf ix with
         | some b => s.cmdBank c (if hi then .sr else .sl) b
         | none => failed s .malformed
       else failed s .malformed)).settleHand

/-- Whether a handover would move nothing. -/
def State.handIdle (s : State) (h : Nat) : Bool :=
  s.chans.all (fun c => c.served = handTarget h c)
    && [Wing.sl, Wing.sr].all fun w => (s.wing w).served = if h = 0 then .r else if h = 1 then .l else homeCore w

/-- The cores that a handover hands to. -/
def State.handTo (s : State) (h : Nat) : List CoreId :=
  if h = 0 then [.r] else if h = 1 then [.l]
  else ([Wing.sl, Wing.sr].filter fun w => (s.wing w).served ≠ homeCore w).map homeCore

/-- HANDOVER (R358). -/
def execHandover (ch : Fin 8) (s : State) : Host.Outcome State Fault Refusal :=
  .next (s.runCmd ch { op := 0x184, lenMin := 1, lenMax := 1 } fun s c =>
    let h := c.w 2
    Res.need (decide (h < 3)) s
      (if !s.joined then failed s .wingUnreachable
       else if (s.handTo h).any fun x => (s.core x).struck ∨ (s.core x).lost then failed s .coreStruck
       else if s.upd.step ≠ 0 ∨ (s.handTo h).any fun x => (s.core x).reloading then failed s .notPermitted
       else if s.upd.hand = some h then .wait s (.handover h)
       else if s.upd.hand.isSome then failed s .unitClosing
       else if s.handIdle h then good s
       else .wait (s.beginHand h) (.handover h))).settleHand

/-- Whether a Script update is under way, or a core still loads. -/
def State.updating (s : State) : Bool := s.upd.step ≠ 0 || s.cores.any fun c => c.reloading

/-- UPDATE_WRITE (R359). -/
def execUpdateWrite (ch : Fin 8) (s : State) : Host.Outcome State Fault Refusal :=
  .next (s.runCmd ch { op := 0x185, lenMin := 1, lenMax := 62 } fun s c =>
    if s.updating then failed s .notPermitted
    else match c.imagePart s.upd.image with
      | some t => good { s with upd := { s.upd with image := t } }
      | none => failed s .malformed)

/-- UPDATE_GO (R359): step 1 is its check; CC-R's handover begins. An update freezes a log being recorded (R401). -/
def execUpdateGo (ch : Fin 8) (s : State) : Host.Outcome State Fault Refusal :=
  .next (s.runCmd ch { op := 0x186, lenMin := 0, lenMax := 0 } fun s _ =>
    let t := s.upd.image
    if s.updating ∨ s.upd.hand.isSome then failed s .notPermitted
    else if !s.joined then failed s .wingUnreachable
    else if s.cores.any fun c => c.struck ∨ c.lost then failed s .coreStruck
    else if !imageOk t s.vlt.lcCode then failed { s with upd := {} } .imageInvalid
    else if fld (wordAt (imageWords t 1 1) 0) 31 16 ≠ s.boot.stambe then failed s .updateIncompatible
    else
      let s := s.eachWing fun s w => s.rhlFreeze w 5 0
      let s := { s with upd := { step := 2, hand := none, image := t, hash := wordsToBytes (imageWords t 5 12) } }
      good (s.beginHand 1))

/-- JOIN (R340). -/
def execJoin (ch : Fin 8) (s : State) : Host.Outcome State Fault Refusal :=
  let s := s.runCmd ch { op := 0x187, lenMin := 0, lenMax := 0 } fun s c =>
    if s.joined then good s
    else if s.sl.link ≠ .rejoinReady ∨ s.sr.link ≠ .rejoinReady then failed s .wingUnreachable
    else .wait s (.join (s.chans[c.ch].head.elim 0 Place.at'))
  .next (if s.joinDue then s.joinNow else s)

end Sys2Proof.Machine
end

