-- ==== Sys2Proof/Machine/RepairEvents.lean ====
section
/-! DEFINITION. The events of repair: the watchdog (R26, R351), margins and wear checks (R348), understudies (R352), rows and
banks (R354, R355), the ends of closes (R343, R344), and the cores of a Script update (R359, R360). -/

namespace Sys2Proof.Machine

/-- Whether the engine runs. -/
def State.running (s : State) : Bool := s.pwr.awake && decide (s.boot.phase = .ready)

/-! ## The watchdog (R26, R351) -/

/-- UNIT_STRUCK for a unit that has a unit name. -/
def State.logStruck (s : State) (w : Wing) (kind ix : Nat) : State := s.log w .unitStruck 0 (unitName kind ix w) 0 0

/-- UNIT_STRUCK for a port, whose unit name is not stated. -/
def State.logStruckPort (s : State) (w : Wing) : State := (s.log w .unitStruck 0 (s.freeVal % 2 ^ 17) 0 0).takeFree

/-- Every request of a memory port that is gone ends with MEM_ERR; whether its event says a timeout is not stated. -/
def State.dropMp (s : State) (m : Fin 4) : State :=
  let xs := s.mps[m].aq ++ s.mps[m].out
  let s := s.modMp m fun p => { p with aq := [], out := [] }
  (xs.foldl (fun (s : State) x => s.takeFree.mpFailFrom x x.got (decide (s.freeVal % 2 = 1))) s).pump

/-- A unit that has no spare is taken out of service (R26, R351): it is struck in its wear record. From then on the entries in an
SRAM bank or trie bank read as ones that fail parity (`State.bad`), and no lookup passes a trie stage (`State.trieLook`): what
R351 does not say of them (DESIGN CHOICE, assumption 36). -/
def State.strikeUnit (s : State) (w : Wing) (kind ix : Nat) : State :=
  let name := unitName kind ix w
  (s.modWing w fun x => { x with struck := x.struck ++ [name] }).roleChanged w name true

/-- A wing's path to the vault is lost (R42, R351). -/
def State.losePath (s : State) (w : Wing) : State :=
  if s.pathLost w then s
  else
    let s := s.modVlt fun v => match w with
      | .sl => { v with pathLostSl := true }
      | .sr => { v with pathLostSr := true }
    s.log w .keyPathLost 0 0 0 0

/-- The vault is struck: it is out of both wings' reach (R26, R42; DESIGN CHOICE, assumption 36). -/
def State.strikeVault (s : State) : State :=
  (((s.logBoth .unitStruck 0 (unitName 9 0 .sl) 0 0).strikeUnit .sl 9 0).losePath .sl).losePath .sr

/-- Whether the handshake of a unit waits for the bridge, which the watchdog leaves to R330 (R332): it holds, or serves, work of
the other wing, or work on the other wing's lanes or regions, and the bridge does not carry it. -/
def State.waitsBridge (s : State) (w : Wing) : Bool :=
  let lent := (List.finRange 28).any fun l => s.lanes[l].items.any fun i => i.wing ≠ laneWing l ∧ (laneWing l = w ∨ i.wing = w)
  let cross := (List.finRange 4).any fun q => s.rqps[q].accs.any fun a => s.crossAcc q a
  if lent ∨ cross then !s.bridgeOk else false

/-- A datapath of a wing is struck: the wing reports FAILED. -/
def State.strikePath (s : State) (w : Wing) (kind : Nat) : State :=
  if (s.wing w).failed then s else (((s.rhlFault w 1 (unitName kind 0 w)).logStruck w kind 0).strikeUnit w kind 0).failWing w

/-- STUCK_HANDSHAKE (R26, R332, R351): `sent` is how many bytes of the frame in release had passed. -/
def State.watchdog (s : State) (u : UnitId) (sent : Nat) : State :=
  match bankUnit u with
  | .lane l =>
    if s.lanes[l].st = .struck ∧ !s.holdsRelease l ∨ (s.lanes[l].items.any (fun i => i.wing ≠ laneWing l) && !s.bridgeOk) then s
    else (s.rhlFault (laneWing l) 1 (unitName 0 (l.val % 14) (laneWing l))).strikeLane l 1 sent
  | .port p => if s.ports[p].struck then s
    else (((s.logStruckPort (portWing p)).forcePort p).modPort p fun x => { x with struck := true })
  | .rqp q => if s.rqps[q].struck then s
    else (((s.logStruckPort (rqpWing q)).forceRqp q).modRqp q fun x => { x with struck := true })
  | .mp m => if s.mps[m].struck then s
    else ((s.logStruckPort (mpWing m)).modMp m fun x => { x with struck := true }).dropMp m
  | .core c => if (s.core c).struck ∨ (s.core c).lost then s
    else ((s.rhlFault (homeWing c) 1 (unitName 3 0 (homeWing c))).markCore c).loseCore c
  | .trieBank w root ix =>
    if s.isStruck u ∨ 20 ≤ bankNo root ix then s
    else
      let s := s.rhlFault w 1 (unitName 1 (bankNo root ix) w)
      (s.strikeBank w root ix).getD ((s.logStruck w 1 (bankNo root ix)).strikeUnit w 1 (bankNo root ix))
  | .boxPath w => s.strikePath w 4
  | .mpePath w => if s.waitsBridge w then s else s.strikePath w 5
  | .ushPath w => s.strikePath w 6
  | .dispatcher w => if s.waitsBridge w then s else s.strikePath w 7
  | .vaultPath w => s.losePath w
  | .bridgeEnd _ => s
  | .vault => if s.isStruck u then s else s.strikeVault
  | .trieStage w ix => if s.isStruck u then s else ((s.rhlFault w 1 (unitName 2 ix w)).logStruck w 2 ix).strikeUnit w 2 ix
  | .sramBank w ix => if s.isStruck u then s else ((s.rhlFault w 1 (unitName 1 ix w)).logStruck w 1 ix).strikeUnit w 1 ix
  | .sa _ _ => s
  | .region _ => s
  | .chan _ => s
  | .slot _ => s
  | .classA _ => s

/-- STUCK_HANDSHAKE (R26). -/
def execStuckHandshake (u : UnitId) (sent : Nat) (s : State) : Host.Outcome State Fault Refusal :=
  .next (if s.running then s.watchdog u sent else s)

/-! ## Margins (R348) -/

/-- MARGIN_SAMPLE (R348): the fourth sample in a row below the threshold strikes the unit or marks it. -/
def execMarginSample (u : UnitId) (margin : Nat) (s : State) : Host.Outcome State Fault Refusal :=
  match monitored u with
  | none => .next s
  | some (kind, ix, w) =>
    if !s.running ∨ (s.wing w).failed ∨ unitCount kind ≤ ix then .next s
    else
      let m := min margin 65535
      let name := unitName kind ix w
      let c := (s.wing w).wearCfg
      let s := (s.rhlFault w 2 name).modWear name fun r => r.sample m c.strike
      if ((tget s.wear name).getD {}).below < 4 ∨ s.isStruck u then .next s
      else .next (match (if c.autoStrike then s.marginStrike u else none) with
        | some s => s
        | none => s.wearCritical w name m)

/-- One unit at a wear check. -/
def State.checkUnit (s : State) (w : Wing) (name : Nat) : State :=
  match tget s.wear name with
  | none => s
  | some r =>
    if !r.sampled then s
    else
      let c := (s.wing w).wearCfg
      let warned := !r.warned && decide (r.low < c.warn)
      let clear := r.warned && decide (c.warn + 100 < r.low)
      let s := if warned then s.log w .wearWarning 0 name r.low 0 else s
      let t := s.now w
      s.modWear name fun r =>
        let h := r.hist ++ [r.low]
        { r with hist := h.drop (h.length - 64), low := r.margin, fresh := false, warned := (r.warned || warned) && !clear,
                 changed := if warned ∨ clear then t else r.changed }

/-- WEAR_CHECK (R348): every CHECK_PERIOD_S of RT, by the core that serves the wing (R361). -/
def execWearCheck (w : Wing) (s : State) : Host.Outcome State Fault Refusal :=
  let x := s.wing w
  if !s.running ∨ x.failed ∨ x.headless ∨ s.rt < x.wearAt + x.wearCfg.period * 1000000000 then .next s
  else
    let s := s.modWing w fun x => { x with wearAt := s.rt, wearN := x.wearN + 1 }
    let names := (s.wear.map (·.1)).filter fun n => n / 2 ^ 16 % 2 = wingIx w
    let s := names.foldl (fun s n => s.checkUnit w n) s
    .next { s with rowErrs := s.rowErrs.filter fun e => e.1 / 2 ^ 16 % 2 ≠ wingIx w }

/-! ## Understudies, rows and banks (R352, R354, R355) -/

/-- The frames in release that a test picks have run to their end. -/
def State.endLs (s : State) (f : LsOut → Bool) : State :=
  let g (o : LsOut) : LsOut := if f o then { o with done := true } else o
  { s with ports := s.ports.map fun (x : Port) => { x with lsOut := x.lsOut.map g } }

/-- A closing lane has reported CLOSED. -/
def State.endLaneClose (s : State) (l : Fin 28) : State :=
  if s.lanes[l].closing then
    ((s.endLs fun o => o.lane = some l).modLane l fun x => { x with closing := false }).logClosed (laneWing l) 3 l.val false
  else s

/-- An understudy that has passed its test takes its role. -/
def State.promote (s : State) (l : Fin 28) : State :=
  let w := laneWing l
  let old := s.role
  let s := s.modLane l fun x => { x with st := .inService, testing := false }
  let s := (s.modDisp w fun d => { d with need := d.need - 1 }).roleChanged w (unitName 0 (l.val % 14) w) false
  (s.reassign old).testNext w

/-- UNDERSTUDY_PROMOTION (R352): an understudy under test that carried Class 3 closes first (R158). -/
def execUnderstudyPromotion (w : Wing) (pass : Bool) (s : State) : Host.Outcome State Fault Refusal :=
  match (s.understudies w).find? fun l => s.lanes[l].testing && !s.lanes[l].items.any s.inRelease with
  | none => .next s
  | some l =>
    let s := s.endLaneClose l
    .next (if pass then s.promote l else s.strikeLane l 2 0)

/-- MARCH_TEST (R354): a row of a data buffer, and so of no trie bank, that holds no live data. Where the rows of the buffers lie is
not stated, so that the command stands for a row that the engine does test (DESIGN CHOICE, assumption 36). -/
def execMarchTest (w : Wing) (bank row : Nat) (faulty : Bool) (s : State) : Host.Outcome State Fault Refusal :=
  .next (if s.running ∧ faulty ∧ !(s.wing w).failed ∧ (bankOf bank).isNone then s.remapRow w bank row else s)

/-- BANK_STRUCK (R355): lookups read the spare from now on, and waiting commits go on. -/
def execBankStruck (w : Wing) (s : State) : Host.Outcome State Fault Refusal :=
  match (s.wing w).trie.copying with
  | [] => .next s
  | (root, ix) :: rest =>
    let n := bankNo root ix
    let s := s.modTrie w fun t => { t with copying := rest, struckBanks := t.struckBanks ++ [(root, ix)],
                                           spareUsed := t.spareUsed || !root, rootSpareUsed := t.rootSpareUsed || root }
    let s := ((s.roleChanged w (unitName 1 n w) true).roleChanged w (unitName 1 (if root then 19 else 16) w) false).log w
      .bankStruck 0 (unitName 2 n w) 0 0
    .next (State.nextCommit 9 w (s.answerWaiters (.strike (.trieBank w root ix)) .ok []))

/-! ## Closes (R343, R344) -/

/-- UNIT_CLOSED (R343): a closing unit whose last admitted work has completed. -/
def State.unitCloses (s : State) (u : UnitId) : State :=
  match u with
  | .port p =>
    let x := s.ports[p]
    if x.st = .closing ∧ x.staging.isEmpty ∧ x.inbound.isEmpty ∧ x.readmit.isEmpty then
      (s.modPort p fun x => { x with lsOut := x.lsOut.map fun o => { o with done := true } }).endPortClose p false
    else s
  | .rqp q => if s.rqps[q].st = .closing ∧ s.rqps[q].idle then s.endRqpClose q false else s
  | .region r => if s.regions[r].st = .closing ∧ s.regionDone r then s.endRegionClose r false else s
  | .sa w sai => match s.sa w sai with
    | some x =>
      let mine (p : Fin 64) : Bool := portWing p = w
      let s' := (List.finRange 64).foldl (fun s p => if mine p ∧ s.ports[p].lsOut.any fun o => o.sai = some sai
        then s.modPort p fun y => { y with lsOut := y.lsOut.map fun o => { o with done := true } } else s) s
      if x.st = .closing ∧ !s'.saBusy w sai then s'.reportSaClosed w sai false else s
    | none => s
  | .lane l => if s.lanes[l].items.any s.inRelease then s else s.endLaneClose l
  | .chan _ => s.settleHand
  | .core _ => s.settleHand
  | .slot k => if ((tget s.vlt.slots k).any fun e => e.closeAt.isSome) ∧ !s.keyBusy (.slot k) then s.endKeyClose (.slot k) false
    else s
  | .classA id => if ((s.vlt.cellOf id).any fun e => e.2.closeAt.isSome) ∧ !s.keyBusy (.classA id) then
      s.endKeyClose (.classA id) false else s
  | .mp _ => s
  | .trieBank _ _ _ => s
  | .boxPath _ => s
  | .mpePath _ => s
  | .ushPath _ => s
  | .dispatcher _ => s
  | .bridgeEnd _ => s
  | .vault => s
  | .vaultPath _ => s
  | .sramBank _ _ => s
  | .trieStage _ _ => s

/-- UNIT_CLOSED (R343). -/
def execUnitClosed (u : UnitId) (s : State) : Host.Outcome State Fault Refusal :=
  .next (if s.running then s.unitCloses u else s)

/-- The forced close of a channel that closes for a handover: its commands are answered CHANNEL_CLOSED, and SEQ counts
those that were next in order. -/
def State.forceChan (s : State) (n : Fin 8) : State :=
  match s.upd.hand with
  | none => s
  | some h =>
    let s := s.modChan n fun (x : Chan) => x.queue.foldl (fun (x : Chan) (p : Place) =>
      let put (q : Place) : List Place := x.queue ++ [q]
      match p.phase with
      | .answered _ _ => { x with queue := put p }
      | .running (.handover _) => { x with queue := put p }
      | .running (.strike (.core _)) => { x with queue := put p }
      | .running _ => { x with queue := put { p with phase := .answered .channelClosed [] } }
      | .queued => { x with queue := put { p with phase := .answered .channelClosed [] },
                            expect := if p.seq = x.expect.toNat then x.expect + 1 else x.expect }) { x with queue := [] }
    ((s.settleMap n).moveChan h n true).settleHand

/-- The accesses that a change of PIN still waits for end with CLOSED (R190, R343). -/
def State.forcePinWait (s : State) (r : Fin 64) : State :=
  match s.regions[r].pinWait with
  | none => s
  | some l =>
    let s := l.foldl (fun s e =>
      (s.rqps[e.1].accs.filter fun a => a.seq = e.2 ∧ a.lines.any (·.phase ≠ .done)).foldl (fun s a => s.endAcc e.1 a 7) s) s
    s.pump

/-- FORCED_CLOSE (R343): a closing unit whose close timeout has run out. -/
def State.forceUnit (s : State) (u : UnitId) : State :=
  let past (t us : Nat) : Bool := decide (t + us * 1000 ≤ s.rt)
  match u with
  | .port p => if s.ports[p].st = .closing ∧ past s.ports[p].closeAt (s.wing (portWing p)).saTimeout then s.forcePort p else s
  | .rqp q => if s.rqps[q].st = .closing ∧ past s.rqps[q].closeAt (s.wing (rqpWing q)).regTimeout then s.forceRqp q else s
  | .sa w sai => if (s.sa w sai).any fun x => x.st = .closing ∧ past x.closeAt (s.wing w).saTimeout then s.forceSa w sai else s
  | .region r =>
    if past s.regions[r].closeAt (s.wing s.regions[r].d.owner).regTimeout then
      if s.regions[r].st = .closing then s.forceRegion r else s.forcePinWait r
    else s
  | .chan n => if s.chans[n].closing.any fun t => past t 20000 then s.forceChan n else s
  | .slot k => if (tget s.vlt.slots k).any fun e => e.closeAt.any fun t => past t s.sl.regTimeout then s.forceKey (.slot k) else s
  | .classA id => if (s.vlt.cellOf id).any fun e => e.2.closeAt.any fun t => past t s.sl.regTimeout then
      s.forceKey (.classA id) else s
  | .core c => (List.finRange 8).foldl (fun s n =>
      if s.chans[n].served = c ∧ s.chans[n].closing.any fun t => past t 20000 then s.forceChan n else s) s
  | .lane _ => s
  | .mp _ => s
  | .trieBank _ _ _ => s
  | .boxPath _ => s
  | .mpePath _ => s
  | .ushPath _ => s
  | .dispatcher _ => s
  | .bridgeEnd _ => s
  | .vault => s
  | .vaultPath _ => s
  | .sramBank _ _ => s
  | .trieStage _ _ => s

/-- FORCED_CLOSE (R343). -/
def execForcedClose (u : UnitId) (s : State) : Host.Outcome State Fault Refusal :=
  .next (if s.running then s.forceUnit u else s)

/-! ## The cores of a Script update (R359, R360) -/

/-- The core that loads an image. -/
def State.loadingCore (s : State) : Option CoreId :=
  if (s.core .r).reloading then some .r else if (s.core .l).reloading then some .l else none

/-- Both wings pass to a core whose partner is lost. -/
def State.takeBoth (s : State) (c : CoreId) : State :=
  let old := s.role
  let s := ((s.takeGrant c).giveWing .sl c).giveWing .sr c
  (s.logBoth .coreTakeover 0 (coreIx (otherCore c)).val 0 0).reassign old

/-- A core has loaded and started its image. -/
def State.coreStarted (s : State) (c : CoreId) : State :=
  let h := s.upd.hash
  let s := s.modCore c fun x =>
    { x with hash := if h.isEmpty then x.hash else h, reloading := false, suspended := false, got := 0, missed := 0, armed := false }
  let o := s.core (otherCore c)
  if !s.joined then
    let old := s.role
    ({ s with upd := {} } : State).rehome.reassign old
  else if o.struck ∨ o.lost then
    let s := s.takeBoth c
    if s.upd.step = 0 then { s with upd := {} } else (s.logBoth .updatePartial 0 (coreIx (otherCore c)).val 0 0).adoptImage
  else match s.upd.step with
    | 3 => (State.beginHand { s with upd := { s.upd with step := 4 } } 0).settleHand
    | 5 => (State.beginHand { s with upd := { s.upd with step := 6 } } 2).settleHand
    | _ => let s := { s with upd := {} }
      if s.handIdle 2 then s else (s.beginHand 2).settleHand

/-- UPDATE_CORE_STARTED (R359). -/
def execUpdateCoreStarted (s : State) : Host.Outcome State Fault Refusal :=
  .next (if s.running then (match s.loadingCore with
    | some c => s.coreStarted c
    | none => s) else s)

/-- A core has not started its image within 4 ms and 28 ms (R287, R360). -/
def State.startFails (s : State) (c : CoreId) : State :=
  let fail (s : State) : State :=
    let s := (s.modCore c fun x => { x with reloading := false }).markCore c
    let old := s.role
    s.rehome.reassign old
  match s.upd.step with
  | 3 =>
    let s := s.logBoth .updateAborted 0 (coreIx c).val 0 0
    State.modCore { s with upd := {} } c fun x => { x with reloadAt := s.rt }
  | 5 => ((fail s).logBoth .updatePartial 0 (coreIx c).val 0 0).adoptImage
  | _ => State.settleHand { (fail s) with upd := {} }

/-- UPDATE_START_TIMEOUT (R360). -/
def execUpdateStartTimeout (s : State) : Host.Outcome State Fault Refusal :=
  .next (if s.running then (match s.loadingCore with
    | some c => if (s.core c).reloadAt + 32000000 ≤ s.rt then s.startFails c else s
    | none => s) else s)

end Sys2Proof.Machine
end

