-- ==== Sys2Proof/Machine/PortEvents.lean ====
section
/-! DEFINITION. Port resets and lost port clocks (R47, R48, R52, R54). -/

namespace Sys2Proof.Machine

/-- The event of a port that was open, on its wing (R378): the port's index, then 0 HS, 1 LS, 2 RQP, 3 MP. -/
def State.logSide (s : State) (e : Ev) : PortSide → State
  | .hs p => s.log (portWing p) e p.val 0 0 0
  | .ls p => s.log (portWing p) e p.val 1 0 0
  | .rqp q => s.log (rqpWing q) e q.val 2 0 0
  | .mp m => s.log (mpWing m) e m.val 3 0 0
  | _ => s

/-- Whether a port is open or closing. A memory port out of reset counts as open (assumption 23). The others are never
opened. -/
def State.sideOpen (s : State) : PortSide → Bool
  | .hs p => decide (s.ports[p].st ≠ .closed)
  | .ls p => decide (s.ports[p].st ≠ .closed)
  | .rqp q => decide (s.rqps[q].st ≠ .closed)
  | .mp m => !s.mps[m].rst
  | _ => false

/-- The forced close of a port, with its event. -/
def State.forceSide (s : State) (e : Ev) (x : PortSide) : State :=
  if s.sideOpen x then
    let s := s.logSide e x
    match x with
    | .hs p => s.forcePort p
    | .ls p => s.forcePort p
    | .rqp q => s.forceRqp q
    | .mp m => s.dropMp m
    | _ => s
  else s

/-- Whether a side is in its own reset. -/
def State.sideRst (s : State) : PortSide → Bool
  | .hs p => s.ports[p].hsRst
  | .ls p => s.ports[p].lsRst
  | .rqp q => s.rqps[q].rst
  | .mp m => s.mps[m].rst
  | .tod .sl => s.pwr.todRstSl
  | .tod .sr => s.pwr.todRstSr
  | .cp => s.pwr.cpRst
  | .tap => s.pwr.trst

/-- A side in reset: its outputs at their reset values, its inputs ignored. -/
def State.holdSide (s : State) : PortSide → State
  | .hs p => s.modPort p fun x => { x with hsRst := true, hsOut := none }
  | .ls p => s.modPort p fun x => { x with lsRst := true, lsOut := none, hold := false, holdRsn := 0, holdSince := s.rt, holdSpent := false }
  | .rqp q => s.modRqp q fun x => { x with rst := true, dq := [], early := [] }
  | .mp m => s.modMp m fun x => { x with rst := true, aq := [], out := [], clkLost := false }
  | .tod .sl => { s with pwr := { s.pwr with todRstSl := true } }
  | .tod .sr => { s with pwr := { s.pwr with todRstSr := true } }
  | .cp => s.resetCp
  | .tap => { s with pwr := { s.pwr with trst := true }, tap := {} }

/-- PORT_RESET (R48). -/
def execPortReset (x : PortSide) (s : State) : Host.Outcome State Fault Refusal :=
  .next (if s.sideRst x then s else
    let s := if s.cpUp then s.forceSide .portResetWhileOpen x else s
    s.holdSide x)

/-- PORT_RESET_RELEASE (R52, R54): the counts of that side's channels become 0. -/
def execPortResetRelease (x : PortSide) (s : State) : Host.Outcome State Fault Refusal :=
  .next (if !s.sideRst x then s else match x with
    | .hs p => s.modPort p fun x => { x with hsRst := false, hsIHeld := 0, hsIUsed := 0, hsOCred := 0, hsIFail := false,
                                             hsINotOpen := false, hsOExcess := 0 }
    | .ls p => s.modPort p fun x => { x with lsRst := false, lsIHeld := 0, lsIUsed := 0, lsOCred := 0, lsIFail := false,
                                             lsINotOpen := false, lsOExcess := 0 }
    | .rqp q => s.modRqp q fun x => { x with rst := false }
    | .mp m => s.modMp m fun x => { x with rst := false }
    | .tod .sl => { s with pwr := { s.pwr with todRstSl := false } }
    | .tod .sr => { s with pwr := { s.pwr with todRstSr := false } }
    | .cp => { s with pwr := { s.pwr with cpRst := false } }
    | .tap => { s with pwr := { s.pwr with trst := false } })

/-- PORT_CLOCK_LOST (R47): of a port that is open. A memory port stays lost until its reset. -/
def execPortClockLost (x : PortSide) (s : State) : Host.Outcome State Fault Refusal :=
  .next (if !s.cpUp ∨ !s.sideOpen x then s else match x with
    | .mp m => if s.mps[m].clkLost then s else
        State.dropMp ((s.logSide .portClockLost x).modMp m fun y => { y with clkLost := true }) m
    | _ => s.forceSide .portClockLost x)

end Sys2Proof.Machine
end

