-- ==== Sys2Proof/Machine/PowerOps.lean ====
section
/-! DEFINITION. Sleep entry (R420, R424): what step 2 leaves in the mailbox queues, and when its steps have ended. -/

namespace Sys2Proof.Machine

/-- Whether every stream port and request port is closed and no command runs: step 2 of sleep entry has ended. -/
def State.quietPorts (s : State) : Bool :=
  s.ports.all (fun x => x.st = .closed) && s.rqps.all (fun x => x.st = .closed) && s.chans.all fun c => c.waiting.isNone

/-- A queued command that has not started is answered CHANNEL_CLOSED; SEQ counts those that were next in order. -/
def Chan.shut (c : Chan) : Chan :=
  c.queue.foldl (fun (x : Chan) (p : Place) =>
    let put (q : Place) : List Place := x.queue ++ [q]
    match p.phase with
    | .queued => { x with queue := put { p with phase := .answered .channelClosed [] },
                          expect := if p.seq = x.expect.toNat then x.expect + 1 else x.expect }
    | _ => { x with queue := put p }) { c with queue := [] }

/-- Step 3 of sleep entry begins: commands still queued are answered. -/
def State.sleepQueues (s : State) : State :=
  if s.pwr.entering ∧ !s.pwr.saving ∧ s.boot.phase = .ready ∧ s.quietPorts then
    (List.finRange 8).foldl State.settleMap { s with chans := s.chans.map Chan.shut, pwr := { s.pwr with saving := true } }
  else s

/-- Step 2 ends of itself once no command that is queued can run any more. -/
def State.sleepIdle (s : State) : State :=
  if (List.finRange 8).all fun ch => !s.canRun ch then s.sleepQueues else s

/-- Whether a region has nothing more to write back or to keep (R420 step 3). A wing whose vault path is lost, and a vault without
its retention key after an Iron (R299), keep no root. -/
def State.regionAsleep (s : State) (r : Fin 64) : Bool :=
  let x := s.regions[r]
  x.st = .notInstalled || x.d.mode = 0 || (!s.unflushed r && (!x.d.retain || !x.wbFail.isEmpty || s.pathLost x.d.owner || s.vlt.keys.ret.isNone || s.rootSaved r))

/-- Whether steps 2 and 3 of sleep entry have ended. -/
def State.sleepReady (s : State) : Bool :=
  s.pwr.saving && s.quietPorts && (List.finRange 64).all fun r => s.regionAsleep r

/-- The retained record of a region whose write-back failed is cleared. -/
def State.dropFailedRoots (s : State) : State :=
  (List.finRange 64).foldl (fun (s : State) (r : Fin 64) =>
    let x := s.regions[r]
    if x.st ≠ .notInstalled ∧ x.d.retain ∧ !x.wbFail.isEmpty then s.modVlt fun v => v.setRegionRec r.val [] else s) s

end Sys2Proof.Machine
end

