-- ==== Sys2Proof/Machine/VaultEvents.lean ====
section
/-! DEFINITION. What the vault does of itself: journal records of region roots (R265), fuse copies (R281, R439), the tamper
chips and windows (R290, R291), its periodic work (R250, R270, R307), the end of a key (R255) and a vault path that returns
(R276). -/

namespace Sys2Proof.Machine

/-! ## The journal (R212, R264, R265) -/

/-- The regions whose roots wait at the arbiter. -/
def Vault.rootsAsked (v : Vault) : List Nat := v.jq.flatMap fun j => match j with | .roots rs => rs

/-- An entry of a REGION_ROOT body: the region's index, a zero byte, its root and its descriptor check (R212, R264). -/
def State.rootEntry (s : State) (r : Nat) : Bytes :=
  let x := s.regions[(Fin.ofNat 64 r)]
  [BitVec.ofNat 8 r, 0] ++ leBytes 8 x.root ++ (cmac (s.vlt.keys.ret.getD []) (x.d.checkBytes r)).take 8

/-- A root request is over for the regions given: each counts one more copy of its root. -/
def State.rootsDone (s : State) (rs : List Nat) : State :=
  rs.foldl (fun s r => s.modRegion (Fin.ofNat 64 r) fun x => { x with rootAsk := false, saves := x.saves + 1 }) s

/-- JOURNAL_COMMIT (R265): up to six roots that wait together share one record. Without a retention key (R299) no record can
be made and the requests lapse. -/
def execJournalCommit (cut : JCut) (s : State) : Host.Outcome State Fault Refusal :=
  let all := s.vlt.rootsAsked
  if all.isEmpty ∨ !s.pwr.vddv then .next s
  else if s.vlt.keys.ret.isNone then .next ((s.modVlt fun v => { v with jq := [] }).rootsDone all)
  else
    let rs := all.take 6
    let rest := all.drop 6
    let body := rs.flatMap s.rootEntry
    let s := s.modVlt fun v => { v with jq := if rest.isEmpty then [] else [.roots rest] }
    .next (s.commitRecord 3 rs.length s.vlt.updCtr s.vlt.kumDigest body cut fun s =>
      ((s.modVlt fun v => Vault.applyRoots rs.length v body).rootsDone rs).pump)

/-! ## Fuse copies (R281, R439) -/

/-- The copy being burnt is finished. -/
def State.burnNow (s : State) (b : Burn) : State := s.modVlt fun v => { v with lc := burnCopy v.lc (Fin.ofNat 20 b.bit) b.copy }

/-- No move is under way any more. -/
def State.endBurn (s : State) : State := s.modVlt fun v => { v with burn := none }

/-- FUSE_COPY (R281). -/
def execFuseCopy (s : State) : Host.Outcome State Fault Refusal :=
  match s.vlt.burn with
  | none => .next s
  | some b =>
    let s := s.burnNow b
    .next (if b.stopped then s.endBurn
      else if 2 ≤ b.copy then s.finishMove b.after
      else if s.fuseOk then s.modVlt fun v => { v with burn := some { b with copy := b.copy + 1 } }
      else (s.stopBurn .fuseRailAbsent).endBurn)

/-- What the loss of the rail does to a burn; `burnt` says how the copy is sensed afterwards. -/
def State.railLost (s : State) (burnt : Bool) : State :=
  match s.vlt.burn with
  | none => s
  | some b =>
    let s := if burnt then s.burnNow b else s
    if b.stopped then s.endBurn
    else if 2 ≤ b.copy then s.finishMove b.after
    else (s.stopBurn .fuseRailAbsent).endBurn

/-- FUSE_VPP_LOSS (R439). -/
def execFuseVppLoss (burnt : Bool) (s : State) : Host.Outcome State Fault Refusal :=
  let s := s.cutHashes
  .next (State.railLost { s with pwr := { s.pwr with fuseVpp := false } } burnt)

/-! ## Loops and shield (R290 to R292) -/

/-- Whether a line is driven: lines 2n and 2n + 1 are those of pair n, line 8 + i is shield net i. -/
def Vault.lineOn (v : Vault) (i : Nat) : Bool := decide (8 ≤ i) || v.tlpOn (i / 2)

/-- What R290 asks of the code and the pull of a line over 32 chips, given as pairs of drive and pull. -/
def codeGood (l : List (Bool × Bool)) : Bool :=
  let atLeast8 (f : Bool × Bool → Bool) : Bool := decide (8 ≤ l.countP f)
  atLeast8 (·.1) && atLeast8 (!·.1) && atLeast8 (fun x => x.1 != x.2) && atLeast8 (·.2) && atLeast8 (!·.2)

/-- What it asks of the two lines of a pair besides. -/
def pairGood (a b : List (Bool × Bool)) : Bool := decide (8 ≤ (a.zip b).countP fun p => p.1.1 != p.2.1)

/-- Chip `n` of the alternating code, which may follow every code that `mayFollow` accepts: the lines of a pair are opposite, and
each is opposite to its pull (DESIGN CHOICE, assumption 33). -/
def altChip (n i : Nat) : Bool × Bool := (decide ((n + i) % 2 = 0), decide ((n + i) % 2 = 1))

/-- Whether chips chosen for the lines of a pair, or for one shield net, keep every window of 32 chips as R290 asks, where the
alternating code follows them. -/
def mayFollow (n : Nat) (ls : List (Nat × List (Bool × Bool) × (Bool × Bool))) : Bool :=
  let runs := ls.map fun l => l.2.1.drop (l.2.1.length - 31) ++ [l.2.2] ++ (List.range 31).map fun k => altChip (n + 1 + k) l.1
  let len := (runs.headD []).length
  (List.range (len - 31)).all fun k =>
    let win := runs.map fun r => (r.drop k).take 32
    win.all codeGood && match win with
      | [a, b] => pairGood a b
      | _ => true

/-- The chip that the LFSR of a line offers. -/
def LineCode.offer (l : LineCode) (i : Nat) : Bool × Bool := (l.lfsr.getLsbD 0, Config.chipPull i l.lfsr)

/-- The chip that the vault chooses for a line: what its LFSR offers where that keeps the counts of R290, else the alternating code. -/
def Vault.choose (v : Vault) (i : Fin 24) : Bool × Bool :=
  let one (j : Fin 24) : Nat × List (Bool × Bool) × (Bool × Bool) :=
    (j.val, v.lines[j].chips.map (fun x => (x.1, x.2.1)), v.lines[j].offer j.val)
  let group := if i.val < 8 then [one (Fin.ofNat 24 (i.val / 2 * 2)), one (Fin.ofNat 24 (i.val / 2 * 2 + 1))] else [one i]
  if mayFollow v.chipN group then v.lines[i].offer i.val else altChip v.chipN i.val

/-- The end of a chip on one line: drive, pull and sample are kept for 32 chips, the LFSR advances. -/
def LineCode.chip (l : LineCode) (c : Bool × Bool) (sample : Bool) : LineCode :=
  let all := l.chips ++ [(c.1, c.2, sample)]
  { lfsr := Config.lfsrNext l.lfsr, chips := all.drop (all.length - 32) }

/-- Nanoseconds that a chip lasts: CHIP_US with VDDC up and the block awake, else SLEEP_CHIP_US (R290, R295). -/
def State.chipNs (s : State) : Nat :=
  1000 * (if s.pwr.awake then fld (s.vlt.live 0) 15 8 else fld (s.vlt.live 0) 31 16)

/-- The end of a chip on every line that is driven. -/
def Vault.endChip (v : Vault) (samples : List Bool) : Vault :=
  { v with
    chipN := v.chipN + 1, chipAt := v.vtimer
    lines := Vector.ofFn fun (i : Fin 24) =>
      if v.lineOn i.val then v.lines[i].chip (v.choose i) (samples.getD i.val false) else { v.lines[i] with chips := [] } }

/-- TAMPER_CHIP (R290): nothing happens before the chip under way has lasted its time. -/
def execTamperChip (samples : List Bool) (s : State) : Host.Outcome State Fault Refusal :=
  .next (if !s.pwr.vddv ∨ !s.pwr.vddh ∨ s.vlt.vtimer < s.vlt.chipAt + s.chipNs then s
    else s.modVlt fun v => v.endChip samples)

/-- The condition that two lines read over their last 32 chips (R291). -/
def classify (a b : List (Bool × Bool × Bool)) : Nat :=
  let n (l : List (Bool × Bool × Bool)) (f : Bool × Bool × Bool → Bool) : Nat := l.countP f
  let ok (x : Bool × Bool × Bool) : Bool := x.2.2 == x.1
  let pull (x : Bool × Bool × Bool) : Bool := x.2.2 == x.2.1
  let ones (x : Bool × Bool × Bool) : Bool := x.2.2
  let both := a.zip b
  if 31 ≤ n a ok ∧ 31 ≤ n b ok then 0
  else if n a ones = 32 ∨ n b ones = 32 then 2
  else if n a ones = 0 ∨ n b ones = 0 then 3
  else if 31 ≤ n a pull ∨ 31 ≤ n b pull then 1
  else if both.all fun p => p.1.1 == p.2.1 || p.1.2.2 == p.2.2.2 then 4
  else if 31 ≤ both.countP fun p => p.1.2.2 == p.2.1 && p.2.2.2 == p.1.1 then 5
  else 6

/-- What a pair reads: NORMAL while it is not driven, or has not been for 32 chips. -/
def Vault.pairReads (v : Vault) (i j : Fin 24) : Nat :=
  if v.lineOn i.val ∧ v.lines[i].chips.length = 32 ∧ v.lines[j].chips.length = 32 then classify v.lines[i].chips v.lines[j].chips
  else 0

/-- What the shield reads: the first net that is not NORMAL against its neighbour. A net has no REVERSED (R289). -/
def Vault.shieldReads (v : Vault) : Nat :=
  let nets := (List.finRange 16).map fun i =>
    v.pairReads (Fin.ofNat 24 (8 + i.val)) (Fin.ofNat 24 (if i.val = 15 then 22 else 9 + i.val))
  let c := (nets.find? (· ≠ 0)).getD 0
  if c = 5 then 6 else c

/-- TAMPER_WINDOW (R291): every 8 chips; settings written since the last window take effect (R297), also where VDDH is lost and
nothing is classified. -/
def execTamperWindow (s : State) : Host.Outcome State Fault Refusal :=
  .next (if !s.pwr.vddv then s
    else if !s.pwr.vddh then s.modVlt Vault.useSettings
    else if s.vlt.chipN % 8 ≠ 0 then s
    else
      let s := s.modVlt Vault.useSettings
      let v := s.vlt
      let s := (((s.sense 0 (v.pairReads 0 1)).sense 1 (v.pairReads 2 3)).sense 2 (v.pairReads 4 5)).sense 3 (v.pairReads 6 7)
      s.sense 4 v.shieldReads)

/-! ## Periodic work (R250, R270, R307) -/

/-- RT_COPY (R307). -/
def execRtCopy (s : State) : Host.Outcome State Fault Refusal := .next (if s.pwr.vddv ∧ s.pwr.vddc then s.copyRt else s)

/-- MASK_REFRESH (R250): every cell gets a new M from the CTR_DRBG (`Vault.cellHolds`); the refresh pauses where it has stopped
(R270). -/
def execMaskRefresh (s : State) : Host.Outcome State Fault Refusal :=
  .next (if s.cpUp ∧ s.vlt.drbgOk then s.modVlt fun v => { v with maskAt := v.rt, maskDraw := v.drbgN, drbgN := v.drbgN + 1 } else s)

/-- DRBG_RESEED (R270). -/
def execDrbgReseed (s : State) : Host.Outcome State Fault Refusal :=
  .next (if s.cpUp ∧ s.vlt.drbgOk then s.modVlt fun v => { v with reseedAt := v.rt } else s)

/-- ENTROPY_FAIL (R270). -/
def execEntropyFail (s : State) : Host.Outcome State Fault Refusal :=
  .next (if s.cpUp ∧ s.vlt.drbgOk then
      (s.modVlt fun v => { v with drbgOk := false }).entropyFailed
    else s)

/-! ## Keys (R255, R276) -/

/-- The SAs of a wing that a key serves. -/
def State.saUsing (s : State) (w : Wing) (l : KLoc) (inb : Bool) : List Nat :=
  ((s.wing w).sas.filter fun e => e.2.r.keyLoc = l ∧ e.2.r.inb = inb ∧ e.2.st ≠ .closed).map (·.1)

/-- The wing whose key it is: one with an SA that names it, else SL. -/
def State.keyWing (s : State) (l : KLoc) : Wing :=
  if (s.saUsing .sl l false ++ s.saUsing .sl l true).isEmpty ∧ !(s.saUsing .sr l false ++ s.saUsing .sr l true).isEmpty
  then .sr else .sl

/-- KEY_EXPIRY (R255): KEY_SPENT once, and inbound SAs under the key close; an outbound SA meets the end at its next
binding. -/
def execKeyExpiry (ref : BitVec 24) (s : State) : Host.Outcome State Fault Refusal :=
  match kLoc ref.toNat with
  | none => .next s
  | some l =>
    .next (match s.vlt.keyAt l with
    | none => s
    | some k =>
      if !s.cpUp ∨ k.spent ∨ k.attr.expiryS = 0 ∨ s.rt < k.at' + k.attr.expiryS * 1000000000 then s
      else s.spend (s.keyWing l) l)

/-- VAULT_PATH_RESTORED (R276): the vault rewrites the copies of the wing whose path returns. No path to a struck vault does. -/
def execVaultPathRestored (w : Wing) (s : State) : Host.Outcome State Fault Refusal :=
  .next (if !s.pathLost w ∨ s.sl.struck.contains (unitName 9 0 .sl) then s
    else s.modVlt fun v => match w with
      | .sl => { v with pathLostSl := false, slots := v.slots.map fun e => (e.1, { e.2 with inSl := true }) }
      | .sr => { v with pathLostSr := false, slots := v.slots.map fun e => (e.1, { e.2 with inSr := true }) })

end Sys2Proof.Machine
end

