-- ==== Sys2Proof/Machine/PowerEvents.lean ====
section
/-! DEFINITION. Supplies (R413 to R419), reset and start-up (R283, R287, R382, R414), sleep (R420 to R424), temperature
(R288), and PWR_STATUS (R418). -/

namespace Sys2Proof.Machine

/-! ## Reset and start-up -/

/-- CORE_RST_N (R382): without VDDV it has no effect beyond the pin (R416). -/
def execCoreRstN (s : State) : Host.Outcome State Fault Refusal :=
  let s := if s.boot.phase = .off ∨ !s.pwr.vddv then s else s.coreReset
  .next { s with pwr := { s.pwr with coreRst := true, late := false } }

/-- RESET_HOLD (R414): 50 µs after VDDC and VDDV have both become present. -/
def execResetHold (s : State) : Host.Outcome State Fault Refusal :=
  .next (if s.pwr.vddc ∧ s.pwr.vddv ∧ !s.pwr.holdOver ∧ s.pwr.presentAt + 50000 ≤ s.vlt.vtimer then
      { s with pwr := { s.pwr with holdOver := true } }
    else s)

/-- START_UP (R283): CORE_RST_N is released, or the reset hold ends with it released; SLP_REQ is sampled (R422). In sleep only a
release after an assertion wakes, and none does while SLP_REQ is 1; one that the reset hold delays takes effect at its end
(R414). -/
def execStartUp (o : StartObs) (s : State) : Host.Outcome State Fault Refusal :=
  let released := s.pwr.coreRst || s.pwr.late
  if s.boot.phase ≠ .off ∨ (s.pwr.slpAck ∧ !released) then .next s
  else
    let s := { s with pwr := { s.pwr with coreRst := false, late := released && !s.outOfHold, slpReq := o.slpReq } }
    .next (if s.canStart then s.startUp o else s)

/-- The lanes that failed their known-answer test are struck; a wing with fewer than two that passed has failed, and does not become
ready (R287). What a Box Office, trie or MPE datapath that fails its test does the manual does not say (assumption 21). -/
def State.unitTests (s : State) (bad : List (Fin 28)) : State :=
  let s := bad.foldl (fun s l => if s.lanes[l].st = .struck then s else s.strikeLane l 2 0) s
  s.eachWing fun s w =>
    if ((List.finRange 28).countP fun l => laneWing l = w ∧ s.lanes[l].st ≠ .struck) < 2 then
      (s.failWing w).modWing w fun x => { x with ready := false }
    else s

/-- SCRIPT_READY (R287): both cores run the image and have made their first heartbeat, the wings are set up. -/
def execScriptReady (bad : List (Fin 28)) (s : State) : Host.Outcome State Fault Refusal :=
  if s.boot.phase ≠ .loading then .next s
  else
    let s : State := { s with
      boot := { s.boot with phase := .ready }
      cores := s.cores.map fun (c : Core) => { c with running := true, hash := s.boot.hash, beatAt := s.rt, beats := 1, got := 1 } }
    let s := s.modVlt fun v => { v with markSl := some v.rt, markSr := some v.rt }
    let s := s.eachWing fun s w => s.modWing w fun x => { x with ready := true, lastTok := s.rt, wearAt := s.rt }
    .next (s.unitTests bad)

/-! ## Sleep (R420 to R424) -/

/-- SLEEP_ENTRY (R420 steps 1 and 2): nothing new is admitted, every open port closes, a Script update stops. -/
def execSleepEntry (s : State) : Host.Outcome State Fault Refusal :=
  if !s.pwr.vddv ∨ !s.cpUp ∨ s.pwr.coreRst ∨ s.pwr.entering then .next s
  else
    let s := s.eachWing fun s w => s.rhlFault w 5 (unitName 9 0 .sl)
    let s := { s with pwr := { s.pwr with slpReq := true, entering := true } }
    if s.isReady then
      let s := s.stopUpdate
      let s := (List.finRange 64).foldl (fun s p => if s.ports[p].st = .opened then s.startPortClose p else s) s
      .next ((List.finRange 4).foldl (fun s q => s.startRqpClose q) s)
    else .next s

/-- SLP_ACK (R420 steps 3 to 7): step 3 begins here at the latest; before READY there is nothing to write back (R424). -/
def execSlpAck (s : State) : Host.Outcome State Fault Refusal :=
  if !s.pwr.entering then .next s
  else if s.isReady then
    let s := s.sleepQueues
    .next (if s.sleepReady then s.dropFailedRoots.toSleep else s.pump)
  else .next s.toSleep

/-! ## Supplies and temperature (R288, R413 to R419) -/

/-- Whether GLITCH_C watches: from the release of CORE_RST_N until sleep entry ends (R288, R417, R420). -/
def State.coreWatched (s : State) : Bool := s.cpUp && s.pwr.vddv

/-- VDDH falls below its range: the rail of the fuses goes with it, the loop and shield senses are not valid (R415). -/
def State.loseVddh (s : State) : State :=
  let burnt := decide (s.freeVal % 2 = 1)
  let s := if s.vlt.burn.isSome then s.takeFree else s
  let s := s.cutHashes
  let s := { s with pwr := { s.pwr with vddh := false, fuseVpp := false } }
  let s := s.railLost burnt
  s.modVlt fun v => { v with lines := v.lines.map fun (l : LineCode) => { l with chips := [] } }

/-- SUPPLY_EXCURSION (R288, R413). VDDC below its range is a GLITCH_C while the core runs, which goes on (R419); else it does not
count as present, and the reset hold begins again with its return (R414). Below its range VDDV lets the vault write nothing: the
detection is answered when it is back. -/
def execSupplyExcursion (x : Supply) (above : Bool) (s : State) : Host.Outcome State Fault Refusal :=
  .next (match x with
    | .vddc =>
      if s.coreWatched then s.sense 5 (if above then 8 else 7)
      else if above then s
      else { s.haltRt with pwr := { s.pwr with vddc := false, holdOver := false } }
    | .vddv =>
      if !s.pwr.vddv then s
      else if above then s.sense 6 8
      else
        let s := (s.setCond 6 7).vddvDip
        s.modVlt fun v => { v with dip := some 7 }
    | .vddh =>
      if !s.pwr.vddh ∨ above then s
      else
        let s := s.loseVddh
        if s.pwr.vddv then s.sense 8 0xB else s)

/-- VDDC_LOSS (R413, R417): with the core running this is a GLITCH_C detection, answered as VDDC leaves its range and
before it is off (DEDUCED, assumption 24); a burn is cut first. -/
def execVddcLoss (s : State) : Host.Outcome State Fault Refusal :=
  if !s.pwr.vddc then .next s
  else
    let s := if s.coreWatched then s.cutBurn.sense 5 7 else s
    let s := s.coreReset.haltRt
    .next { s with pwr := { s.pwr with vddc := false, holdOver := false } }

/-- VDDV_LOSS (R413): the vault is reset but for its fuses; retention is lost at the next start-up. -/
def execVddvLoss (s : State) : Host.Outcome State Fault Refusal :=
  let s := s.coreReset
  let v := s.vlt
  .next { s with
    pwr := { s.pwr with vddv := false, holdOver := false, slpAck := false }
    vlt := { lc := v.lc, lcCode := v.lcCode, lcSeq := v.lcSeq, epoch := v.epoch, owner := v.owner, drbgN := v.drbgN } }

/-- VDDV is back in its range: a condition met below it is answered now (R413, assumption 25). -/
def State.answerDip (s : State) : State :=
  match s.vlt.dip with
  | some c => ((s.modVlt fun v => { v with dip := none }).detect 6 c).setCond 6 0
  | none => s.setCond 6 0

/-- VDDV is back: VDDH_LOSS watches again, and finds a VDDH that is absent (R288, R416). -/
def State.findVddh (s : State) : State := if s.pwr.vddh then s else s.sense 8 0xB

/-- SUPPLY_PRESENT (R413, R414). -/
def execSupplyPresent (x : Supply) (s : State) : Host.Outcome State Fault Refusal :=
  .next (match x with
    | .vddc =>
      let s := if s.pwr.vddc then s
        else { s with pwr := { s.pwr with vddc := true, presentAt := s.vlt.vtimer, holdOver := false } }
      s.setCond 5 0
    | .vddv =>
      if s.pwr.vddv then s.setCond 6 0
      else (State.answerDip { s with pwr := { s.pwr with vddv := true, presentAt := s.vlt.vtimer, holdOver := false } }).findVddh
    | .vddh => State.setCond { s with pwr := { s.pwr with vddh := true, fuseVpp := true } } 8 0)

/-- TEMP (R288). -/
def execTempSource (hot : Bool) (s : State) : Host.Outcome State Fault Refusal :=
  .next (if s.pwr.vddv then s.sense 7 (if hot then 0xA else 9) else s)

/-! ## PWR_STATUS (R418) -/

/-- The slot rate of a wing's slowest in-service lane, in slots per µs: a free value of one word. -/
def State.slotRate (s : State) : Word := wd s.freeVal

/-- PWR_STATUS (R374, R418): it reports both wings' lanes, so it reaches both (R336). -/
def execPwrStatus (ch : Fin 8) (s : State) : Host.Outcome State Fault Refusal :=
  .next (s.runCmd ch { op := 0x1C0, lenMin := 0, lenMax := 0 } fun s c =>
    Res.reaching s c (otherWing (s.cmdWing c))
      (.done s.takeFree.takeFree .ok [wd (b2n s.pwr.vddh + b2n s.pwr.slpReq * 2), s.slotRate, s.takeFree.slotRate]))

end Sys2Proof.Machine
end

