-- ==== Sys2Proof/Machine/RhlCmds.lean ====
section
/-! DEFINITION. The Rehearsal commands of the catalogue (R374, R395, R396, R403 to R407): the actions of RHL_SET, RHL_STATUS,
RHL_EXPORT, RHL_REPLAY, RHL_RESUME. -/

namespace Sys2Proof.Machine

/-! ## The export image (R399, R400, R405) -/

/-- The code of a logger state (R404). -/
def RhlState.code : RhlState → Nat
  | .off => 0
  | .trace => 1
  | .record => 2
  | .frozen => 3
  | .snapshot => 4
  | .replaying => 5
  | .replayDone => 6
  | .replayDiverged => 7

/-- The blocks of a log, oldest first: in RECORD its snapshot's come first. -/
def Rhl.blocks (r : Rhl) : List RBlock := r.spilled ++ r.full ++ (if r.cur.recs.isEmpty then [] else [r.cur])

/-- Blocks of a log. -/
def Rhl.count (r : Rhl) : Nat := r.blocks.length

/-- The export header (R405). -/
def State.rhlHeader (s : State) (w : Wing) : Bytes :=
  let r := (s.wing w).rhl
  let pub := match s.vlt.keys.trans with
    | some d => ecPub d
    | none => []
  let words := [r.word0 w] ++ toWords 2 r.logId ++ [wd r.count] ++ bytesToWords didBytes ++ [wd s.vlt.ctx]
    ++ bytesToWords (padTo 48 r.image) ++ bytesToWords (padTo 96 pub)
    ++ bytesToWords (padTo 16 r.targetDid) ++ bytesToWords (padTo 40 r.wrap)
  padTo 256 (wordsToBytes words)

/-- Block `b` of a log. -/
def State.rhlBlock (s : State) (w : Wing) (b : Nat) : Bytes :=
  let r := (s.wing w).rhl
  (r.blocks[b]?).elim [] fun x => r.blockBytes w (s.vlt.keys.rhlLog.getD []) x

/-- Bytes of the export image from an offset on, at most `n`. -/
def State.rhlBytes (s : State) (w : Wing) (off n : Nat) : Bytes :=
  if off < 256 then ((s.rhlHeader w).drop off ++ (if 0 < (s.wing w).rhl.count then s.rhlBlock w 0 else [])).take n
  else
    let b := (off - 256) / 4096
    ((s.rhlBlock w b).drop ((off - 256) % 4096) ++ (if b + 1 < (s.wing w).rhl.count then s.rhlBlock w (b + 1) else [])).take n

/-! ## RHL_SET (R395, R396, R403, R405) -/

/-- ACTION of an RHL_SET request. -/
def Place.rhlAction (p : Place) : Nat := fld (wordAt p.words 2) 1 0

/-- An action of RHL_SET: its row, and what it does with settings whose reserved bits are 0. -/
def State.rhlSet (s : State) (ch : Fin 8) (action : Nat) (body : State → Ctx → Res) : State :=
  s.runSel ch { op := 0x1A0, lenMin := 31, lenMax := 31, wing := 1 } (fun p => p.rhlAction = action) fun s c =>
    Res.need (rhlCfgClean c.words 2) s (body s c)

/-- STOP (R403), staged. -/
def execRhlStop (ch : Fin 8) (s : State) : Host.Outcome State Fault Refusal :=
  .next (s.rhlSet ch 0 fun s c => good (s.stage c.ch [c.wing] (.rhlStop c.wing)))

/-- START_TRACE (R394, R395), staged. -/
def execRhlStartTrace (ch : Fin 8) (s : State) : Host.Outcome State Fault Refusal :=
  .next (s.rhlSet ch 1 fun s c =>
    if s.vlt.lcCode ≠ 5 then failed s .lcRefused
    else if (s.wing c.wing).rhl.busy then failed s .rhlState
    else if !s.vlt.drbgOk then failed s .entropyFail
    else good (s.stage c.ch [c.wing] (.rhlStart c.wing (RhlCfg.ofWords c.words 2))))

/-- START_RECORD (R394 to R396), staged. -/
def execRhlStartRecord (ch : Fin 8) (s : State) : Host.Outcome State Fault Refusal :=
  .next (s.rhlSet ch 2 fun s c =>
    if s.vlt.lcCode ≠ 5 then failed s .lcRefused
    else if (s.wing c.wing).rhl.busy ∨ !s.recordOk c.wing then failed s .rhlState
    else if !s.vlt.drbgOk then failed s .entropyFail
    else good (s.stage c.ch [c.wing] (.rhlStart c.wing (RhlCfg.ofWords c.words 2))))

/-- SET_TARGET (R405), staged; the settings cannot change while the logger records (R395; DEDUCED, assumption 37). -/
def execRhlSetTarget (ch : Fin 8) (s : State) : Host.Outcome State Fault Refusal :=
  .next (s.rhlSet ch 3 fun s c =>
    if (s.wing c.wing).rhl.busy then failed s .rhlState
    else good (s.stage c.ch [c.wing] (.rhlTarget c.wing (wordsToBytes (wordsAt c.words 5 4)) (wordsToBytes (wordsAt c.words 9 24)))))

/-! ## The others -/

/-- Blocks that the ring (TRACE) or the spill half (RECORD) still takes. -/
def Rhl.room (r : Rhl) : Nat := if r.cfg.record then r.spillCap - r.spilled.length else 256 - r.blocks.length

/-- RHL_STATUS (R404). -/
def execRhlStatus (ch : Fin 8) (s : State) : Host.Outcome State Fault Refusal :=
  .next (s.runCmd ch { op := 0x1A1, lenMin := 0, lenMax := 0, wing := 2 } fun s c =>
    let r := (s.wing c.wing).rhl
    let n : Nat := match r.st with
      | .replaying => r.consumed
      | .replayDone => r.consumed
      | .replayDiverged => r.consumed
      | _ => r.count
    .done s .ok ([wd (r.st.code + r.cause * 2 ^ 3 + b2n r.held * 2 ^ 11 + b2n r.targetReady * 2 ^ 12)] ++ toWords 2 r.logId
      ++ [wd n, wd r.room, wd r.lastCheck]))

/-- RHL_EXPORT (R405). -/
def execRhlExport (ch : Fin 8) (s : State) : Host.Outcome State Fault Refusal :=
  .next (s.runCmd ch { op := 0x1A2, lenMin := 2, lenMax := 2, wing := 2 } fun s c =>
    let r := (s.wing c.wing).rhl
    let off := wordsNat (wordsAt c.words 2 2)
    if s.vlt.lcCode ≠ 5 then failed s .lcRefused
    else if !r.held ∨ (r.st ≠ .off ∧ r.st ≠ .frozen) then failed s .rhlState
    else if off = 0 ∧ r.targetDid ≠ [] ∧ !r.targetReady then failed s .rhlState
    else
      let b := s.rhlBytes c.wing off 240
      .done s .ok (wd b.length :: bytesToWords b))

/-- Whether an image lies in a BYPASS region of a wing. -/
def State.inBypass (s : State) (w : Wing) (addr len : Nat) : Bool :=
  s.regions.any fun (r : Region) => r.st = .active ∧ r.d.mode = 0 ∧ r.d.owner = w ∧ r.d.base ≤ addr ∧ addr + len ≤ r.d.last + 1

/-- A wing takes a replayable state (R396, R408): its own regions, lanes' roles and settings, as the snapshot has them. -/
def State.loadSnap (s : State) (w : Wing) (x : Snap) : State :=
  let region (r : Fin 64) : Region :=
    let own := s.regions[r].st ≠ .notInstalled ∧ s.regions[r].d.owner ≠ w
    if own then s.regions[r] else ((x.regions.find? (·.1 = r.val)).map fun e => { e.2 with d := { e.2.d with owner := w } }).getD
      { s.regions[r] with st := .notInstalled }
  let lane (l : Fin 28) : LaneRec :=
    if laneWing l = w then { s.lanes[l] with st := (x.lanes[l.val % 14]?).getD s.lanes[l].st } else s.lanes[l]
  let s : State := { s with regions := Vector.ofFn region, lanes := Vector.ofFn lane }
  s.modWing w fun y => { y with
    sas := x.sas, trie := x.trie, box := x.box, ush := x.ush, mpe := x.mpe, classCfg := x.classCfg, grq := x.grq, prm := x.prm,
    meshEtype := x.meshEtype, unkeyedTtl := x.unkeyedTtl, saTimeout := x.saTimeout, regTimeout := x.regTimeout,
    evtRoute := x.evtRoute, wearCfg := x.wearCfg }

/-- The log key of an image, by its header (R405, R407): the unit's own where DID is its own, else the one unwrapped under KT,
which is formed from REC_PUB and the unit's transport private key. -/
def State.imageKey (s : State) (h : Bytes) : Option Bytes :=
  let did := (h.drop 16).take 16
  if did = didBytes then s.vlt.keys.rhlLog
  else match s.vlt.keys.trans with
    | some d =>
      let pub := (h.drop 84).take 96
      match (if ecOnCurve (ecPoint pub) then ecdh d (ecPoint pub) else none) with
      | some z =>
        let kt := (sha384 ([0, 0, 0, 1] ++ z ++ asciiBytes "RHLXPORT" ++ did ++ didBytes)).take 32
        kwUnwrap kt ((h.drop 196).take 40)
      | none => none
    | none => none

/-- Whether an image is a RECORD log of a wing that the running image served (R407). -/
def State.imageFits (s : State) (w : Wing) (h : Bytes) : Bool :=
  let w0 := leNat (h.take 4)
  bitOf w0 17 && decide (fld w0 16 16 = wingIx w) && decide ((h.drop 36).take 48 = padTo 48 (s.core (s.wing w).served).hash)

/-- The outputs of a wing's ports hold their reset values (R408). -/
def State.quietOutputs (s : State) (w : Wing) : State :=
  { s with
    ports := Vector.ofFn fun (p : Fin 64) => if portWing p = w then { s.ports[p] with lsOut := none, hsOut := none } else s.ports[p]
    rqps := Vector.ofFn fun (q : Fin 4) => if rqpWing q = w then { s.rqps[q] with dq := [] } else s.rqps[q] }

/-- RHL_REPLAY (R407). The image stands in external memory, which is not part of the block: its bytes are a free value, of which
everything that the rule checks and loads is computed. -/
def execRhlReplay (ch : Fin 8) (s : State) : Host.Outcome State Fault Refusal :=
  .next (s.runCmd ch { op := 0x1A3, lenMin := 4, lenMax := 4 } fun s c =>
    let w := wingOf (c.w 2)
    let addr := wordsNat (wordsAt c.words 3 2)
    let r := (s.wing w).rhl
    let b := (Config.image s.freeCtr).take (c.w 5)
    let h := padTo 256 b
    Res.need (c.clean 2 1 && c.clean 4 8 && decide (addr % 4096 = 0) && s.inBypass w addr (c.w 5)) s <| Res.reaching s c w
      (if s.vlt.lcCode ≠ 5 ∧ s.vlt.lcCode ≠ 1 then failed s .lcRefused
       else if s.wingOpen w ∨ r.busy then failed s .rhlState
       else match (if s.imageFits w h then s.imageKey h else none) with
         | none => failed s.takeFree .rhlState
         | some k => match Config.snapOf k b with
           | none => failed s.takeFree .rhlState
           | some x =>
             good (((s.takeFree.loadSnap w x).quietOutputs w).modRhl w fun r =>
               { r.lost with st := .replaying, cause := 0, logId := leNat ((h.drop 4).take 8), consumed := 0, lastCheck := 0,
                             playKey := k, playRt := 0, standIns := [] })))

/-- RHL_RESUME (R403): a RECORD log restarts only where R396 lets one start. -/
def execRhlResume (ch : Fin 8) (s : State) : Host.Outcome State Fault Refusal :=
  .next (s.runCmd ch { op := 0x1A4, lenMin := 0, lenMax := 0, wing := 1 } fun s c =>
    let r := (s.wing c.wing).rhl
    if r.st ≠ .frozen ∨ (r.cfg.record ∧ !s.recordOk c.wing) then failed s .rhlState
    else if !s.vlt.drbgOk then failed s .entropyFail
    else good (s.startRhl c.wing r.cfg))

end Sys2Proof.Machine
end

