-- ==== Sys2Proof/Machine/RhlEvents.lean ====
section
/-! DEFINITION. The events of Rehearsal: snapshots, spills and freezes (R396, R401, R402), replayed records (R408, R409). -/

namespace Sys2Proof.Machine

/-- RHL_SNAPSHOT_DONE (R396, R411): the snapshot's full blocks have all been written to the spill; an ALARM that was triggered
meanwhile then applies. -/
def execRhlSnapshotDone (w : Wing) (s : State) : Host.Outcome State Fault Refusal :=
  let r := (s.wing w).rhl
  if r.st ≠ .snapshot ∨ !r.full.isEmpty then .next s
  else
    let s := s.modRhl w fun r => { r with st := .record, afterSnap := none }
    .next (match r.afterSnap with
      | some bits => s.rhlFreeze w 1 bits
      | none => s)

/-- RHL_BLOCK_SPILL (R401): the oldest block of the ring has been written to the spill, or its write ended other than OK.
The access itself says which, so that what the row says of it is not read (assumption 46). -/
def execRhlBlockSpill (w : Wing) (_ok : Bool) (s : State) : Host.Outcome State Fault Refusal :=
  let r := (s.wing w).rhl
  match r.full with
  | [] => .next s
  | b :: rest =>
    if r.st ≠ .record ∧ r.st ≠ .snapshot then .next s
    else if r.spillCap ≤ r.spilled.length then .next (s.rhlFreeze w 2 0)
    else match s.spill with
      | none => .next s
      | some g =>
        let o := s.regions[g].d.owner
        let u := OwnUse.block w r.spilled.length
        match s.ownGot o u with
        | none => .next s
        | some (st, _) =>
          let s := s.ownTaken o u
          if st ≠ 0 then .next (s.rhlFreeze w 4 0)
          else .next (s.modRhl w fun r => { r with full := rest, spilled := r.spilled ++ [b] })

/-- RHL_POST_BLOCKS (R402). -/
def execRhlPostBlocks (w : Wing) (s : State) : Host.Outcome State Fault Refusal :=
  let r := (s.wing w).rhl
  .next (if (r.st = .trace ∨ r.st = .record) ∧ r.post = some 0 then s.rhlStop w 1 r.postBits else s)

/-- A replay diverges (R409). -/
def State.diverge (s : State) (w : Wing) (kind : Nat) : State :=
  s.modRhl w fun r => { r with st := .replayDiverged, cause := kind }

/-- A replayed input acts on the wing (R408): what it leaves of the replayable state, its counts and the Call Board events it
gives depend on the record, whose fields the manual does not place (assumption 37). -/
def State.replayInput (s : State) (w : Wing) (type : Nat) (clear sealed : Bytes) : State :=
  let s := (Config.replayed (s.snapshot w) type clear sealed).elim s fun x => s.loadSnap w x
  (Config.replayedEvents s.freeCtr).foldl (fun (s : State) e => s.log w e.1 e.2.1 e.2.2.1 e.2.2.2.1 e.2.2.2.2) s.takeFree

/-- Whether a record is one of an output of the wing: a frame on HS_O or LS_O, credits that the wing gave, a response on D, a line
written on a memory port, a token sent over the bridge (R398, R409). -/
def isOutput (type : Nat) (clear : Bytes) : Bool :=
  let b (i : Nat) : Nat := (clear.getD i 0).toNat
  if type = 0x02 then decide (2 ≤ b 1)
  else if type = 0x03 then decide (b 1 < 2)
  else if type = 0x06 then decide (b 1 % 2 = 1)
  else if type = 0x07 then decide (b 1 % 2 = 1)
  else if type = 0x0A then decide (b 0 % 2 = 1)
  else false

/-- A stand-in key, drawn from the CTR_DRBG, is bound to the key that a VAULT record names (R408). -/
def State.standIn (s : State) (w : Wing) (sealed : Bytes) : State :=
  let (k, s) := s.draw 32
  s.modRhl w fun r => { r with standIns := r.standIns ++ [(sealed.take 4, k)] }

/-- The unit that a FAULT record of a watchdog strike names (R349, R398). -/
def unitOf (name : Nat) : Option UnitId :=
  let ix := fld name 15 4
  let w := wingOf (fld name 16 16)
  match name % 16 with
  | 0 => some (.lane (Fin.ofNat 28 (wingIx w * 14 + ix)))
  | 1 => match bankOf ix with
    | some b => some (.trieBank w b.1 b.2)
    | none => some (.sramBank w ix)
  | 2 => some (.trieStage w ix)
  | 4 => some (.boxPath w)
  | 5 => some (.mpePath w)
  | 6 => some (.ushPath w)
  | 7 => some (.dispatcher w)
  | _ => none

/-- A record of the log reaches the wing (R408, R409). The RT of the replay moves on; a state digest is compared; an output and the
competitors of an arbiter are compared with those of the wing, which depend on what the manual does not place, so that a free
value says whether they agree (assumption 37); a strike is made again, a vault's answer binds a stand-in key, and every input
acts. -/
def State.replayRcd (s : State) (w : Wing) (type dt : Nat) (clear sealed : Bytes) : State :=
  let s := s.modRhl w fun r => { r with playRt := if type = 0x01 then leNat sealed else r.playRt + dt }
  let agree := decide (s.freeVal % 2 = 1)
  if type = 0x01 ∨ type = 0x10 ∨ type = 0x11 then s
  else if type = 0x0F then
    if s.stateDigest w (s.wing w).rhl.playKey = sealed.take 8 then s.modRhl w fun r => { r with lastCheck := leNat (clear.take 4) }
    else s.diverge w 1
  else if type = 0x0E then (if agree then s.takeFree else s.takeFree.diverge w 2)
  else if isOutput type clear then (if agree then s.takeFree else s.takeFree.diverge w 3)
  else
    let s := if type = 0x0C then s.standIn w sealed else s
    let s := if type = 0x0B ∧ (clear.getD 0 0).toNat = 1 then (unitOf (leNat (clear.drop 1))).elim s fun u => s.watchdog u 0 else s
    s.replayInput w type clear sealed

/-- Whether a block of an image is the next one and its TAG holds (R399, R400, R409). -/
def Rhl.blockOk (r : Rhl) (b : Bytes) : Bool :=
  let body := b.take 4080
  decide (leNat ((b.drop 12).take 4) = r.consumed)
    && decide ((b.drop 4080).take 16 = gcmTag (aesKeys r.playKey) (beNat (leBytes 8 r.logId ++ leBytes 4 r.consumed)) body [])

/-- RHL_REPLAY_RECORD (R408, R409). -/
def execRhlReplayRecord (w : Wing) (r : ReplayRec) (s : State) : Host.Outcome State Fault Refusal :=
  if (s.wing w).rhl.st ≠ .replaying then .next s
  else match r with
    | .rcd type dt clear sealed => .next (s.replayRcd w type dt clear sealed)
    | .block b => .next (if (s.wing w).rhl.blockOk b then s.modRhl w fun r => { r with consumed := r.consumed + 1 } else s.diverge w 4)
    | .last => .next (s.modRhl w fun r => { r with st := .replayDone })

end Sys2Proof.Machine
end

