-- ==== Sys2Proof/Machine/SaCmds.lean ====
section
/-! DEFINITION. The SA commands of the catalogue (R374): SA_INSTALL to SA_REMOVE. -/

namespace Sys2Proof.Machine

/-- The wings that hold a copy of an SA, as a state shows them. -/
def State.saCopies (s : State) (sai : Nat) : List (Wing × Sa) :=
  [Wing.sl, Wing.sr].filterMap fun w => (s.sa w sai).map fun x => (w, x)

/-- The SAs of a wing with PIN = 1 (R123). -/
def State.pinned (s : State) (w : Wing) : List Nat := (s.wing w).sas.filterMap fun e => if e.2.r.pin then some e.1 else none

/-- The SAs of a wing that effects staged on the other channels pin. -/
def State.pinsStaged (s : State) (ch : Fin 8) (w : Wing) : List Nat :=
  ((List.finRange 8).filter (· ≠ ch)).flatMap fun c => s.chans[c].staged.filterMap fun e =>
    if e.1 = w then (match e.2 with
      | .saInstall sai r _ => if r.pin then some sai else none
      | .saModify sai mask r _ => if bitOf mask 7 ∧ r.pin then some sai else none
      | _ => none) else none

/-- Whether an SA of a wing may be pinned by a command of a channel (R123): with those pinned as the channel sees them, and those that
others have staged to be, whatever the order in which they become visible, at most 4,096 are. -/
def State.pinRoom (s : State) (ch : Fin 8) (w : Wing) (sai : Nat) : Bool :=
  decide ((sai :: ((s.view ch).pinned w ++ s.pinsStaged ch w)).eraseDups.length ≤ 4096)

/-- Whether another SA, installed or staged on some channel, names a key (R120). -/
def State.keyNamed (s : State) (sai ref : Nat) : Bool :=
  ((s.sl.sas ++ s.sr.sas).any fun e => e.1 ≠ sai ∧ e.2.r.keyRef = ref)
    || s.chans.any fun c => c.staged.any fun e => match e.2 with
      | .saInstall sai' r _ => sai' ≠ sai ∧ r.keyRef = ref
      | _ => false

/-- The key check of an install (R120, R253, R254): the status it fails with. -/
def State.installKey (s : State) (w : Wing) (sai : Nat) (r : SaRec) : Option Status × State :=
  match kLoc r.keyRef with
  | some (.sess j) =>
    let (k, s) := s.readKey w (.sess j)
    match k with
    | none => (some .saInvalid, s)
    | some k =>
      if !saSuiteOk r k.attr ∨ s.keyNamed sai r.keyRef then (some .saInvalid, s)
      else if !k.allows .stream s.vlt.lcCode none then (some .keyRefused, s)
      else if k.ended s.rt then (some .keySpent, s.spend w (.sess j))
      else (none, s)
  | _ => (some .saInvalid, s)

/-- SA_INSTALL (R119, R120, R122, R123), staged. -/
def execSaInstall (ch : Fin 8) (s : State) : Host.Outcome State Fault Refusal :=
  .next (s.runCmd ch { op := 0x040, lenMin := 33, lenMax := 33 } fun s c =>
    let sai := c.w 2
    let ws := wordsAt c.words 3 32
    let (r, pn) := SaRec.ofWords ws
    let v := s.view c.ch
    Res.need (c.clean 2 20) s
      (if !(saClean ws && saRecOk sai r pn) then failed s .saInvalid
       else if r.wings.any fun w => !s.reach s.chans[c.ch].mapWing w then failed s .wingUnreachable
       else if (v.saCopies sai).any fun x => x.2.st = .closing then failed s .unitClosing
       else if !(v.saCopies sai).isEmpty then failed s .alreadyExists
       else if r.wings.any fun w => (s.wing w).store.isNone then failed s .storeAbsent
       else if r.pin ∧ r.wings.any fun w => !s.pinRoom c.ch w sai then failed s .pinFull
       else Res.keyBack s c (.sess (fld r.keyRef 19 0))
         (match s.installKey s.chans[c.ch].mapWing sai r with
          | (some st, s') => failed s' st
          | (none, s') => good (s'.stage c.ch r.wings (.saInstall sai r pn)))))

/-- Whether a change that SA_MODIFY names is within R119 and R121 for one copy. -/
def Sa.modifyOk (x : Sa) (sai mask : Nat) (r : SaRec) (pn : Nat) : Bool :=
  let y := x.modify mask r pn
  r.inRange pn && saRecOk sai y.r (if y.r.inb then 0 else 1) && (!bitOf mask 8 || (x.r.inb && decide (x.pn ≤ pn ∧ pn ≤ x.r.lastPn)))

/-- SA_MODIFY (R121), staged. -/
def execSaModify (ch : Fin 8) (s : State) : Host.Outcome State Fault Refusal :=
  .next (s.runCmd ch { op := 0x041, lenMin := 34, lenMax := 34 } fun s c =>
    let sai := c.w 2
    let mask := c.w 3
    let ws := wordsAt c.words 4 32
    let (r, pn) := SaRec.ofWords ws
    let v := s.view c.ch
    let xs := v.saCopies sai
    Res.need (c.clean 2 20 && c.clean 3 9) s
      (if xs.isEmpty then failed s .notFound
       else if xs.any fun x => !s.reach s.chans[c.ch].mapWing x.1 then failed s .wingUnreachable
       else if !saClean ws ∨ xs.any fun x => !x.2.modifyOk sai mask r pn then failed s .saInvalid
       else if xs.any fun x => bitOf mask 7 ∧ r.pin ∧ !s.pinRoom c.ch x.1 sai then failed s .pinFull
       else good (s.stage c.ch (xs.map (·.1)) (.saModify sai mask r pn))))

/-- SA_READ (R119): the serving wing's copy where it holds one. -/
def execSaRead (ch : Fin 8) (s : State) : Host.Outcome State Fault Refusal :=
  .next (s.runCmd ch { op := 0x042, lenMin := 1, lenMax := 1 } fun s c =>
    let sai := c.w 2
    let v := s.view c.ch
    let xs := v.saCopies sai
    Res.need (c.clean 2 20) s
      (if xs.any fun x => !s.reach s.chans[c.ch].mapWing x.1 then failed s .wingUnreachable
       else match (xs.find? fun x => x.1 = s.chans[c.ch].mapWing).orElse fun _ => xs.head? with
         | some (w, x) => .done (s.needSa w sai) .ok (x.words (s.bad (.sa w sai)))
         | none => failed s .notFound))

/-- Carrying a command out on every copy of an installed SA. -/
def State.onSa (s : State) (c : Ctx) (f : List (Wing × Sa) → Res) : Res :=
  let xs := s.saCopies (c.w 2)
  Res.need (c.clean 2 20) s
    (if xs.isEmpty then failed s .notFound
     else if xs.any fun x => !s.reach s.chans[c.ch].mapWing x.1 then failed s .wingUnreachable
     else f xs)

/-- SA_SWITCH (R138, R139, R149). An SA that has switched already stays as it is; an inbound one has no next SA. -/
def execSaSwitch (ch : Fin 8) (s : State) : Host.Outcome State Fault Refusal :=
  .next (s.runCmd ch { op := 0x043, lenMin := 1, lenMax := 1 } fun s c =>
    let sai := c.w 2
    s.onSa c fun xs =>
      if xs.all fun x => x.2.switched then good s
      else if xs.any fun x => x.2.st ≠ .active then failed s .unitClosing
      else if xs.any fun x => x.2.r.inb ∨ !x.2.r.nextValid ∨ !s.nextOk x.1 x.2.r.nextSai none then failed s .nextAbsent
      else good (xs.foldl (fun s x => s.switchSa x.1 sai x.2.r.nextSai) s))

/-- SA_CLOSE (R144): answered once every copy has reported CLOSED. -/
def execSaClose (ch : Fin 8) (s : State) : Host.Outcome State Fault Refusal :=
  .next (s.runCmd ch { op := 0x044, lenMin := 1, lenMax := 1, close := true } fun s c =>
    let sai := c.w 2
    s.onSa c fun xs =>
      if xs.all fun x => x.2.st = .closed then good s
      else if c.force then good (xs.foldl (fun s x => s.forceSa x.1 sai) s)
      else .wait (xs.foldl (fun s x => s.startSaClose x.1 sai) s) (.sa sai))

/-- SA_REMOVE (R139). -/
def execSaRemove (ch : Fin 8) (s : State) : Host.Outcome State Fault Refusal :=
  .next (s.runCmd ch { op := 0x045, lenMin := 1, lenMax := 1 } fun s c =>
    let sai := c.w 2
    s.onSa c fun xs =>
      if xs.any fun x => x.2.st ≠ .closed then failed s .unitClosing
      else good (xs.foldl (fun s x => (s.modWing x.1 fun y => { y with sas := tdel y.sas sai }).fix (.sa x.1 sai)) s))

end Sys2Proof.Machine
end

