-- ==== Sys2Proof/Machine/SystemCmds.lean ====
section
/-! DEFINITION. The system and diagnostic commands of the catalogue (R374): NOP to EVT_ROUTE, STATS_READ, DIAG_ECHO,
DIAG_MARK. -/

namespace Sys2Proof.Machine

/-- NOP (R374). -/
def execNop (ch : Fin 8) (s : State) : Host.Outcome State Fault Refusal :=
  .next (s.runCmd ch { op := 0x000, lenMin := 0, lenMax := 0 } fun s _ => good s)

/-- CURTAIN (R372). -/
def execCurtain (ch : Fin 8) (s : State) : Host.Outcome State Fault Refusal :=
  .next (s.runCmd ch { op := 0x001, lenMin := 0, lenMax := 0 } fun s c => good (s.curtain c.ch))

/-- The words of INFO: the boot ROM reports Script level 0 and Stambe version 3 (R285). -/
def State.infoWords (s : State) : List Word :=
  let (lvl, st) := if s.boot.phase = .ready then (s.boot.scriptLevel, s.boot.stambe) else (0, 3)
  [wd (lvl + st * 2 ^ 16)] ++ bytesToWords didBytes ++ [wd s.vlt.ctx, wd (s.sl.link.code + s.sr.link.code * 4)]

/-- INFO (R374). -/
def execInfo (ch : Fin 8) (s : State) : Host.Outcome State Fault Refusal :=
  .next (s.runCmd ch { op := 0x002, lenMin := 0, lenMax := 0 } fun s _ => .done s .ok s.infoWords)

/-- CHAN_OWN (R368): on MBX0 alone; the change applies from the moment its response is written. -/
def execChanOwn (ch : Fin 8) (s : State) : Host.Outcome State Fault Refusal :=
  .next (s.runCmd ch { op := 0x003, lenMin := 1, lenMax := 1 } fun s c =>
    if c.ch ≠ 0 then failed s .notPermitted
    else
      let x := c.w 2
      let n : Fin 8 := Fin.ofNat 8 (fld x 2 0)
      Res.need (c.clean 2 8) s
        (if s.chans[n].locked then failed s .chanLocked
         else good (s.modHead c.ch fun p => { p with own := some (n, fld x 6 3, bitOf x 7) })))

/-- CHAN_LOCK (R368). -/
def execChanLock (ch : Fin 8) (s : State) : Host.Outcome State Fault Refusal :=
  .next (s.runCmd ch { op := 0x004, lenMin := 1, lenMax := 1 } fun s c =>
    if c.ch ≠ 0 then failed s .notPermitted
    else Res.need (c.clean 2 8) s
      (good ((List.finRange 8).foldl (fun s n =>
        if bitOf (c.w 2) n.val then s.modChan n fun x => { x with locked := true } else s) s)))

/-- A channel is to be served by a wing once the commands already accepted on it have completed (R328). -/
def State.remap (s : State) (n : Fin 8) (w : Wing) : State :=
  s.modChan n fun c =>
    if c.mapWing = w then { c with mapNext := none }
    else if c.head.isNone then { c with mapWing := w, served := (s.wing w).served, mapNext := none }
    else { c with mapNext := some w }

/-- CHAN_MAP (R328): only while both wings are JOINED (R336). -/
def execChanMap (ch : Fin 8) (s : State) : Host.Outcome State Fault Refusal :=
  .next (s.runCmd ch { op := 0x005, lenMin := 1, lenMax := 1 } fun s c =>
    Res.need (c.clean 2 8) s
      (if s.sl.link ≠ .joined ∨ s.sr.link ≠ .joined then failed s .wingUnreachable
       else good ((List.finRange 8).foldl (fun s n => s.remap n (if bitOf (c.w 2) n.val then .sr else .sl)) s)))

/-- The channels that an EVT_ROUTE word names, nibble k for cause k. -/
def routeOf (x : Nat) : Vector (Option (Fin 8)) 5 :=
  Vector.ofFn fun (k : Fin 5) => if bitOf x (4 * k.val + 3) then some (Fin.ofNat 8 (fld x (4 * k.val + 2) (4 * k.val))) else none

/-- EVT_ROUTE (R373). -/
def execEvtRoute (ch : Fin 8) (s : State) : Host.Outcome State Fault Refusal :=
  .next (s.runCmd ch { op := 0x006, lenMin := 1, lenMax := 1, wing := 1 } fun s c =>
    Res.need (c.clean 2 20) s
      (good (s.modWing c.wing fun x => { x with evtRoute := routeOf (c.w 2) })))

/-- Counts in pairs of words, low word first (R375). -/
def countWords {n : Nat} (v : Vector Nat n) : List Word := v.toList.flatMap fun x => [wd x, wd (x / 2 ^ 32)]

/-- The wing whose copy of an SA a command reads: the serving wing's where it holds one. -/
def State.saWing (s : State) (serving : Wing) (sai : Nat) : Option Wing :=
  if (s.sa serving sai).isSome then some serving
  else if (s.sa (otherWing serving) sai).isSome then some (otherWing serving)
  else none

/-- The counts that STATS_READ returns: the wing that keeps them and their words. -/
def State.stats (s : State) (serving : Wing) (kind ix : Nat) : Option (Wing × List Word) :=
  match kind with
  | 0 => if h : ix < 64 then some (portWing ⟨ix, h⟩, countWords s.ports[(⟨ix, h⟩ : Fin 64)].cnt) else none
  | 1 => match s.saWing serving ix with
    | some w => (s.sa w ix).map fun x => (w, countWords x.cnt)
    | none => none
  | 2 => if ix < 8 ∧ ix % 4 < 3 then
      let g := (s.wing (wingOf (ix / 4))).grq
      some (wingOf (ix / 4), countWords #v[g.full[Fin.ofNat 3 (ix % 4)], g.timedOut[Fin.ofNat 3 (ix % 4)]])
    else none
  | 3 => if h : ix < 64 then
      let x := s.regions[(⟨ix, h⟩ : Fin 64)]
      if x.st = .notInstalled then none else some (x.d.owner, countWords x.cnt)
    else none
  | 4 => if h : ix < 4 then some (rqpWing ⟨ix, h⟩, countWords s.rqps[(⟨ix, h⟩ : Fin 4)].cnt) else none
  | _ => if ix < 2 then some (wingOf ix, countWords (s.wing (wingOf ix)).cnt) else none

/-- STATS_READ (R375). -/
def execStatsRead (ch : Fin 8) (s : State) : Host.Outcome State Fault Refusal :=
  .next (s.runCmd ch { op := 0x008, lenMin := 2, lenMax := 2 } fun s c =>
    Res.need (c.clean 2 3 && decide (c.w 2 ≤ 5)) s
      (match s.stats s.chans[c.ch].mapWing (c.w 2) (c.w 3) with
       | some (w, ws) => Res.reaching s c w (.done s .ok ws)
       | none => failed s .notFound))

/-- DIAG_ECHO (R374). -/
def execDiagEcho (ch : Fin 8) (s : State) : Host.Outcome State Fault Refusal :=
  .next (s.runCmd ch { op := 0x1E0, lenMin := 0, lenMax := 62 } fun s c =>
    .done s .ok (wordsAt c.words 2 (fld (c.w 0) 21 16)))

/-- DIAG_MARK (R374): a HOST_MARK event. -/
def execDiagMark (ch : Fin 8) (s : State) : Host.Outcome State Fault Refusal :=
  .next (s.runCmd ch { op := 0x1E1, lenMin := 3, lenMax := 3, wing := 1 } fun s c =>
    good (s.log c.wing .hostMark 0 (c.w 2) (c.w 3) (c.w 4)))

end Sys2Proof.Machine
end

