-- ==== Sys2Proof/Machine/TapCmds.lean ====
section
/-! DEFINITION. The test access port (R78): BYPASS, IDCODE, SAMPLE/PRELOAD, EXTEST and Faneam's private instructions, each as
one scan. Registers and their shifting are those of IEEE 1149.1 (assumption 9). A scan has no effect while the VDDC domain
takes no inputs (R81) or TRST_N is asserted (R48, R78). -/

namespace Sys2Proof.Machine

/-- A scan of a register: the bits that leave on TDO, the register's first bit first, and the register afterwards. -/
def scan (reg tdi : List Bool) : List Bool × List Bool := ((reg ++ tdi).take tdi.length, (reg ++ tdi).drop tdi.length)

/-- A scan of the bypass register, which captures 0. -/
def Tap.scanBypass (t : Tap) (ir : Nat) (tdi : List Bool) : Tap :=
  let r := scan [false] tdi
  { t with ir := ir, bypass := r.2.headD false, drive := false, tdo := r.1 }

/-- The identification register (R383). -/
def idCode : Word := 0x1A71C54B

/-- Bits of a word, bit 0 first. -/
def wordBits (w : Word) : List Bool := (List.range 32).map fun i => w.getLsbD i

/-- Bits as a word, bit 0 first. -/
def bitsWord (l : List Bool) : Word := wd ((l.take 32).foldr (fun b n => 2 * n + b2n b) 0)

/-- A scan of the identification register, which captures the device code. -/
def Tap.scanId (t : Tap) (tdi : List Bool) : Tap :=
  let r := scan (wordBits idCode) tdi
  { t with ir := 1, idreg := bitsWord r.2, drive := false, tdo := r.1 }

/-- A scan of the boundary register, which captures the pins; under EXTEST it then drives them. -/
def Tap.scanCells (t : Tap) (ir : Nat) (drive : Bool) (pins tdi : List Bool) : Tap :=
  let r := scan pins tdi
  { t with ir := ir, cells := r.2, drive := drive, tdo := r.1 }

/-- A scan, where the port takes its inputs. -/
def State.tapScan (s : State) (f : Tap → Tap) : State :=
  if s.cpUp ∧ !s.pwr.trst then { s with tap := f s.tap } else s

/-- BYPASS (R78). -/
def execTapBypass (tdi : List Bool) (s : State) : Host.Outcome State Fault Refusal :=
  .next (s.tapScan fun t => t.scanBypass 0 tdi)

/-- IDCODE (R78). -/
def execTapIdcode (tdi : List Bool) (s : State) : Host.Outcome State Fault Refusal :=
  .next (s.tapScan fun t => t.scanId tdi)

/-- SAMPLE/PRELOAD (R78). -/
def execTapSample (pins tdi : List Bool) (s : State) : Host.Outcome State Fault Refusal :=
  .next (s.tapScan fun t => t.scanCells 2 false pins tdi)

/-- EXTEST (R78). -/
def execTapExtest (pins tdi : List Bool) (s : State) : Host.Outcome State Fault Refusal :=
  .next (s.tapScan fun t => t.scanCells 3 true pins tdi)

/-- TEST_ACCESS (R78): outside BLANK it acts as BYPASS, and the attempt is written to both Call Boards with its instruction
code. What a private instruction does in BLANK the manual does not say. -/
def execTapTestAccess (code : Word) (tdi : List Bool) (s : State) : Host.Outcome State Fault Refusal :=
  if !s.cpUp ∨ s.pwr.trst then .next s
  else if s.vlt.lcCode = 1 then .refused .privateTest
  else .next ((s.logBoth .testAccess 0 code.toNat 0 0).tapScan fun t => t.scanBypass 4 tdi)

end Sys2Proof.Machine
end

