-- ==== Sys2Proof/Machine/TimeCmds.lean ====
section
/-! DEFINITION. The time commands of the catalogue (R374): PRM_CFG to TOUT_GET, TS_EXPORT_READ. -/

namespace Sys2Proof.Machine

/-- The code of a Prompt state (R308). -/
def PrmState.code : PrmState → Nat
  | .unset => 0
  | .locked => 1
  | .holdover => 2

/-- PRM_CFG (R309), staged. -/
def execPrmCfg (ch : Fin 8) (s : State) : Host.Outcome State Fault Refusal :=
  .next (s.runCmd ch { op := 0x160, lenMin := 4, lenMax := 4, wing := 1 } fun s c =>
    Res.need (prmCfgOk c.words 2) s (good (s.stage c.ch [c.wing] (.prmCfg c.wing (PrmCfg.ofWords c.words 2)))))

/-- PRM_STATUS: the last offset where it fits its word, else a free value. -/
def execPrmStatus (ch : Fin 8) (s : State) : Host.Outcome State Fault Refusal :=
  .next (s.runCmd ch { op := 0x161, lenMin := 0, lenMax := 0, wing := 2 } fun s c =>
    let p := (s.wing c.wing).prm
    let fits := decide (-2 ^ 31 ≤ p.theta ∧ p.theta < 2 ^ 31)
    .done (if fits then s else s.takeFree) .ok
      ([wd (p.st.code + b2n p.holdFlag * 4)] ++ tsWords (s.now c.wing)
        ++ [wd (ofSigned 32 p.f), if fits then wd (ofSigned 32 p.theta) else wd s.freeVal]))

/-- The mode of a PRM_STEP request: 0 AT_PPS, 1 SET_OFFSET. -/
def Place.stepMode (p : Place) : Nat := fld (wordAt p.words 2) 0 0

/-- AT_PPS (R313): armed when it is answered. -/
def execPrmAtPps (ch : Fin 8) (s : State) : Host.Outcome State Fault Refusal :=
  .next (s.runSel ch { op := 0x162, lenMin := 4, lenMax := 4, wing := 1 } (fun p => p.stepMode = 0) fun s c =>
    Res.need (c.clean 2 1 && c.clean 5 16) s
      (if (s.wing c.wing).prm.st = .unset then failed s .prmUnset
       else good (s.modPrm c.wing fun p => { p with armed := p.armed + 1 })))

/-- SET_OFFSET (R313), staged. -/
def execPrmSetOffset (ch : Fin 8) (s : State) : Host.Outcome State Fault Refusal :=
  .next (s.runSel ch { op := 0x162, lenMin := 4, lenMax := 4, wing := 1 } (fun p => p.stepMode = 1) fun s c =>
    Res.need (c.clean 2 1 && c.clean 5 16) s
      (if (s.wing c.wing).prm.st = .unset then failed s .prmUnset
       else good (s.stage c.ch [c.wing] (.setOffset c.wing (toSigned 64 (wordsNat (wordsAt c.words 3 2))) (c.w 5)))))

/-- TOUT_SET (R323), staged: the epoch is checked as it will be when the command becomes visible. -/
def execToutSet (ch : Fin 8) (s : State) : Host.Outcome State Fault Refusal :=
  .next (s.runCmd ch { op := 0x163, lenMin := 8, lenMax := 8, wing := 2 } fun s c =>
    let (o, t) := cueOfWords c.words 2
    match (if cueClean c.words 2 then (s.view c.ch).cueStatus c.wing o t else .toutInvalid) with
    | .ok => good (s.stage c.ch [c.wing] (.cue o t))
    | st => failed s st)

/-- TOUT_GET (R323): a cue of the wing addressed. -/
def execToutGet (ch : Fin 8) (s : State) : Host.Outcome State Fault Refusal :=
  .next (s.runCmd ch { op := 0x164, lenMin := 1, lenMax := 1, wing := 2 } fun s c =>
    let o : Fin 16 := Fin.ofNat 16 (c.w 2)
    Res.need (c.clean 2 4) s
      (if cueWing o = c.wing then .done s .ok ((s.view c.ch).cues[o].words o) else failed s .notFound))

/-- TS_EXPORT_READ (R320): up to five records, which leave the queue. -/
def execTsExportRead (ch : Fin 8) (s : State) : Host.Outcome State Fault Refusal :=
  .next (s.runCmd ch { op := 0x166, lenMin := 0, lenMax := 0, wing := 2 } fun s c =>
    let rs := (s.wing c.wing).tsq.take 5
    .done (s.modWing c.wing fun x => { x with tsq := x.tsq.drop 5 }) .ok (wd rs.length :: rs.flatMap TsRec.words))

end Sys2Proof.Machine
end

