-- ==== Sys2Proof/Machine/TimeEvents.lean ====
section
/-! DEFINITION. The events of time: TOD_x_PPS edges and the discipline (R73, R310, R311), holdover (R312), cues (R324). -/

namespace Sys2Proof.Machine

/-- The clamp of F and R (R311), in units of 10^-12. -/
def clampRate (x : Int) : Int := clampInt (-500000000) 500000000 x

/-- The discipline of a used edge at which the time of day is `tod` (R311): F stays at the first edge after acquisition, relock
or a step, and where it relocks. -/
def State.discipline (s : State) (w : Wing) (tod : Nat) (keepF : Bool) : State :=
  let p := (s.wing w).prm
  let th : Int := (tod : Int) - (p.t : Int)
  let t : Int := max 1 ((p.t : Int) - p.usedT.getD p.t)
  let f := if keepF then p.f else clampRate (p.f + th * 1000000000000 / (8 * t))
  let r := clampRate (f + th * 1000000000000 / (2 * t))
  let ns : Int := th / 2 ^ 32
  let s := s.modPrm w fun p => { p with f := f, r := r, theta := ns, usedT := some p.t, skipF := false }
  if (p.cfg.alarmNs * 2 ^ 32 : Int) < th.natAbs ∧ p.largeRt.all fun x => x + 1000000000 ≤ s.rt then
    (s.log w .prmOffsetLarge 0 0 (ofSigned 64 ns % 2 ^ 32) (ofSigned 64 ns / 2 ^ 32)).modPrm w fun p =>
      { p with largeRt := some s.rt }
  else s

/-- The steps armed for a used edge, one for each AT_PPS answered since the last (R313, R325). -/
def State.stepArmed (s : State) (w : Wing) (tod : Nat) : State :=
  let s := (List.range (s.wing w).prm.armed).foldl (fun s _ => s.stepPrompt w tod) s
  s.modPrm w fun p => { p with armed := 0, usedT := some tod }

/-- A used edge (R310 to R313). An acquisition is retained with RT as a declared step is, so that Prompt never steps back within
one epoch (R13; DEDUCED, assumption 35). -/
def State.usedEdge (s : State) (w : Wing) (tod : Nat) : State :=
  let p := (s.wing w).prm
  let s := s.modPrm w fun p => { p with usedRt := s.rt }
  match p.st with
  | .unset =>
    let s := s.modPrm w fun p =>
      { p with st := .locked, t := tod, epoch := (p.epoch + 1) % 2 ^ 16, f := 0, r := 0, usedT := some tod, skipF := true,
               clkLost := false }
    (s.copyRt.log w .prmAcquired 0 0 0 0).dropOldEpoch w
  | .locked =>
    if p.armed ≠ 0 then s.stepArmed w tod else s.discipline w tod p.skipF
  | .holdover =>
    let s := s.modPrm w fun p => { p with st := .locked, holdFlag := false, clkLost := false, r := p.f }
    let s := s.log w .prmRelocked 0 0 0 0
    if p.armed ≠ 0 then s.stepArmed w tod
    else (s.discipline w tod true).modPrm w fun p => { p with skipF := true }

/-- Whether a wing's Prompt runs: from start-up on (R308). -/
def State.timeRuns (s : State) (w : Wing) : Bool := s.cpUp && !(s.wing w).failed && decide ((s.wing w).rhl.st ≠ .replaying)

/-- Whether it takes its time-of-day inputs: they are out of reset (R48, R71). -/
def State.todRuns (s : State) (w : Wing) : Bool := s.timeRuns w && !s.pwr.todRst w

/-- Whether an edge of TOD_x_PPS comes less than 1 ms after the last, on TOD_x_CLK (R73, R326); on RT while its frequency is not
set (DESIGN CHOICE, assumption 35). -/
def Prompt.early (p : Prompt) (rt : Nat) : Bool :=
  p.ppsRt.any fun x => if p.cfg.clkHz = 0 then decide (rt < x + 1000000) else decide (p.edges * 1000 < p.cfg.clkHz)

/-- TOD_PPS (R73, R310): an edge that comes too early, or without a valid and stable time, is ignored and counted. -/
def execTodPps (w : Wing) (t : TodIn) (s : State) : Host.Outcome State Fault Refusal :=
  if !s.todRuns w then .next s
  else
    let p := (s.wing w).prm
    let s := s.modPrm w fun p => { p with ppsRt := some s.rt, edges := 0 }
    if p.early s.rt ∨ !t.valid ∨ !t.stable then .next (s.countWing w .ppsIgnored)
    else
      let s := s.rhlRec w 0x09 (leBytes 1 (1 + b2n t.lock * 2)) (leBytes 6 t.sec.toNat ++ leBytes 4 t.ns.toNat) 4
      if !t.lock ∧ p.cfg.useLock then .next (s.countWing w .todUnlockedEdge)
      else if p.cfg.clkHz = 0 then .next s
      else .next (s.usedEdge w ((t.sec.toNat * 1000000000 + t.ns.toNat) * 2 ^ 32))

/-- A LOCKED Prompt enters HOLDOVER (R312). -/
def State.holdover (s : State) (w : Wing) : State :=
  if (s.wing w).prm.st = .locked then
    (s.modPrm w fun p => { p with st := .holdover, holdFlag := true }).log w .prmHoldover 0 0 0 0
  else s

/-- TOD_LOCK (R312): TOD_x_LOCK falls. -/
def execTodLock (w : Wing) (s : State) : Host.Outcome State Fault Refusal :=
  .next (if s.todRuns w ∧ (s.wing w).prm.cfg.useLock then s.holdover w else s)

/-- PRM_HOLDOVER (R312). -/
def execPrmHoldover (w : Wing) (s : State) : Host.Outcome State Fault Refusal :=
  let p := (s.wing w).prm
  .next (if s.timeRuns w ∧ p.usedRt + p.cfg.holdoverMs * 1000000 ≤ s.rt then s.holdover w else s)

/-- PRM_CLOCK_LOST (R312): TOD_x_CLK has made no edge for 10 µs; the last ratio measured holds from here on. -/
def execPrmClockLost (w : Wing) (s : State) : Host.Outcome State Fault Refusal :=
  let p := (s.wing w).prm
  if !s.timeRuns w ∨ p.st = .unset ∨ p.clkLost ∨ s.rt < p.edgeRt + 10000 then .next s
  else .next (((s.holdover w).modPrm w fun p =>
    { p with clkLost := true, ratio := Config.todRatio (decide (w = .sr)) s.rt }).log w .prmClockLost 0 0 0 0)

/-- CUE_FIRE (R324): a pulse in progress is completed first. -/
def execCueFire (c : Fin 16) (s : State) : Host.Outcome State Fault Refusal :=
  let x := s.cues[c]
  let w := cueWing c
  .next (if s.timeRuns w ∧ x.mode ≠ 0 ∧ x.pulse.isNone ∧ x.next.any fun n => n ≤ (s.wing w).prm.t then s.fireCue c else s)

/-- CUE_PULSE_END (R324). -/
def execCuePulseEnd (c : Fin 16) (s : State) : Host.Outcome State Fault Refusal :=
  .next (if s.timeRuns (cueWing c) ∧ s.cues[c].pulse.any fun t => t ≤ s.rt then s.modCue c fun x => { x with pulse := none }
    else s)

end Sys2Proof.Machine
end

