-- ==== Sys2Proof/Machine/UshCmds.lean ====
section
/-! DEFINITION. The Usher commands of the catalogue (R374), USH_RULE to USH_DISCARD, and the events that follow a commit
(R229, R230) and a refusal (R233). -/

namespace Sys2Proof.Machine

/-- Whether a wing's Usher is in a commit: what is staged meanwhile waits for its report (R231, R372). -/
def State.ushBusy (s : State) : Bool := s.sl.ush.hold.isSome || s.sr.ush.hold.isSome

/-- Changing a wing's Usher. -/
def State.modUsh (s : State) (w : Wing) (f : Usher → Usher) : State := s.modWing w fun x => { x with ush := f x.ush }

/-- A command that writes a staging bank. -/
def State.stageUsh (s : State) (ch : Fin 8) (o : OpSpec) (body : State → Ctx → Res) : State :=
  if s.ushBusy then s else s.runCmd ch o body

/-! ## Staging -/

/-- USH_RULE (R219, R220). -/
def execUshRule (ch : Fin 8) (s : State) : Host.Outcome State Fault Refusal :=
  .next (s.stageUsh ch { op := 0x100, lenMin := 6, lenMax := 6, wing := 1 } fun s c =>
    if uruleOk c.words 2 then
      let ix := fld (c.w 2) 6 0
      good ((s.modUsh c.wing fun u => { u with stRules := tput u.stRules ix (URule.ofWords c.words 2) }).fix
        (.rule c.wing (!(s.wing c.wing).ush.bank) ix))
    else failed s .ushRuleInvalid)

/-- USH_DEFAULT (R221). -/
def execUshDefault (ch : Fin 8) (s : State) : Host.Outcome State Fault Refusal :=
  .next (s.stageUsh ch { op := 0x101, lenMin := 5, lenMax := 5, wing := 1 } fun s c =>
    if udefOk c.words 2 then
      let ix := fld (c.w 2) 2 0
      good ((s.modUsh c.wing fun u => { u with stDefs := tput u.stDefs ix (udefOfWords c.words 2) }).fix
        (.dflt c.wing (!(s.wing c.wing).ush.bank) ix))
    else failed s .ushRuleInvalid)

/-- The four entries of an MG_MAP word, from the master ID of its first (R216). -/
def mgEntries (first x : Nat) : List (Nat × MgEnt) :=
  (List.range 4).map fun k => (first + k, MgEnt.ofByte (fld x (8 * k + 7) (8 * k)))

/-- USH_MGMAP (R216). -/
def execUshMgmap (ch : Fin 8) (s : State) : Host.Outcome State Fault Refusal :=
  .next (s.stageUsh ch { op := 0x102, lenMin := 2, lenMax := 61, wing := 1 } fun s c =>
    let first := fld (c.w 2) 5 0
    let n := fld (c.w 2) 13 8
    let ws := wordsAt c.words 3 n
    Res.need (decide (fld (c.w 2) 7 6 = 0 ∧ fld (c.w 2) 31 14 = 0 ∧ 1 ≤ n ∧ n ≤ 60 ∧ first + n ≤ 64
        ∧ fld (c.w 0) 21 16 = n + 1) && ws.all fun x => x &&& 0x80808080 = 0) s
      (good ((List.range n).foldl (fun s k =>
        let s := s.modUsh c.wing fun u => { u with stMg := overlay u.stMg (mgEntries (4 * (first + k)) (wordAt ws k)) }
        (List.range 4).foldl (fun s j => s.fix (.mg c.wing (!(s.wing c.wing).ush.bank) (4 * (first + k) + j))) s) s)))

/-- USH_MODE (R227): 0 service mode, 1 dress mode. -/
def execUshMode (ch : Fin 8) (s : State) : Host.Outcome State Fault Refusal :=
  .next (s.stageUsh ch { op := 0x103, lenMin := 1, lenMax := 1, wing := 1 } fun s c =>
    Res.need (c.clean 2 1) s (good (s.modUsh c.wing fun u => { u with stMode := some (!bitOf (c.w 2) 0) })))

/-- USH_DISCARD (R228). -/
def execUshDiscard (ch : Fin 8) (s : State) : Host.Outcome State Fault Refusal :=
  .next (s.stageUsh ch { op := 0x106, lenMin := 0, lenMax := 0, wing := 1 } fun s c => good (s.modUsh c.wing Usher.discard))

/-! ## Reading -/

/-- The words of a rule, a default entry, an MG_MAP word or the mode, of the set in force or of the staging bank (R228). -/
def State.ushWords (s : State) (w : Wing) (kind : Nat) (staging : Bool) (ix : Nat) : List Word :=
  let u := (s.wing w).ush
  let x := if staging then u.staged else u.force
  match kind with
  | 0 => ((tget x.rules ix).getD {}).words ix (s.bad (.rule w (u.bank != (staging && (tget u.stRules ix).isSome)) ix))
  | 1 => udefWords ((tget x.defs ix).getD {}) ix (s.bad (.dflt w (u.bank != (staging && (tget u.stDefs ix).isSome)) ix))
  | 2 => [wd ((List.range 4).foldl (fun a k => a + (x.master (4 * ix + k)).byte * 2 ^ (8 * k)) 0)]
  | _ => [wd (b2n (!x.service) + u.gen * 2 ^ 16)]

/-- USH_READ (R228). -/
def execUshRead (ch : Fin 8) (s : State) : Host.Outcome State Fault Refusal :=
  .next (s.runCmd ch { op := 0x105, lenMin := 1, lenMax := 1, wing := 2 } fun s c =>
    let kind := fld (c.w 2) 1 0
    let ix := fld (c.w 2) 9 3
    Res.need (c.clean 2 10 && decide ((kind = 1 → ix < 8) ∧ (kind = 2 → ix < 64))) s
      (.done s .ok (s.ushWords c.wing kind (bitOf (c.w 2) 2) ix)))

/-! ## Commits (R228 to R231) -/

/-- The generations that USH_COMMIT returns. -/
def State.gens (s : State) : List Word := [wd (s.sl.ush.gen + s.sr.ush.gen * 2 ^ 16)]

/-- A commit of a wing: it waits for one in progress, fails its checks (R227), which read no rule that fails parity (R36, R234), or
begins to hold. -/
def State.ushStart (s : State) (w : Wing) (ch : Fin 8) (both : Bool) : Res :=
  let u := (s.wing w).ush
  if u.hold.isSome then .wait s (.ushCommit w both)
  else if !u.staged.service ∧ u.force.service ∧ s.vlt.lcCode = 4 then failed (s.countWing w .commitFailed) .lcRefused
  else
    let bad := if u.staged.service then s.stagedBad w else []
    let s := bad.foldl (fun s e => s.logUsher w 0 e.1 (.rule w e.2 e.1) e.2) s
    match (if u.staged.service then overlapPair (u.staged.rules.filter fun e => !bad.any (·.1 = e.1)) else none) with
    | some (i, j) => .done (s.countWing w .commitFailed) .ushOverlap [wd (i + j * 2 ^ 8)]
    | none => .wait (s.modUsh w fun u => { u with hold := some s.rt, commitCh := some ch }) (.ushCommit w both)

/-- USH_COMMIT (R229, R231): for both wings, SL first. -/
def execUshCommit (ch : Fin 8) (s : State) : Host.Outcome State Fault Refusal :=
  .next (s.runCmd ch { op := 0x104, lenMin := 0, lenMax := 0, wing := 3 } fun s c => s.ushStart c.wing c.ch c.both)

/-- The next commit of a wing that waits for the one reported. -/
def State.nextUsh : Nat → Wing → State → State
  | 0, _, s => s
  | n + 1, w, s =>
    let next := (List.finRange 8).find? fun ch => match s.chans[ch].waiting with
      | some (.ushCommit w' _) => w' = w
      | _ => false
    if (s.wing w).ush.hold.isSome then s
    else match next with
      | none => s
      | some ch => match s.chans[ch].waiting with
        | some (.ushCommit _ both) => match s.ushStart w ch both with
          | .done s st payload => State.nextUsh n w (s.finish ch st payload)
          | .wait s _ => s
          | .later s => s
        | _ => s

/-- USH_BANK_SWITCH (R229): the old generation has drained in time; the banks switch and the commit is reported, for both wings
after the commit of SR. -/
def execUshBankSwitch (w : Wing) (s : State) : Host.Outcome State Fault Refusal :=
  let s := s.pumpDrain w
  let u := (s.wing w).ush
  if u.hold.isNone ∨ !u.drained then .next s
  else
    let s := (s.usherSwitch w).mgCompare w
    let s := match u.commitCh with
      | none => s
      | some ch => match s.chans[ch].waiting with
        | some (.ushCommit w' both) =>
          if w' ≠ w then s
          else if both ∧ w = .sl then
            (s.ushStart .sr ch false).settle ch s.chans[ch].expect
          else s.finish ch .ok s.gens
        | _ => s
    .next (State.nextUsh 8 w s)

/-- USH_DRAIN_TIMEOUT (R230): the drain had not finished 1.5 us after the hold began. -/
def execUshDrainTimeout (w : Wing) (s : State) : Host.Outcome State Fault Refusal :=
  let s := s.pumpDrain w
  let u := (s.wing w).ush
  match u.hold, u.blocked with
  | some _, some port =>
    let s := ((s.modUsh w fun u => { u with hold := none, commitCh := none, drained := false, blocked := none }).countWing w
      .commitFailed).log w .ushCommitFail 0 port 0 0
    let s := match u.commitCh with
      | some ch => (match s.chans[ch].waiting with
        | some (.ushCommit w' _) => if w' = w then s.finish ch .ushDrainTimeout [wd port] else s
        | _ => s)
      | none => s
    .next (State.nextUsh 8 w s)
  | _, _ => .next s

/-- USH_FAULT_SUMMARY (R233): the millisecond of the refusals not logged has ended. -/
def execUshFaultSummary (w : Wing) (s : State) : Host.Outcome State Fault Refusal :=
  let u := (s.wing w).ush
  if u.msDropped = 0 ∨ s.rt < u.msEnd then .next s
  else .next ((s.log w .ushFaultSummary 0 0 u.msDropped 0).modUsh w fun u =>
    { u with msDropped := 0, msEnd := s.rt + 1000000 })

end Sys2Proof.Machine
end

