-- ==== Sys2Proof/Machine/WingEvents.lean ====
section
/-! DEFINITION. The events of the bridge, the liveness marks and the heartbeats (R39, R330, R339, R357). -/

namespace Sys2Proof.Machine

/-- The link state that a beacon carries: that of the wing that sends it (R330). One that says otherwise was never sent. -/
def State.tokLink (s : State) (w : Wing) : BridgeTok → Option Link
  | .beacon _ => some (s.wing (otherWing w)).link
  | .work => none

/-- Whether a token can have been sent: a beacon carries its sender's link state. -/
def State.tokSent (s : State) (w : Wing) : BridgeTok → Bool
  | .beacon l => decide (l = (s.wing (otherWing w)).link.code)
  | .work => true

/-- The items on lanes of the other wing, whose tokens the bridge carries; those in delivery cannot restart. -/
def State.lentWork (s : State) : List (Fin 28 × LItem) :=
  (List.finRange 28).flatMap fun l =>
    (s.lanes[l].items.filter fun i => i.wing ≠ laneWing l ∧ !s.inRelease i ∧ i.left ≠ 0).map fun i => (l, i)

/-- The lines of cross-wing reads that have come back and are not yet answered: the bridge carries them to their request port. -/
def State.crossLines (s : State) : List (Fin 4 × Nat × Nat) :=
  (List.finRange 4).flatMap fun q => (s.rqps[q].accs.filter fun a => s.crossAcc q a && a.op = 0).flatMap fun a =>
    ((List.range a.lines.length).filter fun k => (a.lines[k]?).any fun l => l.phase = .gotData ∧ !l.released).map fun k => (q, a.seq, k)

/-- The item of a token that was discarded restarts (R29, R333). A token that fails parity does not tell whose it is: a free value
takes one of the items on lent lanes, one of the lines of cross-wing accesses, or what restarts with no effect (a command, a line
not yet read). -/
def State.restartLost (s : State) : State :=
  let work := s.lentWork
  let lines := s.crossLines
  if work.isEmpty ∧ lines.isEmpty then s
  else
    let k := s.freeVal % (work.length + lines.length + 1)
    let s := s.takeFree
    match work[k]?, lines[k - work.length]? with
    | some (l, i), _ => (s.modLane l fun x => { x with items := x.items.erase i }).restartItem l i
    | none, some (q, seq, n) =>
      let s := (s.dropItem (.mem q seq n)).modLine q seq n fun m =>
        { m with phase := .waiting, known := false, tagged := false, metaOk := false }
      (match s.access q seq with
       | some a => s.admitLine q a n
       | none => s)
    | none, none => s

/-- BRIDGE_TOKEN (R330, R331, R333): a token that fails parity is discarded and, while JOINED, counted, and its item restarts. -/
def execBridgeToken (w : Wing) (t : BridgeTok) (parityOk : Bool) (s : State) : Host.Outcome State Fault Refusal :=
  let x := s.wing w
  if !s.wingRuns w ∨ !s.tokSent w t then .next s
  else if !parityOk then
    if x.link = .joined then
      let s := (s.countWing w .brgParity).rhlFault w 0 (unitName 8 0 w)
      let ts := (x.parTimes.filter fun r => decide (s.rt < r + 20000)) ++ [s.rt]
      let s := s.modWing w fun y => { y with parTimes := ts }
      let s := if t = .work then s.restartLost else s
      .next (if 16 ≤ ts.length then s.declareLost w 1 else s)
    else .next s
  else
    let kind := b2n (t = .work)
    let tag := leBytes 6 s.freeVal
    let s := (s.takeFree.rhlRec w 0x0A (leBytes 1 (kind * 2)) tag 3).rhlRec (otherWing w) 0x0A (leBytes 1 (1 + kind * 2)) tag 3
    .next (s.hearToken w (s.tokLink w t))

/-- BRIDGE_SILENCE (R330, R340): 20 µs without a token. A wing that is REJOIN_READY is PARTITIONED or FAR_LOST again. -/
def execBridgeSilence (w : Wing) (s : State) : Host.Outcome State Fault Refusal :=
  let x := s.wing w
  if !s.wingRuns w ∨ s.rt < x.lastTok + 20000 then .next s
  else match x.link with
    | .joined => .next (s.declareLost w 0)
    | .rejoinReady =>
      let s := s.dropJoin
      .next (s.setLink w (if s.markFresh (otherWing w) then .partitioned else .farLost))
    | .partitioned => .next s
    | .farLost => .next s

/-- LIVENESS_MARK (R330): renewed over the wing's own path; a wing that was FAR_LOST for the other is alive again. -/
def execLivenessMark (w : Wing) (s : State) : Host.Outcome State Fault Refusal :=
  if !s.wingRuns w ∨ s.pathLost w then .next s
  else
    let s := s.modVlt fun v => match w with
      | .sl => { v with markSl := some v.rt }
      | .sr => { v with markSr := some v.rt }
    let far := otherWing w
    .next (if (s.wing far).link = .farLost ∧ s.wingRuns far ∧ !(s.wing w).failed then s.setLink far .partitioned else s)

/-- FAR_MARK_STALE (R330). -/
def execFarMarkStale (w : Wing) (s : State) : Host.Outcome State Fault Refusal :=
  if s.wingRuns w ∧ (s.wing w).link = .partitioned ∧ !s.markFresh (otherWing w) then .next (s.setLink w .farLost)
  else .next s

/-- REJOIN_READY (R339). -/
def execRejoinReady (w : Wing) (s : State) : Host.Outcome State Fault Refusal :=
  let x := s.wing w
  if s.wingRuns w ∧ x.link = .partitioned ∧ x.tokRun + 20000 ≤ s.rt ∧ s.rt < x.lastTok + 20000 ∧ x.farOk then
    .next ((s.modWing w fun y => { y with link := .rejoinReady }).log w .bridgeRestored 0 0 0 0)
  else .next s

/-- Whether a core sends heartbeats (R388). -/
def Core.beating (c : Core) : Bool := c.running && !c.struck && !c.lost && !c.reloading

/-- HEARTBEAT (R39, R334, R340, R358): counted by the other core while both wings are JOINED and the watch is not
suspended; takeover is armed by three of them while that core may take over (R388). -/
def execHeartbeat (c : CoreId) (s : State) : Host.Outcome State Fault Refusal :=
  if !(s.pwr.awake ∧ s.boot.phase = .ready ∧ (s.core c).beating) then .next s
  else
    let watch := s.joined && !(s.core c).suspended
    .next (s.modCore c fun x =>
      let x := { x with beats := (x.beats + 1) % 2 ^ 16, beatAt := s.rt }
      if watch then
        let got := if (s.core (otherCore c)).able then x.got + 1 else 0
        { x with missed := 0, got := got, armed := decide (3 ≤ got) }
      else x)

/-- HEARTBEAT_MISS (R39, R357): the heartbeat due did not come; the third in a row, once takeover is armed, loses the core. -/
def execHeartbeatMiss (c : CoreId) (s : State) : Host.Outcome State Fault Refusal :=
  let x := s.core c
  if !(s.pwr.awake ∧ s.boot.phase = .ready ∧ s.joined) ∨ !x.beating ∨ x.suspended ∨ x.got = 0
      ∨ s.rt < x.beatAt + 1000000 * (x.missed + 1) then .next s
  else
    let s := s.modCore c fun x => { x with missed := min 3 (x.missed + 1) }
    .next (if 3 ≤ (s.core c).missed ∧ (s.core c).armed then
      (s.rhlFault (homeWing c) 1 (unitName 3 0 (homeWing c))).loseCore c else s)

end Sys2Proof.Machine
end

