-- ==== Sys2Proof/Machine/Dispatch.lean ====
section
/-! DEFINITION. One arm for each command: its meaning, which answers for everything but the queue of waiting commands. -/

namespace Sys2Proof.Machine

/-- The effect of a command on everything but the queue. -/
def exec (i : Instr) (s : State) : Host.Outcome State Fault Refusal :=
  match i with
  | .nop ch => Sys2Proof.Machine.execNop ch s
  | .curtain ch => Sys2Proof.Machine.execCurtain ch s
  | .info ch => Sys2Proof.Machine.execInfo ch s
  | .chanOwn ch => Sys2Proof.Machine.execChanOwn ch s
  | .chanLock ch => Sys2Proof.Machine.execChanLock ch s
  | .chanMap ch => Sys2Proof.Machine.execChanMap ch s
  | .evtRoute ch => Sys2Proof.Machine.execEvtRoute ch s
  | .storeSet ch => Sys2Proof.Machine.execStoreSet ch s
  | .statsRead ch => Sys2Proof.Machine.execStatsRead ch s
  | .portOpen ch => Sys2Proof.Machine.execPortOpen ch s
  | .portClose ch => Sys2Proof.Machine.execPortClose ch s
  | .portClsSet ch => Sys2Proof.Machine.execPortClsSet ch s
  | .portSpSet ch => Sys2Proof.Machine.execPortSpSet ch s
  | .portGet ch => Sys2Proof.Machine.execPortGet ch s
  | .rqpOpen ch => Sys2Proof.Machine.execRqpOpen ch s
  | .rqpClose ch => Sys2Proof.Machine.execRqpClose ch s
  | .mpTimeout ch => Sys2Proof.Machine.execMpTimeout ch s
  | .closeTimeout ch => Sys2Proof.Machine.execCloseTimeout ch s
  | .saInstall ch => Sys2Proof.Machine.execSaInstall ch s
  | .saModify ch => Sys2Proof.Machine.execSaModify ch s
  | .saRead ch => Sys2Proof.Machine.execSaRead ch s
  | .saSwitch ch => Sys2Proof.Machine.execSaSwitch ch s
  | .saClose ch => Sys2Proof.Machine.execSaClose ch s
  | .saRemove ch => Sys2Proof.Machine.execSaRemove ch s
  | .ptStage ch => Sys2Proof.Machine.execPtStage ch s
  | .groupSet ch => Sys2Proof.Machine.execGroupSet ch s
  | .ptCommit ch => Sys2Proof.Machine.execPtCommit ch s
  | .ptDiscard ch => Sys2Proof.Machine.execPtDiscard ch s
  | .ptRead ch => Sys2Proof.Machine.execPtRead ch s
  | .ptWriteEntry ch => Sys2Proof.Machine.execPtWriteEntry ch s
  | .ptPolicy ch => Sys2Proof.Machine.execPtPolicy ch s
  | .ptStatus ch => Sys2Proof.Machine.execPtStatus ch s
  | .meshEtype ch => Sys2Proof.Machine.execMeshEtype ch s
  | .boxInsert ch => Sys2Proof.Machine.execBoxInsert ch s
  | .boxUpdate ch => Sys2Proof.Machine.execBoxUpdate ch s
  | .boxRemove ch => Sys2Proof.Machine.execBoxRemove ch s
  | .boxLookup ch => Sys2Proof.Machine.execBoxLookup ch s
  | .boxReadSlot ch => Sys2Proof.Machine.execBoxReadSlot ch s
  | .boxTtl ch => Sys2Proof.Machine.execBoxTtl ch s
  | .grqList ch => Sys2Proof.Machine.execGrqList ch s
  | .grqRead ch => Sys2Proof.Machine.execGrqRead ch s
  | .grqDrop ch => Sys2Proof.Machine.execGrqDrop ch s
  | .grqRelease ch => Sys2Proof.Machine.execGrqRelease ch s
  | .grqTimeout ch => Sys2Proof.Machine.execGrqTimeout ch s
  | .classSet ch => Sys2Proof.Machine.execClassSet ch s
  | .laneStatus ch => Sys2Proof.Machine.execLaneStatus ch s
  | .regionInstall ch => Sys2Proof.Machine.execRegionInstall ch s
  | .regionRead ch => Sys2Proof.Machine.execRegionRead ch s
  | .regionClose ch => Sys2Proof.Machine.execRegionClose ch s
  | .regionRemove ch => Sys2Proof.Machine.execRegionRemove ch s
  | .regionPin ch => Sys2Proof.Machine.execRegionPin ch s
  | .memslotLoad ch => Sys2Proof.Machine.execMemslotLoad ch s
  | .ushRule ch => Sys2Proof.Machine.execUshRule ch s
  | .ushDefault ch => Sys2Proof.Machine.execUshDefault ch s
  | .ushMgmap ch => Sys2Proof.Machine.execUshMgmap ch s
  | .ushMode ch => Sys2Proof.Machine.execUshMode ch s
  | .ushCommit ch => Sys2Proof.Machine.execUshCommit ch s
  | .ushRead ch => Sys2Proof.Machine.execUshRead ch s
  | .ushDiscard ch => Sys2Proof.Machine.execUshDiscard ch s
  | .devKeys ch => Sys2Proof.Machine.execDevKeys ch s
  | .kumPart ch => Sys2Proof.Machine.execKumPart ch s
  | .installKey ch cut => Sys2Proof.Machine.execInstallKey ch cut s
  | .destroyKey ch cut => Sys2Proof.Machine.execDestroyKey ch cut s
  | .ownerRotate ch cut => Sys2Proof.Machine.execOwnerRotate ch cut s
  | .reinstate ch cut => Sys2Proof.Machine.execReinstate ch cut s
  | .lcMove ch cut => Sys2Proof.Machine.execLcMove ch cut s
  | .ownerEnrol ch => Sys2Proof.Machine.execOwnerEnrol ch s
  | .blobLoad ch => Sys2Proof.Machine.execBlobLoad ch s
  | .classAUnload ch => Sys2Proof.Machine.execClassAUnload ch s
  | .keyGenerate ch => Sys2Proof.Machine.execKeyGenerate ch s
  | .keyUnwrap ch => Sys2Proof.Machine.execKeyUnwrap ch s
  | .keyDerive ch => Sys2Proof.Machine.execKeyDerive ch s
  | .mkaDerive ch => Sys2Proof.Machine.execMkaDerive ch s
  | .mkaIcv ch => Sys2Proof.Machine.execMkaIcv ch s
  | .keyDestroy ch => Sys2Proof.Machine.execKeyDestroy ch s
  | .keyInfo ch => Sys2Proof.Machine.execKeyInfo ch s
  | .attest ch => Sys2Proof.Machine.execAttest ch s
  | .attestRest ch => Sys2Proof.Machine.execAttestRest ch s
  | .bootStatus ch => Sys2Proof.Machine.execBootStatus ch s
  | .rcbRead ch => Sys2Proof.Machine.execRcbRead ch s
  | .imageWrite ch => Sys2Proof.Machine.execImageWrite ch s
  | .imageGo ch => Sys2Proof.Machine.execImageGo ch s
  | .lcStatus ch => Sys2Proof.Machine.execLcStatus ch s
  | .lcAdvance ch => Sys2Proof.Machine.execLcAdvance ch s
  | .lcRetire ch => Sys2Proof.Machine.execLcRetire ch s
  | .tamperSet ch => Sys2Proof.Machine.execTamperSet ch s
  | .tamperGet ch => Sys2Proof.Machine.execTamperGet ch s
  | .tamperRelease ch => Sys2Proof.Machine.execTamperRelease ch s
  | .prmCfg ch => Sys2Proof.Machine.execPrmCfg ch s
  | .prmStatus ch => Sys2Proof.Machine.execPrmStatus ch s
  | .prmAtPps ch => Sys2Proof.Machine.execPrmAtPps ch s
  | .prmSetOffset ch => Sys2Proof.Machine.execPrmSetOffset ch s
  | .toutSet ch => Sys2Proof.Machine.execToutSet ch s
  | .toutGet ch => Sys2Proof.Machine.execToutGet ch s
  | .ptpSet ch => Sys2Proof.Machine.execPtpSet ch s
  | .tsExportRead ch => Sys2Proof.Machine.execTsExportRead ch s
  | .wearCfg ch => Sys2Proof.Machine.execWearCfg ch s
  | .wearReport ch => Sys2Proof.Machine.execWearReport ch s
  | .wearHistory ch => Sys2Proof.Machine.execWearHistory ch s
  | .strike ch => Sys2Proof.Machine.execStrike ch s
  | .handover ch => Sys2Proof.Machine.execHandover ch s
  | .updateWrite ch => Sys2Proof.Machine.execUpdateWrite ch s
  | .updateGo ch => Sys2Proof.Machine.execUpdateGo ch s
  | .join ch => Sys2Proof.Machine.execJoin ch s
  | .rhlStop ch => Sys2Proof.Machine.execRhlStop ch s
  | .rhlStartTrace ch => Sys2Proof.Machine.execRhlStartTrace ch s
  | .rhlStartRecord ch => Sys2Proof.Machine.execRhlStartRecord ch s
  | .rhlSetTarget ch => Sys2Proof.Machine.execRhlSetTarget ch s
  | .rhlStatus ch => Sys2Proof.Machine.execRhlStatus ch s
  | .rhlExport ch => Sys2Proof.Machine.execRhlExport ch s
  | .rhlReplay ch => Sys2Proof.Machine.execRhlReplay ch s
  | .rhlResume ch => Sys2Proof.Machine.execRhlResume ch s
  | .pwrStatus ch => Sys2Proof.Machine.execPwrStatus ch s
  | .diagEcho ch => Sys2Proof.Machine.execDiagEcho ch s
  | .diagMark ch => Sys2Proof.Machine.execDiagMark ch s
  | .doorbell a ch v => Sys2Proof.Machine.execDoorbell a ch v s
  | .reqFree ch => Sys2Proof.Machine.execReqFree ch s
  | .rspWrite ch => Sys2Proof.Machine.execRspWrite ch s
  | .rspAck a ch v => Sys2Proof.Machine.execRspAck a ch v s
  | .cbdTail a w v => Sys2Proof.Machine.execCbdTail a w v s
  | .cbdEntry a w => Sys2Proof.Machine.execCbdEntry a w s
  | .zeroiseArm a gap v => Sys2Proof.Machine.execZeroiseArm a gap v s
  | .zeroiseFire a gap v => Sys2Proof.Machine.execZeroiseFire a gap v s
  | .zeroiseGap => Sys2Proof.Machine.execZeroiseGap s
  | .registerWrite a addr v => Sys2Proof.Machine.execRegisterWrite a addr v s
  | .cpRstN => Sys2Proof.Machine.execCpRstN s
  | .tapBypass tdi => Sys2Proof.Machine.execTapBypass tdi s
  | .tapIdcode tdi => Sys2Proof.Machine.execTapIdcode tdi s
  | .tapSample pins tdi => Sys2Proof.Machine.execTapSample pins tdi s
  | .tapExtest pins tdi => Sys2Proof.Machine.execTapExtest pins tdi s
  | .tapTestAccess code tdi => Sys2Proof.Machine.execTapTestAccess code tdi s
  | .outboundFrame p f => Sys2Proof.Machine.execOutboundFrame p f s
  | .inboundFrame p f => Sys2Proof.Machine.execInboundFrame p f s
  | .strayBeat p line => Sys2Proof.Machine.execStrayBeat p line s
  | .creditPulse p line => Sys2Proof.Machine.execCreditPulse p line s
  | .lsHold p hold rsn => Sys2Proof.Machine.execLsHold p hold rsn s
  | .frameRelease p id => Sys2Proof.Machine.execFrameRelease p id s
  | .frameTagCheck p id => Sys2Proof.Machine.execFrameTagCheck p id s
  | .saFetch w sai tagOk keyOk => Sys2Proof.Machine.execSaFetch w sai tagOk keyOk s
  | .boxInsertion w => Sys2Proof.Machine.execBoxInsertion w s
  | .lateFrame p id => Sys2Proof.Machine.execLateFrame p id s
  | .lsHoldLimit p => Sys2Proof.Machine.execLsHoldLimit p s
  | .rekeyOverlap w sai => Sys2Proof.Machine.execRekeyOverlap w sai s
  | .leaseGrant w sai cut => Sys2Proof.Machine.execLeaseGrant w sai cut s
  | .leaseRefreshRetry w sai => Sys2Proof.Machine.execLeaseRefreshRetry w sai s
  | .unkeyedTtl w slot => Sys2Proof.Machine.execUnkeyedTtl w slot s
  | .grqHoldTimeout w handle => Sys2Proof.Machine.execGrqHoldTimeout w handle s
  | .grqSummary w => Sys2Proof.Machine.execGrqSummary w s
  | .ushFaultSummary w => Sys2Proof.Machine.execUshFaultSummary w s
  | .memRead q r => Sys2Proof.Machine.execMemRead q r s
  | .memWrite q r => Sys2Proof.Machine.execMemWrite q r s
  | .partialWrite q tid line => Sys2Proof.Machine.execPartialWrite q tid line s
  | .curtainOnly q r => Sys2Proof.Machine.execCurtainOnly q r s
  | .writeData q data strb last => Sys2Proof.Machine.execWriteData q data strb last s
  | .mpResponse m b => Sys2Proof.Machine.execMpResponse m b s
  | .mpResponseTimeout m aid => Sys2Proof.Machine.execMpResponseTimeout m aid s
  | .lineVerify q tid line => Sys2Proof.Machine.execLineVerify q tid line s
  | .curtainIssue q tid => Sys2Proof.Machine.execCurtainIssue q tid s
  | .curtainVerify q tid => Sys2Proof.Machine.execCurtainVerify q tid s
  | .curtainPersist q tid => Sys2Proof.Machine.execCurtainPersist q tid s
  | .pageReencrypted w page => Sys2Proof.Machine.execPageReencrypted w page s
  | .tagRepair q tid line => Sys2Proof.Machine.execTagRepair q tid line s
  | .regionReady r => Sys2Proof.Machine.execRegionReady r s
  | .pinFill r => Sys2Proof.Machine.execPinFill r s
  | .ushBankSwitch w => Sys2Proof.Machine.execUshBankSwitch w s
  | .ushDrainTimeout w => Sys2Proof.Machine.execUshDrainTimeout w s
  | .trieSwitch w => Sys2Proof.Machine.execTrieSwitch w s
  | .trieCommitComplete w => Sys2Proof.Machine.execTrieCommitComplete w s
  | .journalCommit cut => Sys2Proof.Machine.execJournalCommit cut s
  | .fuseCopy => Sys2Proof.Machine.execFuseCopy s
  | .fuseVppLoss burnt => Sys2Proof.Machine.execFuseVppLoss burnt s
  | .resetHold => Sys2Proof.Machine.execResetHold s
  | .startUp o => Sys2Proof.Machine.execStartUp o s
  | .coreRstN => Sys2Proof.Machine.execCoreRstN s
  | .portReset x => Sys2Proof.Machine.execPortReset x s
  | .portResetRelease x => Sys2Proof.Machine.execPortResetRelease x s
  | .portClockLost x => Sys2Proof.Machine.execPortClockLost x s
  | .scriptReady failed => Sys2Proof.Machine.execScriptReady failed s
  | .todPps w t => Sys2Proof.Machine.execTodPps w t s
  | .todLock w => Sys2Proof.Machine.execTodLock w s
  | .prmHoldover w => Sys2Proof.Machine.execPrmHoldover w s
  | .prmClockLost w => Sys2Proof.Machine.execPrmClockLost w s
  | .cueFire c => Sys2Proof.Machine.execCueFire c s
  | .cuePulseEnd c => Sys2Proof.Machine.execCuePulseEnd c s
  | .sleepEntry => Sys2Proof.Machine.execSleepEntry s
  | .slpAck => Sys2Proof.Machine.execSlpAck s
  | .supplyExcursion x above => Sys2Proof.Machine.execSupplyExcursion x above s
  | .vddcLoss => Sys2Proof.Machine.execVddcLoss s
  | .vddvLoss => Sys2Proof.Machine.execVddvLoss s
  | .tempSource hot => Sys2Proof.Machine.execTempSource hot s
  | .tamperChip samples => Sys2Proof.Machine.execTamperChip samples s
  | .tamperWindow => Sys2Proof.Machine.execTamperWindow s
  | .bridgeToken w t parityOk => Sys2Proof.Machine.execBridgeToken w t parityOk s
  | .bridgeSilence w => Sys2Proof.Machine.execBridgeSilence w s
  | .livenessMark w => Sys2Proof.Machine.execLivenessMark w s
  | .farMarkStale w => Sys2Proof.Machine.execFarMarkStale w s
  | .rejoinReady w => Sys2Proof.Machine.execRejoinReady w s
  | .heartbeat c => Sys2Proof.Machine.execHeartbeat c s
  | .heartbeatMiss c => Sys2Proof.Machine.execHeartbeatMiss c s
  | .stuckHandshake u sent => Sys2Proof.Machine.execStuckHandshake u sent s
  | .marginSample u margin => Sys2Proof.Machine.execMarginSample u margin s
  | .wearCheck w => Sys2Proof.Machine.execWearCheck w s
  | .understudyPromotion w pass => Sys2Proof.Machine.execUnderstudyPromotion w pass s
  | .marchTest w bank row faulty => Sys2Proof.Machine.execMarchTest w bank row faulty s
  | .bankStruck w => Sys2Proof.Machine.execBankStruck w s
  | .unitClosed u => Sys2Proof.Machine.execUnitClosed u s
  | .forcedClose u => Sys2Proof.Machine.execForcedClose u s
  | .updateCoreStarted => Sys2Proof.Machine.execUpdateCoreStarted s
  | .rtCopy => Sys2Proof.Machine.execRtCopy s
  | .maskRefresh => Sys2Proof.Machine.execMaskRefresh s
  | .drbgReseed => Sys2Proof.Machine.execDrbgReseed s
  | .entropyFail => Sys2Proof.Machine.execEntropyFail s
  | .keyExpiry ref => Sys2Proof.Machine.execKeyExpiry ref s
  | .rhlSnapshotDone w => Sys2Proof.Machine.execRhlSnapshotDone w s
  | .rhlBlockSpill w ok => Sys2Proof.Machine.execRhlBlockSpill w ok s
  | .rhlPostBlocks w => Sys2Proof.Machine.execRhlPostBlocks w s
  | .rhlReplayRecord w r => Sys2Proof.Machine.execRhlReplayRecord w r s
  | .supplyPresent x => Sys2Proof.Machine.execSupplyPresent x s
  | .mpRequestAccepted m => Sys2Proof.Machine.execMpRequestAccepted m s
  | .rqpResponseAccepted q => Sys2Proof.Machine.execRqpResponseAccepted q s
  | .vaultPathRestored w => Sys2Proof.Machine.execVaultPathRestored w s
  | .updateStartTimeout => Sys2Proof.Machine.execUpdateStartTimeout s

end Sys2Proof.Machine
end

