-- ==== Sys2Proof/Machine/TokenOps.lean ====
section
/-! DEFINITION. Tokens (R28): the 128-bit blocks that the lanes take, one in each slot, each with its context tag. -/

namespace Sys2Proof.Machine

/-- The bytes of a memory line that its lane work enciphers or deciphers, where they are at hand: what came back of a line to be
read, the beat of a line to be replaced, and for a partial write what came back and then what was merged. -/
def Access.lineBytes (a : Access) (line : Nat) : Option Bytes :=
  (a.lines[line]?).bind fun l =>
    if a.op = 1 ∧ a.whole line then (a.wbeats[line]?).map fun b => leBytes 64 b.1
    else match l.phase with
      | .gotData | .repairing => some (leBytes 64 l.cipher)
      | .repaired | .merged | .writing | .done => some (leBytes 64 l.plain)
      | .waiting | .reading => none

/-- The bytes that the lane work of an item enciphers or deciphers (R150): nothing where a frame is only authenticated. A lane
computes the keystream of a memory line before the data is there (R192), and the spec does not say which block a token of such
a line carries: none here (DESIGN CHOICE, assumption 47). -/
def State.itemBytes (s : State) (i : LItem) : Option Bytes :=
  match i.of with
  | .out p id => some (match s.ports[p].staging.find? (·.id = id) with
    | some f => match f.sai.bind (s.sa (portWing p)) with
      | some x => if x.r.conf then ((outForm x.r (s.wing (portWing p)).meshEtype 0 f.bytes).map Sealing.plain).getD [] else []
      | none => []
    | none => [])
  | .inb p id => some (match s.ports[p].inbound.find? (·.id = id) with
    | some f => match f.sai.bind (s.sa (portWing p)) with
      | some x => if x.r.conf then ((inForm x.r 0 f.bytes).map Opening.ct).getD [] else []
      | none => []
    | none => [])
  | .mem q seq line => (s.access q seq).bind fun a => a.lineBytes line
  | .page w page line => (s.reencOf w page).bind fun e =>
      if e.draining then some (leBytes 64 ((e.got.find? (·.1 = line)).elim 0 (·.2.1)))
      else (e.raw.find? (·.1 = line)).map fun x => leBytes 64 x.2.1

/-- The stream or request port that an item came from: that of the write that started a re-encryption. -/
def State.itemPort (s : State) (i : LItem) : Nat :=
  match i.of with
  | .out p _ => p.val
  | .inb p _ => p.val
  | .mem q _ _ => q.val
  | .page w page _ => (s.reencOf w page).elim 0 fun e => e.q.val

/-- The token that an item gives next: the block after those that have entered, its unused bytes 0, or a free value where its data
is not there. A slot past the data of the item carries a mask alone (R150). -/
def State.nextTok (s : State) (i : LItem) : Token :=
  let ix := i.cost - i.left
  { block := BitVec.ofNat 128 ((s.itemBytes i).elim s.freeVal fun b => leNat ((b.drop (16 * ix)).take 16)), key := i.key, of := i.of, ix := ix, cls := i.cls,
    wing := i.wing, port := s.itemPort i }

/-- A lane takes one token; a grant between several items is one of its arbiter (R25). A token whose context tag fails parity is
discarded and reported, and its item restarts (R36, R29; DEDUCED, assumption 47). Work of the other wing waits while the bridge does
not carry it (R333). -/
def State.laneToken (s : State) (l : Fin 28) : State :=
  match s.lanes[l].nextToken (s.role l = .reserved) with
  | some k => match s.lanes[l].items[k]? with
    | some i =>
      if i.wing ≠ laneWing l ∧ !s.bridgeOk then s
      else if s.bad (.ctx l) then
        let s := ((s.fix (.ctx l)).logEntry (laneWing l) 0 l.val).rhlFault (laneWing l) 0 (unitName 0 l.val (laneWing l))
        (s.modLane l fun x => { x with items := x.items.eraseIdx k }).restartItem l i
      else
        let t := s.nextTok i
        let rivals := s.lanes[l].items.countP fun i => i.left ≠ 0
        let s := if (s.itemBytes i).isNone then s.takeFree else s
        let s := if 1 < rivals then s.rhlGrant (laneWing l) (l.val % 14) (decide (k ≠ 0)) else s
        s.modLane l fun x => { x with items := x.items.modify k fun i => { i with left := i.left - 1 }, tok := some t }
    | none => s
  | none => s

/-- Every lane takes one token, and the dispatchers go on. -/
def State.laneTick (s : State) : State :=
  let s := (List.finRange 28).foldl State.laneToken s
  s.eachWing fun s w => s.dispatch w

end Sys2Proof.Machine
end

