-- ==== Sys2Proof/Machine/Tick.lean ====
section
/-! DEFINITION. A tick: one nanosecond of RT, in which Prompt advances, each lane takes a token, credits return and the
memory side goes on (assumption 3). Keystream is prepared as its store has room, cut-through deliveries begin, beacons cross the bridge, and the engine's own accesses start. -/

namespace Sys2Proof.Machine

/-- The Lead frames held by one of the reasons that R165 leaves out of its latency are a nanosecond later by that much. -/
def State.leadShift (s : State) : State :=
  { s with ports := Vector.ofFn fun (p : Fin 64) =>
      let x := s.ports[p]
      if x.staging.isEmpty ∧ x.inbound.isEmpty then x
      else
        { x with staging := x.staging.map fun f => if f.lead ∧ f.admRt ≤ s.rt ∧ s.heldOut p f then { f with admRt := f.admRt + 1 } else f
                 inbound := x.inbound.map fun f => if f.lead ∧ s.heldIn p f then { f with admRt := f.admRt + 1 } else f } }

/-- A soft upset of a control entry's parity, where one happens in this tick (R36, R442). -/
def State.softUpset (s : State) : State :=
  let s' := s.takeFree
  match Config.upset s.freeCtr with
  | some e => if s.upsets.contains e then s' else { s' with upsets := s'.upsets ++ [e] }
  | none => s'

/-- One nanosecond. -/
def State.tick (s : State) : State :=
  let s := if s.pwr.vddv then s.modVlt fun v => { v with vtimer := v.vtimer + 1 } else s
  let s := if s.pwr.vddv ∧ s.pwr.vddc then s.modVlt fun v => { v with rt := v.rt + 1 } else s
  let s := if s.pwr.vddv then s.condReturn else s
  let s := if s.pwr.awake ∧ s.boot.phase ≠ .off then s.eachWing fun s w => s.modPrm w fun p => p.tick (decide (w = .sr)) (!s.pwr.todRst w) s.rt
    else s
  if s.pwr.awake ∧ s.boot.phase = .ready then
    let s := s.bridgeTick.leadShift.laneTick
    let s := s.eachWing State.pumpKs
    let s := (List.finRange 64).foldl (fun s p => ((s.beginPort p).readmit p).credit p) s
    (s.sleepIdle.eachWing fun s w => s.pumpOwn w).pump.softUpset
  else s

end Sys2Proof.Machine
end

