-- ==== Sys2Proof/WellFormed.lean ====
section
/-! DEFINITION. Which commands are well formed: operands that the block's ports, pins and registers can carry. -/

namespace Sys2Proof

/-- A frame on HS_I has at least one beat and, with LEN of 14 bits, at most 1,024 (R50, R51). -/
def HsFrame.wf (f : HsFrame) : Bool := decide (0 < f.data.length ∧ f.data.length ≤ 16384)

/-- A frame on LS_I, likewise; SPn_LS_I_ERR comes on an EOF beat (R50). -/
def LsFrame.wf (f : LsFrame) : Bool := decide (0 < f.data.length ∧ f.data.length ≤ 16384) && (f.eof || !f.err)

/-- A unit's index lies in its kind. -/
def UnitId.wf : UnitId → Bool
  | .trieBank _ root ix => decide (ix < if root then 3 else 17)
  | .sramBank _ ix => decide (ix < 4096)
  | .trieStage _ ix => decide (ix < 15)
  | .sa _ sai => decide (sai < 2 ^ 20)
  | .slot k => decide (k < 4096)
  | .classA id => decide (id < 128)
  | _ => true

/-- An input of TOD_x_NS is below one second (R72). -/
def TodIn.wf (t : TodIn) : Bool := decide (t.ns.toNat < 1000000000)

/-- One condition code for each source 0x0 to 0x8 (R288, R289), one tie for each memory port (R65). -/
def StartObs.wf (o : StartObs) : Bool :=
  decide (o.conds.length = 9 ∧ o.sb.length = 4) && o.conds.all fun c => decide (c ≤ 0xC)

/-- A replayed record has a type of one byte and a DT of 24 bits (R398). -/
def ReplayRec.wf : ReplayRec → Bool
  | .rcd type dt _ _ => decide (type < 256 ∧ dt < 2 ^ 24)
  | _ => true

/-- A bridge beacon carries a link state of R329. -/
def BridgeTok.wf : BridgeTok → Bool
  | .beacon l => decide (l ≤ 3)
  | .work => true

/-- The commands that can be sent. -/
def Instr.wf : Instr → Bool
  | .registerWrite _ addr _ => decide (addr.toNat % 4 = 0)
  | .outboundFrame _ f => f.wf
  | .inboundFrame _ f => f.wf
  | .saFetch _ sai _ _ => decide (sai < 2 ^ 20)
  | .rekeyOverlap _ sai => decide (sai < 2 ^ 20)
  | .leaseGrant _ sai _ => decide (sai < 2 ^ 20)
  | .leaseRefreshRetry _ sai => decide (sai < 2 ^ 20)
  | .unkeyedTtl _ slot => decide (slot < 131088)
  | .grqHoldTimeout _ h => decide (h < 65536)
  | .partialWrite _ _ l => decide (l < 4)
  | .lineVerify _ _ l => decide (l < 4)
  | .tagRepair _ _ l => decide (l < 4)
  | .pageReencrypted _ page => decide (page < 2 ^ 40 ∧ page % 4096 = 0)
  | .startUp o => o.wf
  | .todPps _ t => t.wf
  | .tamperChip samples => decide (samples.length = 24)
  | .bridgeToken _ t _ => t.wf
  | .stuckHandshake u _ => u.wf
  | .marginSample u m => u.wf && decide (m < 2 ^ 16)
  | .marchTest _ bank row _ => decide (bank < 4096 ∧ row < 2 ^ 32)
  | .unitClosed u => u.wf
  | .forcedClose u => u.wf
  | .rhlReplayRecord _ r => r.wf
  | _ => true

end Sys2Proof
end

