-- ==== Sys2Proof/Safety.lean ====
section
/-! DEFINITION. What counts as a safe run, and the terms that statements use. -/

namespace Sys2Proof.Safety

open Sys2Proof.Machine

/-- A step that neither faults nor is refused. -/
def runs (o : Host.Outcome State Fault Refusal) : Prop := ∃ s, o = .next s

/-- The retention SRAM keeps its canonical form. -/
def sramOk (s : State) : Prop := Memory.wf s.vlt.sram = true

/-- The state in which a command's work starts: SEQ of its channel is taken (R370). -/
def took (s : State) (ch : Fin 8) : State := s.modChan ch fun c => { c with expect := c.expect + 1 }

/-- A channel's next command is that of a row, and it runs: it stands first among the unanswered places, its core serves
now, its SEQ is the one expected (R370), and none of the checks that come before a command's own refuses it (R369). -/
def Served (s : State) (ch : Fin 8) (o : OpSpec) (p : Place) : Prop :=
  s.chans[ch].head = some p ∧ p.phase = .queued ∧ p.op = o.op ∧ s.canServe ch = true
    ∧ p.seq = s.chans[ch].expect.toNat ∧ (took s ch).refuses ch p o = none

/-- The wing that the channel map gives a channel (R328). -/
def home (s : State) (ch : Fin 8) : Wing := s.chans[ch].mapWing

/-- The context that a command of a place runs with on a wing. -/
def ctxOf (ch : Fin 8) (p : Place) (ws : List Wing) (w : Wing) : Ctx :=
  { ch := ch, words := p.words, wing := w, both := decide (ws.length = 2), force := p.force, group := p.group, world := p.world }

/-- An effect is staged on a channel for a wing, after those staged before it (R372). -/
def staging (t : State) (ch : Fin 8) (w : Wing) (e : Eff) : State :=
  t.modChan ch fun c => { c with staged := c.staged ++ [(w, e)] }

/-- An effect is staged for each wing that a request names. -/
def stagingAll (s : State) (ch : Fin 8) (o : OpSpec) (p : Place) (e : Wing → Eff) : State :=
  (p.wings o (home s ch)).foldl (fun t w => staging t ch w (e w)) (took s ch)

/-- A command is answered with a status and words, on a state that its work has made. -/
def Answers (o : Host.Outcome State Fault Refusal) (t : State) (ch : Fin 8) (st : Status) (ws : List Word) : Prop :=
  o = .next (t.finish ch st ws)

/-- A command has done its first part on `t` and waits. -/
def Waits (o : Host.Outcome State Fault Refusal) (t : State) (ch : Fin 8) (w : Wait) : Prop :=
  o = .next (t.modHead ch fun p => { p with phase := .running w })

/-- A command may use a key that it names (R254, R255): a read over its wing's path gives the key, which is not closing, whose
attributes allow the use in this state for the owner of the command's channel, and which has not reached its end; it need not be read
back (R249). -/
def Usable (s : State) (ch : Fin 8) (p : Place) (l : KLoc) (u : Usage) (k : Key) : Prop :=
  s.readKey (home s ch) l = (some k, s) ∧ k.closeAt = none ∧ k.allows u s.vlt.lcCode (some (p.group, p.world)) = true
    ∧ k.ended s.rt = false ∧ s.isSpilled (home s ch) l = false

/-- The state in which a command goes on that may use a key: it enters the cache of its wing (R247). -/
def keyed (s : State) (ch : Fin 8) (l : KLoc) : State := (took s ch).needKey (home s ch) l

/-- A KUM gathered on a channel is submitted and passes every check of R262 that comes before its action's own. -/
def KumServed (s : State) (ch : Fin 8) (p : Place) (ws : List Word) (action : Nat) : Prop :=
  Served s ch { op := 0x122, lenMin := 0, lenMax := 0, hold := true } p ∧ s.chans[ch].kumWords = ws ∧ kumAction ws = action
    ∧ s.vlt.burn = none ∧ s.pathLost (home s ch) = false ∧ s.vlt.lcCode ≠ 6 ∧ s.vlt.kumEarly ws = none
    ∧ slotMacOk s.vlt.kumRet s.vlt.sram s.vlt.activeSlot = true ∧ s.vlt.kumSeen ws = none

/-- The state in which a KUM's action starts: the words gathered are cleared (R374). -/
def kumTook (s : State) (ch : Fin 8) : State := (took s ch).modChan ch fun x => { x with kum := [] }

/-- The context of a command that names no wing. -/
def ctx0 (s : State) (ch : Fin 8) (p : Place) : Ctx := ctxOf ch p [home s ch] (home s ch)

/-- A statement of attestation is answered: it is signed with a secret drawn from the CTR_DRBG, held on the channel, and its
first 62 words are returned (R273, R374). -/
def SignedAnswer (o : Host.Outcome State Fault Refusal) (s t : State) (ch : Fin 8) (d : Nat) (st : List Word) : Prop :=
  ∃ full, full = st ++ bytesToWords (ecdsaSign d (leNat (t.draw 48).1 % (ecN - 1) + 1) (sha384 (wordsToBytes st)))
    ∧ Answers o (((t.draw 48).2.modChan ch fun x => { x with stmt := full }).rhlVault (home s ch) Status.ok.code
        (leBytes 4 s.vlt.ctx)) ch .ok (full.take 62)

/-- A control port write that passes: the port takes it, and its master owns the register's block (R71, R381). `t` is the state
after the ownership check. -/
def Admits (s t : State) (a : CpAcc) (off : Nat) : Prop :=
  s.cpTakes = true ∧ t = (guardOf off).elim s (fun n => s.ownParity a n) ∧ t.cpRefused a off = false

/-- What a write that passes does: the zeroise sequence is followed (R392), the register takes the value by `eff`, CP_ERR is 0,
and each wing that records the control port records the access. -/
def Wrote (o : Host.Outcome State Fault Refusal) (t : State) (a : CpAcc) (off gap v : Nat) (eff : State → State) : Prop :=
  ∃ u, u = eff (t.zTrack a off gap v) ∧ o = .next (State.rhlCtrl { u with sys := { u.sys with err := false } } a off true v)

/-- What a frame as a stream port takes it comes to once its cells are taken and it is recorded (R52, R59). -/
def arrived (s : State) (p : Fin 64) (line : Bool) (len : Nat) (side data : Bytes) : State :=
  (s.takeCells p line (cells len)).rhlFrame p (if line then 1 else 0) len 0 side (data.take len)

/-- The carrier of an outbound frame as it is taken from HS_I (R50). -/
def outCarrier (s : State) (p : Fin 64) (f : HsFrame) : GFrame :=
  { handle := 0, reason := 0, inb := false, port := p, cls := f.cls.toNat, bytes := padTo f.len.toNat f.data, sai := 0xFFFFF,
    tag := 0, arr := s.now (portWing p), queue := 0, saiIn := f.sai.toNat, clsIn := f.cls.toNat, curtain := f.curtain,
    ltime := f.ltime.map BitVec.toNat, resIn := (s.wing (portWing p)).prm.resid }

/-- The addresses of a request's lines (R60). -/
def linesOf (r : AReq) (op : Nat) : List Nat :=
  if op < 2 then (List.range (r.len.toNat + 1)).map (r.addr.toNat + 64 * ·) else []

/-- The access that a request on RQPn A begins, before its lines are checked (R60), as the one of a number. -/
def accessOf (s : State) (q : Fin 4) (r : AReq) (op seq : Nat) : Access :=
  { tid := r.tid.toNat, op := op, mid := r.mid.toNat, world := r.world, kix := r.kix.toNat, cls := r.cls.toNat,
    clsIn := r.cls.toNat, curtain := r.curtain.toNat, gen := (s.wing (rqpWing q)).ush.gen, seq := seq,
    region := none, alen := r.len.toNat, addrs := linesOf r op, at' := s.rt }

/-- The Usher refuses a line (R216). -/
def refusedLine (d : UDec) : Bool :=
  match d with
  | .refuse _ _ _ _ => true
  | .grant _ _ => false

/-- A request as it is recorded, with the number that it takes. -/
def requested (s : State) (q : Fin 4) (r : AReq) (op : Nat) : State :=
  (s.modRqp q fun x => { x with nextSeq := x.nextSeq + 1 }).rhlReq q r op

/-- An access joins those of its port, its lines go to their lanes, and the memory side goes on. -/
def joined (s : State) (q : Fin 4) (a : Access) : State :=
  (((s.modRqp q fun x => { x with accs := x.accs ++ [a] }).admitLines q a).feedEarly 512 q).pump

end Sys2Proof.Safety
end

