-- ==== Sys2Proof/Certificates/Slice0/Obligations.lean ====
section
/-! DEFINITION. The statements about the model. -/

open Sys2Proof Sys2Proof.Machine Sys2Proof.Safety

/-- A step runs the command at the front of the queue, on the state with the queue's rest. -/
def Obligations.StepRunsFront : Prop :=
  ∀ (c : Instr) (rest : List Instr) (s : State), s.pending = c :: rest → step s = exec c { s with pending := rest }

/-! ## System commands (R368, R373 to R375) -/

/-- NOP, CURTAIN, INFO and DIAG_ECHO answer OK; CURTAIN makes the channel's staged effects visible, INFO returns the Script
level, the Stambe version, the DID, the context and the link states, DIAG_ECHO the words it was given. EVT_ROUTE sets the
routes of each wing it names (R373), and DIAG_MARK writes a HOST_MARK event with its three words on each wing's Call Board.
STATS_READ returns the counts of a port, an installed region, a request port or a wing, each in two words, low word
first (R375), where its wing is reached, those of an SA as the serving wing holds it; a port number that names none is NOT_FOUND. -/
def Obligations.SystemCommands : Prop :=
  (∀ (s : State) (ch : Fin 8) (p : Place),
    (Served s ch { op := 0x000, lenMin := 0, lenMax := 0 } p → Answers (exec (.nop ch) s) (took s ch) ch .ok [])
    ∧ (Served s ch { op := 0x001, lenMin := 0, lenMax := 0 } p →
        Answers (exec (.curtain ch) s) ((took s ch).curtain ch) ch .ok [])
    ∧ (Served s ch { op := 0x002, lenMin := 0, lenMax := 0 } p → s.boot.phase = .ready →
        Answers (exec (.info ch) s) (took s ch) ch .ok
          ([wd (s.boot.scriptLevel + s.boot.stambe * 2 ^ 16)] ++ bytesToWords didBytes
            ++ [wd s.vlt.ctx, wd (s.sl.link.code + s.sr.link.code * 4)]))
    ∧ (Served s ch { op := 0x002, lenMin := 0, lenMax := 0 } p → s.boot.phase = .rom →
        Answers (exec (.info ch) s) (took s ch) ch .ok
          ([wd (3 * 2 ^ 16)] ++ bytesToWords didBytes ++ [wd s.vlt.ctx, wd (s.sl.link.code + s.sr.link.code * 4)]))
    ∧ (Served s ch { op := 0x1E0, lenMin := 0, lenMax := 62 } p →
        Answers (exec (.diagEcho ch) s) (took s ch) ch .ok (wordsAt p.words 2 p.len)))
  ∧ (∀ (s : State) (ch : Fin 8) (p : Place),
    (∀ o : OpSpec, o = { op := 0x006, lenMin := 1, lenMax := 1, wing := 1 } → Served s ch o p → wordAt p.words 2 < 2 ^ 20 →
      Answers (exec (.evtRoute ch) s)
        ((p.wings o (home s ch)).foldl (fun t w => t.modWing w fun x => { x with evtRoute := routeOf (wordAt p.words 2) })
          (took s ch)) ch .ok [])
    ∧ (∀ o : OpSpec, o = { op := 0x1E1, lenMin := 3, lenMax := 3, wing := 1 } → Served s ch o p →
      Answers (exec (.diagMark ch) s)
        ((p.wings o (home s ch)).foldl
          (fun t w => t.logWords w (evWords w .hostMark 0 (wordAt p.words 2) (wordAt p.words 3) (wordAt p.words 4) (t.now w)))
          (took s ch)) ch .ok []))
  ∧ (∀ (s : State) (ch : Fin 8) (p : Place) (n : Nat),
    Served s ch { op := 0x008, lenMin := 2, lenMax := 2 } p → wordAt p.words 3 = n →
    (∀ h : n < 64, wordAt p.words 2 = 0 → s.reach (home s ch) (portWing ⟨n, h⟩) = true →
      Answers (exec (.statsRead ch) s) (took s ch) ch .ok (countWords s.ports[(⟨n, h⟩ : Fin 64)].cnt))
    ∧ (∀ x, wordAt p.words 2 = 1 → s.sa (home s ch) n = some x → Answers (exec (.statsRead ch) s) (took s ch) ch .ok (countWords x.cnt))
    ∧ (∀ h : n < 64, wordAt p.words 2 = 3 → s.regions[(⟨n, h⟩ : Fin 64)].st ≠ .notInstalled →
      s.reach (home s ch) s.regions[(⟨n, h⟩ : Fin 64)].d.owner = true →
      Answers (exec (.statsRead ch) s) (took s ch) ch .ok (countWords s.regions[(⟨n, h⟩ : Fin 64)].cnt))
    ∧ (∀ h : n < 4, wordAt p.words 2 = 4 → s.reach (home s ch) (rqpWing ⟨n, h⟩) = true →
      Answers (exec (.statsRead ch) s) (took s ch) ch .ok (countWords s.rqps[(⟨n, h⟩ : Fin 4)].cnt))
    ∧ (n < 2 → wordAt p.words 2 = 5 → s.reach (home s ch) (wingOf n) = true →
      Answers (exec (.statsRead ch) s) (took s ch) ch .ok (countWords (s.wing (wingOf n)).cnt))
    ∧ (wordAt p.words 2 = 0 → 64 ≤ n → Answers (exec (.statsRead ch) s) (took s ch) ch .notFound []))

/-- CHAN_OWN on MBX0 records the owner that its response applies; CHAN_LOCK locks each channel whose bit its word sets; on
another channel both answer NOT_PERMITTED, and CHAN_OWN of a locked channel CHAN_LOCKED (R368). CHAN_MAP, while both wings
are JOINED, maps each channel to the wing that its bit names: at once where the channel has no accepted command to answer,
else once it has (R328); in a partition it answers WING_UNREACHABLE.
Choices of the model in it: assumption 12. -/
def Obligations.Channels : Prop :=
  (∀ (s : State) (ch : Fin 8) (p : Place),
    (Served s 0 { op := 0x003, lenMin := 1, lenMax := 1 } p → wordAt p.words 2 < 256 →
      s.chans[Fin.ofNat 8 (fld (wordAt p.words 2) 2 0)].locked = false →
      Answers (exec (.chanOwn 0) s) ((took s 0).modHead 0 fun x =>
        { x with own := some (Fin.ofNat 8 (fld (wordAt p.words 2) 2 0), fld (wordAt p.words 2) 6 3,
                              bitOf (wordAt p.words 2) 7) }) 0 .ok [])
    ∧ (Served s 0 { op := 0x003, lenMin := 1, lenMax := 1 } p → wordAt p.words 2 < 256 →
      s.chans[Fin.ofNat 8 (fld (wordAt p.words 2) 2 0)].locked = true →
      Answers (exec (.chanOwn 0) s) (took s 0) 0 .chanLocked [])
    ∧ (Served s 0 { op := 0x004, lenMin := 1, lenMax := 1 } p → wordAt p.words 2 < 256 →
      ∃ t, Answers (exec (.chanLock 0) s) t 0 .ok [] ∧ t = { took s 0 with chans := t.chans }
        ∧ ∀ n : Fin 8, t.chans[n] = { (took s 0).chans[n] with
            locked := (took s 0).chans[n].locked || bitOf (wordAt p.words 2) n.val })
    ∧ (ch ≠ 0 → Served s ch { op := 0x003, lenMin := 1, lenMax := 1 } p →
        Answers (exec (.chanOwn ch) s) (took s ch) ch .notPermitted [])
    ∧ (ch ≠ 0 → Served s ch { op := 0x004, lenMin := 1, lenMax := 1 } p →
        Answers (exec (.chanLock ch) s) (took s ch) ch .notPermitted []))
  ∧ (∀ (s : State) (ch : Fin 8) (p : Place),
    Served s ch { op := 0x005, lenMin := 1, lenMax := 1 } p → wordAt p.words 2 < 256 →
    (s.sl.link = .joined → s.sr.link = .joined →
      ∃ t, Answers (exec (.chanMap ch) s) t ch .ok [] ∧ t = { took s ch with chans := t.chans }
        ∧ ∀ n : Fin 8, let w : Wing := if bitOf (wordAt p.words 2) n.val then .sr else .sl
          let c := (took s ch).chans[n]
          t.chans[n] = if c.mapWing = w then { c with mapNext := none }
            else if c.head.isNone then { c with mapWing := w, served := (s.wing w).served, mapNext := none }
            else { c with mapNext := some w })
    ∧ (s.sl.link ≠ .joined → Answers (exec (.chanMap ch) s) (took s ch) ch .wingUnreachable []))

/-! ## Staged settings (R372) -/

/-- The staged commands of a port, each of which needs its wing reached: PORT_CLS_SET, PORT_SP_SET, PTP_SET and MP_TIMEOUT
stage what their words hold; other registers are as they were. The staged settings of a wing, staged for each wing that the
request names: CLOSE_TIMEOUT, MESH_ETYPE, BOX_TTL, GRQ_TIMEOUT, CLASS_SET, PRM_CFG and WEAR_CFG.
Choices of the model in it: assumption 15. -/
def Obligations.StagedSettings : Prop :=
  (∀ (s : State) (ch : Fin 8) (pl : Place) (p : Fin 64) (m : Fin 4),
    (wordAt pl.words 2 = p.val → s.reach (home s ch) (portWing p) = true →
      (Served s ch { op := 0x022, lenMin := 5, lenMax := 5 } pl → portClsOk pl.words 3 = true →
        Answers (exec (.portClsSet ch) s)
          (staging (took s ch) ch (portWing p) (.portCls p (PortCls.ofWords pl.words 3))) ch .ok [])
      ∧ (Served s ch { op := 0x023, lenMin := 4, lenMax := 4 } pl → portSpOk pl.words 3 = true →
        Answers (exec (.portSpSet ch) s)
          (staging (took s ch) ch (portWing p) (.portSp p (PortSp.ofWords pl.words 3))) ch .ok [])
      ∧ (Served s ch { op := 0x165, lenMin := 5, lenMax := 5 } pl → ptpCfgOk pl.words 3 = true →
        Answers (exec (.ptpSet ch) s)
          (staging (took s ch) ch (portWing p) (.ptp p (PtpCfg.ofWords pl.words 3))) ch .ok []))
    ∧ (wordAt pl.words 2 = m.val → s.reach (home s ch) (mpWing m) = true →
      Served s ch { op := 0x027, lenMin := 2, lenMax := 2 } pl → 1 ≤ wordAt pl.words 3 → wordAt pl.words 3 ≤ 1000 →
        Answers (exec (.mpTimeout ch) s) (staging (took s ch) ch (mpWing m) (.mpTimeout m (wordAt pl.words 3))) ch .ok []))
  ∧ (∀ (s : State) (ch : Fin 8) (p : Place) (o : OpSpec),
    (o = { op := 0x028, lenMin := 2, lenMax := 2, wing := 1 } → Served s ch o p → wordAt p.words 2 ≤ 1 →
      10 ≤ wordAt p.words 3 → wordAt p.words 3 ≤ 1000000 →
      Answers (exec (.closeTimeout ch) s)
        (stagingAll s ch o p fun w => .closeTimeout w (bitOf (wordAt p.words 2) 0) (wordAt p.words 3)) ch .ok [])
    ∧ (o = { op := 0x068, lenMin := 1, lenMax := 1, wing := 1 } → Served s ch o p → wordAt p.words 2 < 2 ^ 16 →
      Answers (exec (.meshEtype ch) s) (stagingAll s ch o p fun w => .meshEtype w (wordAt p.words 2)) ch .ok [])
    ∧ (o = { op := 0x085, lenMin := 1, lenMax := 1, wing := 1 } → Served s ch o p → 1 ≤ wordAt p.words 2 →
      wordAt p.words 2 ≤ 600 →
      Answers (exec (.boxTtl ch) s) (stagingAll s ch o p fun w => .boxTtl w (wordAt p.words 2)) ch .ok [])
    ∧ (o = { op := 0x0A4, lenMin := 2, lenMax := 2, wing := 1 } → Served s ch o p → wordAt p.words 2 ≤ 2 →
      100 ≤ wordAt p.words 3 → wordAt p.words 3 ≤ 1000000 →
      Answers (exec (.grqTimeout ch) s)
        (stagingAll s ch o p fun w => .grqTimeout w (Fin.ofNat 3 (wordAt p.words 2)) (wordAt p.words 3)) ch .ok [])
    ∧ (o = { op := 0x0C0, lenMin := 1, lenMax := 1, wing := 1 } → Served s ch o p →
      (ClassCfg.ofWord (wordAt p.words 2)).ok = true →
      Answers (exec (.classSet ch) s)
        (stagingAll s ch o p fun w => .classCfg w (ClassCfg.ofWord (wordAt p.words 2))) ch .ok [])
    ∧ (o = { op := 0x160, lenMin := 4, lenMax := 4, wing := 1 } → Served s ch o p → prmCfgOk p.words 2 = true →
      Answers (exec (.prmCfg ch) s) (stagingAll s ch o p fun w => .prmCfg w (PrmCfg.ofWords p.words 2)) ch .ok [])
    ∧ (o = { op := 0x180, lenMin := 3, lenMax := 3, wing := 1 } → Served s ch o p → wearCfgOk p.words 2 = true →
      s.vlt.lcCode ≠ 4 →
      Answers (exec (.wearCfg ch) s) (stagingAll s ch o p fun w => .wearCfg w (WearCfg.ofWords p.words 2)) ch .ok []))

/-- The two modes of PRM_STEP (R313) and TOUT_SET (R323): SET_OFFSET stages a signed step for each named wing, AT_PPS arms
each at once, and both need a Prompt that is set; TOUT_SET stages a cue of its wing that its checks pass with what its channel has
staged in force. The actions of RHL_SET (R395, R396, R403, R405), staged for each wing named: STOP always; SET_TARGET where the
logger does not record; START_TRACE and START_RECORD in FIELD_SERVICE where it does not record, START_RECORD where a record log may
start, both while the CTR_DRBG gives their LOG_ID (R270).
Choices of the model in it: assumptions 15 and 35. -/
def Obligations.ModeSettings : Prop :=
  (∀ (s : State) (ch : Fin 8) (p : Place) (o : OpSpec),
    (o = { op := 0x162, lenMin := 4, lenMax := 4, wing := 1 } → Served s ch o p → wordAt p.words 2 = 1 →
      wordAt p.words 5 < 2 ^ 16 → (∀ w, w ∈ p.wings o (home s ch) → (s.wing w).prm.st ≠ .unset) →
      Answers (exec (.prmSetOffset ch) s) (stagingAll s ch o p fun w =>
        .setOffset w (toSigned 64 (wordsNat (wordsAt p.words 3 2))) (wordAt p.words 5)) ch .ok [])
    ∧ (o = { op := 0x162, lenMin := 4, lenMax := 4, wing := 1 } → Served s ch o p → wordAt p.words 2 = 0 →
      wordAt p.words 5 < 2 ^ 16 → (∀ w, w ∈ p.wings o (home s ch) → (s.wing w).prm.st ≠ .unset) →
      Answers (exec (.prmAtPps ch) s) ((p.wings o (home s ch)).foldl
        (fun t w => t.modWing w fun x => { x with prm := { x.prm with armed := x.prm.armed + 1 } }) (took s ch)) ch .ok [])
    ∧ (o = { op := 0x163, lenMin := 8, lenMax := 8, wing := 2 } → Served s ch o p → cueClean p.words 2 = true →
      (∀ w, w ∈ p.wings o (home s ch) →
        ((took s ch).view ch).cueStatus w (cueOfWords p.words 2).1 (cueOfWords p.words 2).2 = .ok) →
      Answers (exec (.toutSet ch) s)
        (stagingAll s ch o p fun _ => .cue (cueOfWords p.words 2).1 (cueOfWords p.words 2).2) ch .ok []))
  ∧ (∀ (s : State) (ch : Fin 8) (p : Place) (o : OpSpec),
    o = { op := 0x1A0, lenMin := 31, lenMax := 31, wing := 1 } → Served s ch o p → rhlCfgClean p.words 2 = true →
    (p.rhlAction = 0 → Answers (exec (.rhlStop ch) s) (stagingAll s ch o p fun w => .rhlStop w) ch .ok [])
    ∧ (p.rhlAction = 1 → s.vlt.lcCode = 5 → s.vlt.drbgOk = true → (∀ w, w ∈ p.wings o (home s ch) → (s.wing w).rhl.busy = false) →
      Answers (exec (.rhlStartTrace ch) s)
        (stagingAll s ch o p fun w => .rhlStart w (RhlCfg.ofWords p.words 2)) ch .ok [])
    ∧ (p.rhlAction = 2 → s.vlt.lcCode = 5 → s.vlt.drbgOk = true →
      (∀ w, w ∈ p.wings o (home s ch) → (s.wing w).rhl.busy = false ∧ (took s ch).recordOk w = true) →
      Answers (exec (.rhlStartRecord ch) s)
        (stagingAll s ch o p fun w => .rhlStart w (RhlCfg.ofWords p.words 2)) ch .ok [])
    ∧ (p.rhlAction = 3 → (∀ w, w ∈ p.wings o (home s ch) → (s.wing w).rhl.busy = false) → Answers (exec (.rhlSetTarget ch) s) (stagingAll s ch o p fun w =>
        .rhlTarget w (wordsToBytes (wordsAt p.words 5 4)) (wordsToBytes (wordsAt p.words 9 24))) ch .ok []))

/-- A curtain applies what is staged on its channel, in order, for each wing that the serving wing is JOINED with, and for
the serving wing itself; the rest stays staged (R336, R372). What staged settings write when they become visible, and
nothing else. A staged install makes its SA; where another channel's install of that SAI is in force by then, the later prevails as
a whole, and a close of the SA that goes on does so.
Choices of the model in it: assumption 15. -/
def Obligations.CurtainApplies : Prop :=
  (∀ (s : State) (ch : Fin 8),
    ((s.wing (home s ch)).link = .joined →
      s.curtain ch = s.chans[ch].staged.foldl (fun t e => t.applyEff e.1 e.2) (s.modChan ch fun c => { c with staged := [] }))
    ∧ ((s.wing (home s ch)).link ≠ .joined →
      s.curtain ch = (s.chans[ch].staged.filter fun e => e.1 = home s ch).foldl (fun t e => t.applyEff e.1 e.2)
        (s.modChan ch fun c => { c with staged := c.staged.filter fun e => e.1 ≠ home s ch })))
  ∧ (∀ (s : State) (w w' : Wing) (p : Fin 64) (m : Fin 4) (q : Fin 3) (n : Nat),
    (∀ c, s.applyEff w (.portCls p c) = s.modPort p fun x => { x with cls := c })
    ∧ (∀ c, s.applyEff w (.portSp p c) = s.modPort p fun x => { x with sp := c })
    ∧ (∀ c, s.applyEff w (.ptp p c) = s.modPort p fun x => { x with ptp := { c with asym := x.ptp.asym } })
    ∧ s.applyEff w (.mpTimeout m n) = s.modMp m (fun x => { x with timeout := n })
    ∧ s.applyEff w (.closeTimeout w' true n) = s.modWing w' (fun x => { x with regTimeout := n })
    ∧ s.applyEff w (.closeTimeout w' false n) = s.modWing w' (fun x => { x with saTimeout := n })
    ∧ s.applyEff w (.meshEtype w' n) = s.modWing w' (fun x => { x with meshEtype := n })
    ∧ s.applyEff w (.boxTtl w' n) = s.modWing w' (fun x => { x with unkeyedTtl := n })
    ∧ s.applyEff w (.grqTimeout w' q n)
      = s.modWing w' (fun x => { x with grq := { x.grq with timeout := x.grq.timeout.set q n } })
    ∧ (∀ c, s.applyEff w (.prmCfg w' c) = s.modWing w' fun x => { x with prm := { x.prm with cfg := c } })
    ∧ (∀ c, s.applyEff w (.wearCfg w' c) = s.modWing w' fun x => { x with wearCfg := c })
    ∧ (∀ sai r, s.sa w sai = none → s.applyEff w (.saInstall sai r n) = s.installSa w sai r n)
    ∧ (∀ sai r x, s.sa w sai = some x → ∃ y, (s.applyEff w (.saInstall sai r n)).sa w sai = some y ∧ y.r = r ∧ y.pn = n
        ∧ y.st = if x.st = .closing then .closing else .active))

/-! ## Ports (R48, R53, R54, R343 to R345) -/

/-- PORT_OPEN of a closed port that is present opens it: the sender's credits are topped up to 384 cells on each input that has
not failed, at once or, in a hold, once credits are given again (R293); its settings and counts stay, and no other register changes;
an open port stays as it is (R53, R54, R345). While the unit enters sleep the port it opens closes at once, as every open port does
(R420). PORT_CLOSE: a closed port answers at once; an open one closes, and the command waits for its CLOSED; with FORCE the forced
close is applied at once (R343, R344). A close begins by the state CLOSING, at this moment of RT, of that port alone; beside it only
the wings' state, where a grant is recorded, may change. PORT_GET returns the state and settings that its channel sees. RQP_OPEN and
RQP_CLOSE do the same for a request port (R49).
Choices of the model in it: assumptions 14 and 48. -/
def Obligations.PortCommands : Prop :=
  (∀ (s : State) (ch : Fin 8) (pl : Place) (p : Fin 64), Served s ch { op := 0x020, lenMin := 1, lenMax := 1 } pl →
    wordAt pl.words 2 = p.val → s.reach (home s ch) (portWing p) = true → s.vlt.ironHeld = false → s.vlt.lcCode ≠ 6 →
    (s.wing (portWing p)).rhl.st ≠ .snapshot → (s.wing (portWing p)).rhl.st ≠ .replaying → s.ports[p].absent = false →
    (s.ports[p].st = .closed → s.pwr.entering = false →
      ∃ x : Port, Answers (exec (.portOpen ch) s) ((took s ch).modPort p fun _ => x) ch .ok []
        ∧ x = { s.ports[p] with
                  st := .opened
                  forced := false
                  mixed := false
                  hsINotOpen := false
                  lsINotOpen := false
                  pulses := x.pulses
                  hsIUsed := x.hsIUsed
                  lsIUsed := x.lsIUsed
                  hsIHeld := x.hsIHeld
                  lsIHeld := x.lsIHeld }
        ∧ (s.taking (portWing p) = true → x.hsIUsed = 0 ∧ x.lsIUsed = 0
          ∧ x.hsIHeld = (if s.ports[p].hsIFail then s.ports[p].hsIHeld else max s.ports[p].hsIHeld 384)
          ∧ x.lsIHeld = (if s.ports[p].lsIFail then s.ports[p].lsIHeld else max s.ports[p].lsIHeld 384))
        ∧ (s.taking (portWing p) = false → x.hsIHeld = s.ports[p].hsIHeld ∧ x.lsIHeld = s.ports[p].lsIHeld
          ∧ x.hsIUsed = (if s.ports[p].hsIFail then 0 else 384 - s.ports[p].hsIHeld)
          ∧ x.lsIUsed = (if s.ports[p].lsIFail then 0 else 384 - s.ports[p].lsIHeld)))
    ∧ (s.ports[p].st = .closed → s.pwr.entering = true →
      ∃ t, Answers (exec (.portOpen ch) s) t ch .ok [] ∧ t = { took s ch with ports := t.ports, sl := t.sl, sr := t.sr }
        ∧ t.ports[p].st = .closing ∧ t.ports[p].closeAt = s.rt ∧ ∀ q : Fin 64, q ≠ p → t.ports[q] = s.ports[q])
    ∧ (s.ports[p].st = .opened → Answers (exec (.portOpen ch) s) (took s ch) ch .ok [])
    ∧ (s.ports[p].st = .closing → Answers (exec (.portOpen ch) s) (took s ch) ch .unitClosing []))
  ∧ (∀ (s : State) (ch : Fin 8) (pl : Place) (p : Fin 64), wordAt pl.words 2 = p.val → s.reach (home s ch) (portWing p) = true →
    (Served s ch { op := 0x021, lenMin := 1, lenMax := 1, close := true } pl →
      (s.ports[p].st = .closed → Answers (exec (.portClose ch) s) (took s ch) ch .ok [])
      ∧ (s.ports[p].st = .opened → pl.force = false →
        Waits (exec (.portClose ch) s) ((took s ch).startPortClose p) ch (.port p))
      ∧ (s.ports[p].st ≠ .closed → pl.force = true →
        Answers (exec (.portClose ch) s) ((took s ch).forcePort p) ch .ok []))
    ∧ (Served s ch { op := 0x024, lenMin := 1, lenMax := 1 } pl →
      Answers (exec (.portGet ch) s) (took s ch) ch .ok
        (wd (((took s ch).view ch).ports[p]).code :: (((took s ch).view ch).ports[p]).cls.words ++ (((took s ch).view ch).ports[p]).sp.words
          ++ (((took s ch).view ch).ports[p]).ptp.words)))
  ∧ (∀ (s : State) (ch : Fin 8) (pl : Place) (q : Fin 4), wordAt pl.words 2 = q.val → s.reach (home s ch) (rqpWing q) = true →
    (Served s ch { op := 0x025, lenMin := 1, lenMax := 1 } pl → s.vlt.ironHeld = false →
      (s.wing (rqpWing q)).rhl.st ≠ .snapshot → (s.wing (rqpWing q)).rhl.st ≠ .replaying → s.rqps[q].rst = false →
      s.rqps[q].struck = false →
      (s.rqps[q].st = .closed → s.pwr.entering = false →
        Answers (exec (.rqpOpen ch) s) ((took s ch).modRqp q fun x => { x with st := .opened, forced := false }) ch .ok [])
      ∧ (s.rqps[q].st = .closed → s.pwr.entering = true →
        Answers (exec (.rqpOpen ch) s)
          (((took s ch).modRqp q fun x => { x with st := .opened, forced := false }).startRqpClose q) ch .ok [])
      ∧ (s.rqps[q].st = .opened → Answers (exec (.rqpOpen ch) s) (took s ch) ch .ok []))
    ∧ (Served s ch { op := 0x025, lenMin := 1, lenMax := 1 } pl → s.vlt.ironHeld = true →
      Answers (exec (.rqpOpen ch) s) (took s ch) ch .ironHeld [])
    ∧ (Served s ch { op := 0x026, lenMin := 1, lenMax := 1, close := true } pl →
      (s.rqps[q].st = .closed → Answers (exec (.rqpClose ch) s) (took s ch) ch .ok [])
      ∧ (s.rqps[q].st = .opened → pl.force = false →
        Waits (exec (.rqpClose ch) s) ((took s ch).startRqpClose q) ch (.rqp q))
      ∧ (s.rqps[q].st ≠ .closed → pl.force = true →
        Answers (exec (.rqpClose ch) s) ((took s ch).forceRqp q) ch .ok [])))
  ∧ (∀ (s t : State) (p : Fin 64), s.ports[p].st = .opened → t = s.startPortClose p →
    t = { s with ports := t.ports, sl := t.sl, sr := t.sr } ∧ t.ports[p] = { s.ports[p] with st := .closing, closeAt := s.rt }
      ∧ ∀ q : Fin 64, q ≠ p → t.ports[q] = s.ports[q])
  ∧ (∀ (s t : State) (q : Fin 4), s.rqps[q].st = .opened → t = s.startRqpClose q →
    t = { s with rqps := t.rqps, sl := t.sl, sr := t.sr } ∧ t.rqps[q] = { s.rqps[q] with st := .closing, closeAt := s.rt }
      ∧ ∀ r : Fin 4, r ≠ q → t.rqps[r] = s.rqps[r])

/-! ## Security associations (R119 to R122, R138, R139, R144) -/

/-- SA_INSTALL of a record within R119 whose key is a session key that suits it and that no other SA names stages the SA for
each of its wings; nothing else changes; the key is one that need not be read back first (R249). SA_MODIFY stages the change for each wing's copy; SA_READ returns the serving
wing's copy as its channel sees it, and asks the store for a record that is not resident.
Choices of the model in it: assumptions 15, 19 and 46. -/
def Obligations.SaRecords : Prop :=
  (∀ (s : State) (ch : Fin 8) (pl : Place) (sai j pn : Nat) (r : SaRec) (k : Key),
    Served s ch { op := 0x040, lenMin := 33, lenMax := 33 } pl → wordAt pl.words 2 = sai → sai < 2 ^ 20 →
    saClean (wordsAt pl.words 3 32) = true → SaRec.ofWords (wordsAt pl.words 3 32) = (r, pn) → saRecOk sai r pn = true →
    (∀ w ∈ r.wings, s.reach (home s ch) w = true ∧ (s.wing w).store.isSome = true
      ∧ (r.pin = true → (took s ch).pinRoom ch w sai = true)) →
    ((took s ch).view ch).saCopies sai = [] → kLoc r.keyRef = some (.sess j) → s.vlt.keyAt (.sess j) = some k →
    s.bad (.key (home s ch) 1 j) = false → s.isSpilled (home s ch) (.sess j) = false →
    (s.wing (home s ch)).klost.contains j = false → saSuiteOk r k.attr = true → (took s ch).keyNamed sai r.keyRef = false →
    k.allows .stream s.vlt.lcCode none = true → k.ended s.rt = false →
    Answers (exec (.saInstall ch) s)
      ((took s ch).modChan ch fun c => { c with staged := c.staged ++ r.wings.map fun w => (w, .saInstall sai r pn) }) ch .ok [])
  ∧ (∀ (s : State) (ch : Fin 8) (pl : Place) (sai : Nat) (xs : List (Wing × Sa)),
    wordAt pl.words 2 = sai → sai < 2 ^ 20 → ((took s ch).view ch).saCopies sai = xs → xs ≠ [] →
    (∀ x ∈ xs, s.reach (home s ch) x.1 = true) →
    (∀ (mask pn : Nat) (r : SaRec), Served s ch { op := 0x041, lenMin := 34, lenMax := 34 } pl → wordAt pl.words 3 = mask →
      mask < 2 ^ 9 → saClean (wordsAt pl.words 4 32) = true → SaRec.ofWords (wordsAt pl.words 4 32) = (r, pn) →
      (∀ x ∈ xs, x.2.modifyOk sai mask r pn = true
        ∧ (bitOf mask 7 = true → r.pin = true → (took s ch).pinRoom ch x.1 sai = true)) →
      Answers (exec (.saModify ch) s)
        ((took s ch).modChan ch fun c => { c with staged := c.staged ++ xs.map fun x => (x.1, .saModify sai mask r pn) })
        ch .ok [])
    ∧ (∀ x, Served s ch { op := 0x042, lenMin := 1, lenMax := 1 } pl → ((took s ch).view ch).sa (home s ch) sai = some x →
      Answers (exec (.saRead ch) s) ((took s ch).needSa (home s ch) sai) ch .ok (x.words (s.bad (.sa (home s ch) sai)))))

/-- SA_SWITCH of active copies that have not switched and whose next SA is valid switches each; SA_CLOSE starts the close of
each copy and waits, or with FORCE closes each at once; SA_REMOVE takes each closed copy out of its wing (R138, R139, R144).
An SA that starts to close is CLOSING from that moment of RT on, which its close timeout counts from.
Choices of the model in it: assumptions 19 and 46. -/
def Obligations.SaSwitchClose : Prop :=
  (∀ (t : State) (w : Wing) (sai : Nat) (x : Sa), t.sa w sai = some x → x.st = .active →
    (t.startSaClose w sai).sa w sai = some { x with st := .closing, closeAt := t.rt }) ∧
  ∀ (s : State) (ch : Fin 8) (pl : Place) (sai : Nat) (xs : List (Wing × Sa)),
    wordAt pl.words 2 = sai → sai < 2 ^ 20 → s.saCopies sai = xs → xs ≠ [] → (∀ x ∈ xs, s.reach (home s ch) x.1 = true) →
    (Served s ch { op := 0x043, lenMin := 1, lenMax := 1 } pl →
      (∀ x ∈ xs, x.2.st = .active ∧ x.2.switched = false ∧ x.2.r.inb = false ∧ x.2.r.nextValid = true
        ∧ (took s ch).nextOk x.1 x.2.r.nextSai none = true) →
      Answers (exec (.saSwitch ch) s) (xs.foldl (fun t x => t.switchSa x.1 sai x.2.r.nextSai) (took s ch)) ch .ok [])
    ∧ (Served s ch { op := 0x044, lenMin := 1, lenMax := 1, close := true } pl →
      ((∀ x ∈ xs, x.2.st = .closed) → Answers (exec (.saClose ch) s) (took s ch) ch .ok [])
      ∧ ((∃ x ∈ xs, x.2.st ≠ .closed) → pl.force = false →
        Waits (exec (.saClose ch) s) (xs.foldl (fun t x => t.startSaClose x.1 sai) (took s ch)) ch (.sa sai))
      ∧ ((∃ x ∈ xs, x.2.st ≠ .closed) → pl.force = true →
        Answers (exec (.saClose ch) s) (xs.foldl (fun t x => t.forceSa x.1 sai) (took s ch)) ch .ok []))
    ∧ (Served s ch { op := 0x045, lenMin := 1, lenMax := 1 } pl →
      ((∀ x ∈ xs, x.2.st = .closed) →
        Answers (exec (.saRemove ch) s) (xs.foldl (fun t x =>
          let t := t.modWing x.1 fun y => { y with sas := tdel y.sas sai }
          { t with upsets := t.upsets.filter (· ≠ .sa x.1 sai) }) (took s ch)) ch .ok [])
      ∧ ((∃ x ∈ xs, x.2.st ≠ .closed) → Answers (exec (.saRemove ch) s) (took s ch) ch .unitClosing []))

/-! ## The policy trie (R93 to R98) -/

/-- PT_STAGE and GROUP_SET add one staged change in each wing named that has fewer than 4,096; PT_DISCARD drops them. The reads of the trie and the rewriting of one entry of the bank in force (R93, R97, R98), each for the one wing named.
Choices of the model in it: assumption 30. -/
def Obligations.TrieStagesAndReads : Prop :=
  (∀ (s : State) (ch : Fin 8) (p : Place) (o : OpSpec),
    (∀ w, w ∈ p.wings o (home s ch) → (s.wing w).trie.staged.length < 4096) →
    (o = { op := 0x060, lenMin := 7, lenMax := 7, wing := 1 } → Served s ch o p → fld (wordAt p.words 2) 7 1 = 0 →
      fld (wordAt p.words 2) 31 16 = 0 → fld (wordAt p.words 2) 15 8 ≤ 128 →
      keyClean (fld (wordAt p.words 2) 15 8) (beNat (wordsToBytes (wordsAt p.words 3 4))) = true →
      policyOk p.words 7 = true →
      Answers (exec (.ptStage ch) s) ((p.wings o (home s ch)).foldl (fun t w => t.modTrie w fun x =>
        { x with staged := x.staged ++ [if bitOf (wordAt p.words 2) 0
            then .remove (fld (wordAt p.words 2) 15 8) (beNat (wordsToBytes (wordsAt p.words 3 4)))
            else .add (fld (wordAt p.words 2) 15 8) (beNat (wordsToBytes (wordsAt p.words 3 4)))
              (Policy.ofWords p.words 7)] }) (took s ch)) ch .ok [])
    ∧ (o = { op := 0x061, lenMin := 33, lenMax := 33, wing := 1 } → Served s ch o p → wordAt p.words 2 < 2 ^ 12 →
      (∀ m ∈ wordsAt p.words 3 32, m.toNat < 2 ^ 20) →
      Answers (exec (.groupSet ch) s) ((p.wings o (home s ch)).foldl (fun t w => t.modTrie w fun x =>
        { x with staged := x.staged ++ [.group (wordAt p.words 2) ((wordsAt p.words 3 32).map BitVec.toNat)] })
          (took s ch)) ch .ok [])
    ∧ (o = { op := 0x063, lenMin := 0, lenMax := 0, wing := 1 } → Served s ch o p →
      Answers (exec (.ptDiscard ch) s) ((p.wings o (home s ch)).foldl (fun t w => t.modTrie w fun x =>
        { x with staged := [] }) (took s ch)) ch .ok []))
  ∧ (∀ (s : State) (ch : Fin 8) (p : Place) (w : Wing) (o : OpSpec), p.wings o (home s ch) = [w] →
    (∀ stage node pre first n, o = { op := 0x064, lenMin := 2, lenMax := 2, wing := 2 } → Served s ch o p →
      wordAt p.words 2 = stage + node * 16 → wordAt p.words 3 = first + n * 256 → stage ≤ 14 → node < 2 ^ 14 →
      (stage = 0 → node < 256) → 1 ≤ n → n ≤ 30 → first + n ≤ 256 → first < 256 → 
      (s.wing w).trie.cur.find stage node = some pre →
      Answers (exec (.ptRead ch) s) (took s ch) ch .ok
        (s.entryWords w (s.wing w).trie.cur true stage node pre first n))
    ∧ (∀ stage node ix, o = { op := 0x065, lenMin := 4, lenMax := 4, wing := 2 } → Served s ch o p →
      wordAt p.words 2 = stage + node * 16 → wordAt p.words 3 = ix → stage ≤ 14 → node < 2 ^ 14 →
      (stage = 0 → node < 256) → ix < 256 → tentOk p.words 4 = true → ((s.wing w).trie.cur.find stage node).isSome = true →
      ∃ t, Answers (exec (.ptWriteEntry ch) s) t ch .ok []
        ∧ (t.wing w).trie.cur = (s.wing w).trie.cur.rewrite stage node ix (TEnt.ofWords p.words 4)
        ∧ t.upsets.contains (.trie w stage node ix) = false ∧ t.wing (otherWing w) = s.wing (otherWing w)
        ∧ t = { took s ch with sl := t.sl, sr := t.sr, upsets := t.upsets })
    ∧ (∀ x, o = { op := 0x066, lenMin := 1, lenMax := 1, wing := 2 } → Served s ch o p → wordAt p.words 2 < 2 ^ 17 →
      (s.wing w).trie.cur.policyAt (wordAt p.words 2) = some x →
      Answers (exec (.ptPolicy ch) s) (took s ch) ch .ok x.words)
    ∧ (o = { op := 0x067, lenMin := 0, lenMax := 0, wing := 2 } → Served s ch o p →
      Answers (exec (.ptStatus ch) s) (took s ch) ch .ok
        ((s.wing w).trie.result ++ [wd (s.wing w).trie.staged.length, wd (b2n (s.wing w).trie.commit.isSome)])))

/-- PT_COMMIT of one wing, where no commit is in progress and the version that the staged changes make can be built, builds it
beside the version in force and waits; the switch, while no bank is being copied, puts it in force with the version before kept; the report frees that one
and answers with the prefix and node counts (R96, R97).
Choices of the model in it: assumption 30. -/
def Obligations.TrieCommits : Prop :=
  ∀ (s : State) (ch : Fin 8) (p : Place) (w : Wing),
    (Served s ch { op := 0x062, lenMin := 0, lenMax := 0, wing := 3 } p →
      p.wings { op := 0x062, lenMin := 0, lenMax := 0, wing := 3 } (home s ch) = [w] →
      (s.wing w).trie.commit = none → (s.wing w).trie.copying = [] →
      buildStatus (s.wing w).trie.cur ((s.wing w).trie.cur.build (s.wing w).trie.staged) = .ok →
      Waits (exec (.ptCommit ch) s) ((took s ch).modTrie w fun t =>
        { t with
            other := some ((s.wing w).trie.cur.build (s.wing w).trie.staged)
            staged := []
            commit := some false
            commitCh := some ch
            wrote := (s.wing w).trie.staged.filterMap fun c => match c with
              | .group g _ => some g
              | _ => none }) ch (.ptCommit w false []))
    ∧ (∀ v, (s.wing w).trie.commit = some false → (s.wing w).trie.other = some v → (s.wing w).trie.copying = [] →
      ∃ t, exec (.trieSwitch w) s = .next t ∧ (t.wing w).trie.cur = v ∧ (t.wing w).trie.other = some (s.wing w).trie.cur
        ∧ (t.wing w).trie.bank = !(s.wing w).trie.bank ∧ (t.wing w).trie.commit = some true
        ∧ (∀ g m, (s.wing w).trie.wrote.contains g = true → t.upsets.contains (.group w g m) = false)
        ∧ t = { s with sl := t.sl, sr := t.sr, upsets := t.upsets } ∧ t.wing (otherWing w) = s.wing (otherWing w))
    ∧ (∀ res, (s.wing w).trie.commit = some true → (s.wing w).trie.commitCh = some ch →
      s.chans[ch].waiting = some (.ptCommit w false res) →
      ∃ u, u = s.modTrie w (fun t => { t with other := none, commit := none, commitCh := none, oldBad := [] })
        ∧ exec (.trieCommitComplete w) s = .next (State.nextCommit 9 w (u.finish ch .ok (res ++ (u.wing w).trie.result))))

/-! ## The Box Office and the Green Room (R101 to R108, R113 to R115) -/

/-- BOX_INSERT of a well-formed entry asks the insertion arbiter of its wing and waits, in place of any earlier request of
its channel; a malformed one answers BOX_INVALID and nothing changes (R105). BOX_UPDATE, BOX_REMOVE and BOX_LOOKUP of a
well-formed key act on the entry that a lookup finds, and answer NOT_FOUND where none is; BOX_READ_SLOT returns the slot at
a locator, zeros where it is empty (R102, R108).
Choices of the model in it: assumption 16. -/
def Obligations.BoxOffice : Prop :=
  (∀ (s : State) (ch : Fin 8) (p : Place) (w : Wing) (o : OpSpec), o = { op := 0x080, lenMin := 8, lenMax := 8, wing := 2 } →
    Served s ch o p → p.wings o (home s ch) = [w] →
    (boxEntOk p.words 2 = true →
      ∃ t u : State, Waits (exec (.boxInsert ch) s) u ch .box
        ∧ u = t.modWing w (fun x => { x with box := { x.box with reqs := x.box.reqs ++ [.command ch (boxGiven p.words 2)] } })
        ∧ t = { took s ch with sl := { s.sl with box := { s.sl.box with reqs := t.sl.box.reqs } },
                               sr := { s.sr with box := { s.sr.box with reqs := t.sr.box.reqs } } }
        ∧ (∀ v r, r ∈ (t.wing v).box.reqs ↔ r ∈ (s.wing v).box.reqs ∧ ∀ e, r ≠ .command ch e))
    ∧ (boxEntOk p.words 2 = false → Answers (exec (.boxInsert ch) s) (took s ch) ch .boxInvalid []))
  ∧ (∀ (s : State) (ch : Fin 8) (p : Place) (w : Wing) (o : OpSpec), Served s ch o p → p.wings o (home s ch) = [w] →
    (∀ e slot old, o = { op := 0x081, lenMin := 8, lenMax := 8, wing := 1 } → boxEntOk p.words 2 = true →
      boxGiven p.words 2 = e → (took s ch).boxFind w e.ktype e.key = some (slot, old) →
      ∃ new, new = { old with state := e.state, sai := e.sai, port := e.port, lock := e.lock, conflict := false }
        ∧ Answers (exec (.boxUpdate ch) s) ((took s ch).modWing w fun x =>
          { x with box := { x.box with slots := tput x.box.slots slot new } }) ch .ok [])
    ∧ (∀ e slot old, o = { op := 0x082, lenMin := 8, lenMax := 8, wing := 1 } → boxNamed p.words 2 = true →
      BoxEnt.ofWords p.words 2 = e → (took s ch).boxFind w e.ktype e.key = some (slot, old) →
      Answers (exec (.boxRemove ch) s) ((took s ch).modWing w fun x =>
        { x with box := { x.box with slots := tdel x.box.slots slot } }) ch .ok [])
    ∧ (∀ e slot x, o = { op := 0x083, lenMin := 8, lenMax := 8, wing := 2 } → boxNamed p.words 2 = true →
      BoxEnt.ofWords p.words 2 = e → (took s ch).boxFind w e.ktype e.key = some (slot, x) →
      Answers (exec (.boxLookup ch) s) (took s ch) ch .ok (x.words false ++ [wd (locator slot)]))
    ∧ (∀ e, o = { op := 0x083, lenMin := 8, lenMax := 8, wing := 2 } → boxNamed p.words 2 = true →
      BoxEnt.ofWords p.words 2 = e → (took s ch).boxFind w e.ktype e.key = none →
      Answers (exec (.boxLookup ch) s) (took s ch) ch .notFound [])
    ∧ (∀ e, o = { op := 0x081, lenMin := 8, lenMax := 8, wing := 1 } → boxEntOk p.words 2 = true →
      boxGiven p.words 2 = e → (took s ch).boxFind w e.ktype e.key = none →
      Answers (exec (.boxUpdate ch) s) (took s ch) ch .notFound [])
    ∧ (∀ e, o = { op := 0x082, lenMin := 8, lenMax := 8, wing := 1 } → boxNamed p.words 2 = true →
      BoxEnt.ofWords p.words 2 = e → (took s ch).boxFind w e.ktype e.key = none →
      Answers (exec (.boxRemove ch) s) (took s ch) ch .notFound [])
    ∧ (∀ slot, o = { op := 0x084, lenMin := 1, lenMax := 1, wing := 2 } → ofLocator (wordAt p.words 2) = some slot →
      Answers (exec (.boxReadSlot ch) s) (took s ch) ch .ok
        (((tget (s.wing w).box.slots slot).getD { ktype := 0, state := 0, port := 0, key := [] }).words (s.bad (.box w slot)))))

/-- The Green Room commands of one wing: GRQ_LIST returns up to seven descriptors from an index on, with the queue's length;
GRQ_READ up to 240 bytes of a held frame; GRQ_DROP takes it out; a handle that names no frame is GRQ_GONE (R114, R115).
GRQ_RELEASE of a held frame whose port is open takes it out of the Green Room: an inbound frame is looked up again, an
outbound one is admitted again, under the SAI given where one is (R115), once its port's staging has room (R134), where none
released before it waits; without a frame of that handle it is GRQ_GONE.
Choices of the model in it: assumption 17. -/
def Obligations.GreenRoom : Prop :=
  (∀ (s : State) (ch : Fin 8) (p : Place) (w : Wing) (o : OpSpec), Served s ch o p → p.wings o (home s ch) = [w] →
    (o = { op := 0x0A0, lenMin := 2, lenMax := 2, wing := 2 } → wordAt p.words 2 ≤ 2 →
      ∃ fs out, fs = (s.wing w).grq.frames.filter (fun f => f.queue = wordAt p.words 2)
        ∧ out = (fs.drop (wordAt p.words 3)).take 7
        ∧ Answers (exec (.grqList ch) s) (took s ch) ch .ok (wd (out.length + fs.length * 2 ^ 16) :: out.flatMap GFrame.words))
    ∧ (∀ f, o = { op := 0x0A1, lenMin := 2, lenMax := 2, wing := 2 } → wordAt p.words 2 < 2 ^ 16 → wordAt p.words 3 < 2 ^ 14 →
      (s.wing w).grq.held (wordAt p.words 2) = some f →
      Answers (exec (.grqRead ch) s) (took s ch) ch .ok
        (wd ((f.bytes.drop (wordAt p.words 3)).take 240).length :: bytesToWords ((f.bytes.drop (wordAt p.words 3)).take 240)))
    ∧ (∀ f, o = { op := 0x0A2, lenMin := 1, lenMax := 1, wing := 2 } → wordAt p.words 2 < 2 ^ 16 →
      (s.wing w).grq.held (wordAt p.words 2) = some f →
      Answers (exec (.grqDrop ch) s) ((took s ch).modWing w fun x =>
        { x with grq := { x.grq with frames := x.grq.frames.filter fun f => f.handle ≠ wordAt p.words 2 } }) ch .ok [])
    ∧ (o = { op := 0x0A2, lenMin := 1, lenMax := 1, wing := 2 } → wordAt p.words 2 < 2 ^ 16 →
      (s.wing w).grq.held (wordAt p.words 2) = none → Answers (exec (.grqDrop ch) s) (took s ch) ch .grqGone []))
  ∧ (∀ (s : State) (ch : Fin 8) (p : Place) (w : Wing) (f : GFrame), let o : OpSpec := { op := 0x0A3, lenMin := 2, lenMax := 2, wing := 2 }
    Served s ch o p → p.wings o (home s ch) = [w] → wordAt p.words 2 < 2 ^ 16 → wordAt p.words 3 < 2 ^ 21 →
    ((s.wing w).grq.held (wordAt p.words 2) = some f → s.ports[f.port].absent = false → s.ports[f.port].st = .opened →
      s.vlt.hold = false →
      ∀ (t : State) (g : GFrame), t = (took s ch).grqTake w (wordAt p.words 2) →
      (f.inb = true → g = { f with reason := 0, tag := 0, sai := 0xFFFFF, cls := 0 }) →
      (f.inb = false → g = { f with
        reason := 0
        tag := 0
        sai := 0xFFFFF
        cls := f.clsIn
        saiIn := if bitOf (wordAt p.words 3) 20 then fld (wordAt p.words 3) 19 0 else f.saiIn }) →
      (s.ports[f.port].readmit = [] → s.readmitFits g = true →
        (f.inb = true → Answers (exec (.grqRelease ch) s) (t.takeIn g) ch .ok [])
        ∧ (f.inb = false → Answers (exec (.grqRelease ch) s) (t.selectFrame g) ch .ok []))
      ∧ (s.ports[f.port].readmit = [] → s.readmitFits g = false →
        Answers (exec (.grqRelease ch) s) (t.modPort f.port fun x => { x with readmit := [g] }) ch .ok []))
    ∧ ((s.wing w).grq.held (wordAt p.words 2) = none → Answers (exec (.grqRelease ch) s) (took s ch) ch .grqGone []))

/-! ## Lanes and regions (R152, R175 to R179, R190, R211) -/

/-- REGION_INSTALL of a region that passes the checks of R176 puts an UNPROTECTED or a new keyed one in INIT, and makes one
that resumes from its record ACTIVE with the record's root; STORE_SET installs a wing's SA store or the spill region.
Choices of the model in it: assumption 29. -/
def Obligations.RegionInstalls : Prop :=
  ∀ (s : State) (ch : Fin 8) (p : Place) (r : Fin 64) (d : RDesc),
    s.vlt.ironHeld = false → s.vlt.lcCode ≠ 6 → s.reach (home s ch) d.owner = true → s.regions[r].st = .notInstalled →
    (took s ch).rdescOk d = true → areasClash ((took s ch).areas d) = false →
    (∀ a ∈ (took s ch).areas d, ∀ x ∈ s.installed, ∀ b ∈ (took s ch).areas x.d, areasMeet a b = false) →
    (d.mode ≠ 0 → s.protectedBytes + (d.last + 1 - d.base) ≤ 2 ^ 36) →
    (d.mode ≠ 0 → d.pin = true → s.pinnedBytes d.owner + (d.last + 1 - d.base) ≤ 2 ^ 28) →
    (Served s ch { op := 0x0E0, lenMin := 16, lenMax := 16 } p → rdescOfWords p.words 2 = (r, d) →
      rdescClean p.words 2 = true →
      (d.mode = 0 → d.resume = false → Answers (exec (.regionInstall ch) s)
        ((took s ch).modRegion r fun x => { st := .init, d := d, use := .host, cnt := x.cnt }) ch .ok [])
      ∧ (∀ k, d.mode ≠ 0 → fld d.treeKey 23 22 = 1 → fld d.treeKey 21 12 = 0 →
        (took s ch).slotKey d.owner (fld d.treeKey 11 0) = (some k, took s ch) →
        k.allows .memory s.vlt.lcCode none = true → k.ended s.rt = false →
        (d.resume = false → Answers (exec (.regionInstall ch) s)
          ((took s ch).modRegion r fun x => { st := .init, d := d, use := .host, cnt := x.cnt }) ch .ok [])
        ∧ (d.resume = true → (s.vlt.regionRec r.val).drop 8 = s.descCheck r d →
          ∃ t, Answers (exec (.regionInstall ch) s) t ch .ok [] ∧ t.regions[r].st = .active ∧ t.regions[r].d = d
            ∧ t.regions[r].root = leNat ((s.vlt.regionRec r.val).take 8) ∧ t.regions[r].cnt = s.regions[r].cnt
            ∧ t.regions[r].badMeta = s.regions[r].badMeta
            ∧ (∀ q : Fin 64, q ≠ r → t.regions[q] = s.regions[q])
            ∧ t = { took s ch with regions := t.regions, sl := t.sl, sr := t.sr })))
    ∧ (∀ d0, Served s ch { op := 0x007, lenMin := 17, lenMax := 17 } p → rdescOfWords p.words 2 = (r, d0) →
      d = { d0 with treeKey := 0 } → rdescClean p.words 2 = true → d.mode = 2 → d.resume = false →
      272 * 2 ^ 20 ≤ d.last + 1 - d.base →
      (wordAt p.words 18 = 0 → (s.wing d.owner).store = none →
        Answers (exec (.storeSet ch) s) (((took s ch).modRegion r fun x =>
          { st := .init, d := d, use := .saStore, cnt := x.cnt }).modWing d.owner fun x => { x with store := some r }) ch .ok [])
      ∧ (wordAt p.words 18 = 1 → s.spill = none →
        Answers (exec (.storeSet ch) s) { (took s ch).modRegion r fun x =>
          { st := .init, d := d, use := .spill, cnt := x.cnt } with spill := some r } ch .ok []))

/-- LANE_STATUS returns a word for each lane, 7 for a lane of a wing not reached (R152, R336); REGION_READ an installed
region's descriptor; REGION_REMOVE takes a CLOSED region out with its counts, and the metadata lines that have failed, kept.
REGION_CLOSE: a CLOSED region answers at
once, another closes and the command waits, with FORCE it is closed at once (R211, R343). REGION_PIN of an ACTIVE region not
pinned waits for the accesses in flight and then fills, so that the command waits; clearing the pin of one not pinned
answers at once (R190).
Choices of the model in it: assumptions 29 and 39. -/
def Obligations.RegionCommands : Prop :=
  (∀ (s : State) (ch : Fin 8) (p : Place) (r : Fin 64),
    (Served s ch { op := 0x0C1, lenMin := 0, lenMax := 0 } p →
      ∃ ws : List Word, Answers (exec (.laneStatus ch) s) (took s ch) ch .ok ws ∧ ws.length = 28
        ∧ ∀ l : Fin 28, s.reach (home s ch) (laneWing l) = false → ws[l.val]? = some (wd 7))
    ∧ (wordAt p.words 2 = r.val → s.regions[r].st ≠ .notInstalled → s.reach (home s ch) s.regions[r].d.owner = true →
      (Served s ch { op := 0x0E1, lenMin := 1, lenMax := 1 } p →
        Answers (exec (.regionRead ch) s) (took s ch) ch .ok (s.regions[r].d.words r.val s.regions[r].st.code
          s.regions[r].d.depth (s.bad (.region s.regions[r].d.owner r.val)) s.regions[r].root))
      ∧ (Served s ch { op := 0x0E3, lenMin := 1, lenMax := 1 } p →
        (s.regions[r].st = .closed →
          ∃ t, Answers (exec (.regionRemove ch) s) t ch .ok []
            ∧ t.regions[r] = { cnt := s.regions[r].cnt, badMeta := s.regions[r].badMeta }
            ∧ t.upsets.contains (.region s.regions[r].d.owner r.val) = false
            ∧ (∀ q : Fin 64, q ≠ r → t.regions[q] = s.regions[q]) ∧ t.spill ≠ some r
            ∧ (∀ w, (t.wing w).store ≠ some r ∧ ((s.wing w).store ≠ some r → t.wing w = s.wing w)))
        ∧ (s.regions[r].st ≠ .closed → Answers (exec (.regionRemove ch) s) (took s ch) ch .unitClosing []))))
  ∧ (∀ (s : State) (ch : Fin 8) (p : Place) (r : Fin 64), s.regions[r].st ≠ .notInstalled →
    s.reach (home s ch) s.regions[r].d.owner = true →
    (Served s ch { op := 0x0E2, lenMin := 1, lenMax := 1, close := true } p → wordAt p.words 2 = r.val →
      (s.regions[r].st = .closed → Answers (exec (.regionClose ch) s) (took s ch) ch .ok [])
      ∧ (s.regions[r].st ≠ .closed → p.force = false →
        Waits (exec (.regionClose ch) s) ((took s ch).startRegionClose r) ch (.region r))
      ∧ (s.regions[r].st ≠ .closed → p.force = true →
        Answers (exec (.regionClose ch) s) ((took s ch).forceRegion r) ch .ok []))
    ∧ (Served s ch { op := 0x0E4, lenMin := 1, lenMax := 1 } p → s.regions[r].st = .active → s.regions[r].d.mode ≠ 0 →
      s.regions[r].pinned = false → s.regions[r].d.pin = false → s.regions[r].fillIx = none →
      (wordAt p.words 2 = r.val + 64 →
        s.pinnedBytes s.regions[r].d.owner + (s.regions[r].d.last + 1 - s.regions[r].d.base) ≤ 2 ^ 28 →
        ∃ flight : List (Fin 4 × Nat), Waits (exec (.regionPin ch) s) ((took s ch).modRegion r fun x =>
            { x with d := { x.d with pin := true }, pinWait := some flight, closeAt := s.rt }) ch (.pin r)
          ∧ ∀ q n, (q, n) ∈ flight ↔ ∃ a ∈ s.rqps[q].accs, a.region = some r.val ∧ a.seq = n ∧ ∃ l ∈ a.lines, l.phase ≠ .done)
      ∧ (wordAt p.words 2 = r.val → Answers (exec (.regionPin ch) s) (took s ch) ch .ok []))
    ∧ (Served s ch { op := 0x0E4, lenMin := 1, lenMax := 1 } p → s.regions[r].st = .init → s.regions[r].d.mode ≠ 0 →
      s.regions[r].d.pin = false → wordAt p.words 2 = r.val + 64 →
      s.pinnedBytes s.regions[r].d.owner + (s.regions[r].d.last + 1 - s.regions[r].d.base) ≤ 2 ^ 28 →
      Waits (exec (.regionPin ch) s) ((took s ch).modRegion r fun x => { x with d := { x.d with pin := true } }) ch (.pin r)))

/-! ## The Usher (R216 to R221, R227 to R231) -/

/-- USH_RULE, USH_DEFAULT, USH_MODE and USH_DISCARD write the staging bank of each wing named, where no commit is holding;
the set in force stays as it is, and what is written has good parity (R228, R234). USH_MGMAP stages the four entries of each word it gives in each wing named; USH_READ
returns an entry of the set in force or of the staging bank; nothing else changes (R216, R228).
Choices of the model in it: assumptions 15 and 28. -/
def Obligations.UsherStages : Prop :=
  (∀ (s : State) (ch : Fin 8) (p : Place) (o : OpSpec), s.sl.ush.hold = none → s.sr.ush.hold = none → Served s ch o p →
    (o = { op := 0x100, lenMin := 6, lenMax := 6, wing := 1 } → uruleOk p.words 2 = true →
      Answers (exec (.ushRule ch) s) ((p.wings o (home s ch)).foldl (fun t w => (t.modUsh w fun u =>
        { u with stRules := tput u.stRules (fld (wordAt p.words 2) 6 0) (URule.ofWords p.words 2) }).fix
          (.rule w (!(t.wing w).ush.bank) (fld (wordAt p.words 2) 6 0))) (took s ch)) ch .ok [])
    ∧ (o = { op := 0x101, lenMin := 5, lenMax := 5, wing := 1 } → udefOk p.words 2 = true →
      Answers (exec (.ushDefault ch) s) ((p.wings o (home s ch)).foldl (fun t w => (t.modUsh w fun u =>
        { u with stDefs := tput u.stDefs (fld (wordAt p.words 2) 2 0) (udefOfWords p.words 2) }).fix
          (.dflt w (!(t.wing w).ush.bank) (fld (wordAt p.words 2) 2 0))) (took s ch)) ch .ok [])
    ∧ (o = { op := 0x103, lenMin := 1, lenMax := 1, wing := 1 } → wordAt p.words 2 < 2 →
      Answers (exec (.ushMode ch) s) ((p.wings o (home s ch)).foldl (fun t w => t.modUsh w fun u =>
        { u with stMode := some (decide (wordAt p.words 2 = 0)) }) (took s ch)) ch .ok [])
    ∧ (o = { op := 0x106, lenMin := 0, lenMax := 0, wing := 1 } →
      Answers (exec (.ushDiscard ch) s)
        ((p.wings o (home s ch)).foldl (fun t w => t.modUsh w Usher.discard) (took s ch)) ch .ok []))
  ∧ (∀ (s : State) (ch : Fin 8) (p : Place) (o : OpSpec), Served s ch o p →
    (∀ first n, o = { op := 0x102, lenMin := 2, lenMax := 61, wing := 1 } → s.sl.ush.hold = none → s.sr.ush.hold = none →
      wordAt p.words 2 = first + n * 256 → first < 64 → 1 ≤ n → n ≤ 60 → first + n ≤ 64 → p.len = n + 1 →
      (∀ x ∈ wordsAt p.words 3 n, x &&& 0x80808080 = 0) →
      Answers (exec (.ushMgmap ch) s) ((p.wings o (home s ch)).foldl (fun t w => (List.range n).foldl (fun t k =>
        (List.range 4).foldl (fun v j => v.fix (.mg w (!(t.wing w).ush.bank) (4 * (first + k) + j)))
          (t.modUsh w fun u => { u with stMg := overlay u.stMg (mgEntries (4 * (first + k)) (wordAt (wordsAt p.words 3 n) k)) })) t)
          (took s ch)) ch .ok [])
    ∧ (∀ w kind ix staging, o = { op := 0x105, lenMin := 1, lenMax := 1, wing := 2 } → p.wings o (home s ch) = [w] →
      wordAt p.words 2 = kind + b2n staging * 4 + ix * 8 → kind < 4 → ix < 128 → (kind = 1 → ix < 8) → (kind = 2 → ix < 64) →
      Answers (exec (.ushRead ch) s) (took s ch) ch .ok (s.ushWords w kind staging ix)))

/-- USH_COMMIT of one wing whose Usher holds nothing begins the hold of its requests and waits, where the staged set keeps
service mode in SERVICE and no two of its rules overlap, those left out that fail parity, which are reported (R227 to R229, R234); one
whose rules overlap names the pair; in SERVICE a commit
to dress mode is LC_REFUSED; both count. One that finds another in progress waits for it (R231). The bank switch follows once the
accesses under the old set have drained: it puts the staged set in force under the next generation, lets requests go on and answers
with both generations, or, for both wings, begins the commit of SR.
Choices of the model in it: assumption 28. -/
def Obligations.UsherCommits : Prop :=
  ∀ (s : State) (ch : Fin 8) (p : Place) (w : Wing) (u : Usher), u = (s.wing w).ush →
    (Served s ch { op := 0x104, lenMin := 0, lenMax := 0, wing := 3 } p →
      p.wings { op := 0x104, lenMin := 0, lenMax := 0, wing := 3 } (home s ch) = [w] →
      (∀ good t, u.hold = none → good = (u.staged.rules.filter fun e => !(s.stagedBad w).any (·.1 = e.1)) →
        t = (if u.staged.service then
          (s.stagedBad w).foldl (fun t e => t.logUsher w 0 e.1 (.rule w e.2 e.1) e.2) (took s ch) else took s ch) →
        ((u.staged.service = true → overlapPair good = none) →
          (u.staged.service = true ∨ u.force.service = false ∨ s.vlt.lcCode ≠ 4) →
          Waits (exec (.ushCommit ch) s) (t.modUsh w fun u => { u with hold := some s.rt, commitCh := some ch }) ch
            (.ushCommit w false))
        ∧ (∀ i j, u.staged.service = true → overlapPair good = some (i, j) →
          Answers (exec (.ushCommit ch) s) (t.countWing w .commitFailed) ch .ushOverlap [wd (i + j * 2 ^ 8)]))
      ∧ (u.hold = none → u.staged.service = false → u.force.service = true → s.vlt.lcCode = 4 →
        Answers (exec (.ushCommit ch) s) ((took s ch).countWing w .commitFailed) ch .lcRefused [])
      ∧ (u.hold.isSome = true → Waits (exec (.ushCommit ch) s) (took s ch) ch (.ushCommit w false)))
    ∧ (∀ t, u.hold.isSome = true → u.blocked = none → u.drained = true ∨ s.undrained w = [] →
      t = (s.usherSwitch w).mgCompare w →
      (t.wing w).ush.hold = none ∧ (t.wing w).ush.force = u.staged ∧ (t.wing w).ush.gen = (u.gen + 1) % 2 ^ 16
      ∧ (t.wing w).ush.stRules = [] ∧ (t.wing w).ush.stDefs = [] ∧ (t.wing w).ush.stMg = [] ∧ (t.wing w).ush.stMode = none
      ∧ (u.commitCh = none → exec (.ushBankSwitch w) s = .next (State.nextUsh 8 w t))
      ∧ (u.commitCh = some ch → s.chans[ch].waiting = some (.ushCommit w false) →
        exec (.ushBankSwitch w) s = .next (State.nextUsh 8 w
          (t.finish ch .ok [wd ((t.wing .sl).ush.gen + (t.wing .sr).ush.gen * 2 ^ 16)])))
      ∧ (∀ v x, u.commitCh = some ch → s.chans[ch].waiting = some (.ushCommit .sl true) → w = .sl →
        t.ushStart .sr ch false = .wait v x →
        exec (.ushBankSwitch .sl) s = .next (State.nextUsh 8 .sl (v.modHead ch fun p => { p with phase := .running x }))))

/-! ## Keys (R243 to R247, R253 to R255, R258, R267, R268, R274) -/

/-- Where a key is placed: a session key in its entry, a memory key slot in its slot in each wing the vault reaches; no other
entry changes (R247, R267). KEY_GENERATE without a wrapped copy, KEY_UNWRAP and KEY_DERIVE of a free target: the vault
draws, unwraps or derives the key, places it with the attributes given, GENERATED as the operation sets it, and counts a use
of the key used, which is one that need not be read back first (R249); a failed unwrap counts none.
Choices of the model in it: assumptions 2, 10 and 46. -/
def Obligations.KeyIntake : Prop :=
  (∀ (s : State) (w : Wing) (k : Key) (n : Nat),
    ((s.placeKey w (.sess n) k).1 = .ok
      ∧ (s.placeKey w (.sess n) k).2.vlt = { s.vlt with sess := tput s.vlt.sess n k })
    ∧ (s.pathLost .sl = false → s.pathLost .sr = false →
      s.placeKey w (.slot n) k = (.ok, s.modVlt fun v =>
        { v with slots := tput v.slots n { ref := none, key := some k, inSl := true, inSr := true } }))
    ∧ (∀ id, (s.placeKey w (.classA id) k).1 = .keyRefused ∧ (s.placeKey w (.classA id) k).2 = s))
  ∧ (∀ (s : State) (ch : Fin 8) (p : Place) (l : KLoc) (u v t : State) (c : Ctx), c = ctx0 s ch p →
    kLoc (wordAt p.words 2) = some l → wordAt p.words 2 < 2 ^ 24 →
    l.isTarget = true → s.pathLost (home s ch) = false →
    (∀ a, Served s ch { op := 0x126, lenMin := 9, lenMax := 9, hold := true, iron := true } p → keyAttrClean p.words 3 = true →
      a = { KeyAttr.ofWords p.words 3 with generated := true } → wordAt p.words 10 < 2 ^ 24 →
      (took s ch).placeCheck c l a = (none, v) → v.vlt.drbgOk = true → t = (v.draw (ktypeLen a.ktype)).2 →
      t.placeKey (t.cmdWing c) l (t.newKey a (v.draw (ktypeLen a.ktype)).1 (wordsToBytes (wordsAt p.words 7 3))) = (.ok, u) →
      Answers (exec (.keyGenerate ch) s)
        (u.rhlVault (u.cmdWing c) Status.ok.code (leBytes 4 l.ref ++ wordsToBytes (wordsAt p.words 3 4))) ch .ok
        (List.replicate 11 0))
    ∧ (∀ a kl k, Served s ch { op := 0x127, lenMin := 20, lenMax := 20, hold := true, iron := true } p →
      keyAttrClean p.words 4 = true → a = { KeyAttr.ofWords p.words 4 with generated := false } →
      (took s ch).placeCheck c l a = (none, v) → wordAt p.words 11 = ktypeLen a.ktype + 8 →
      kLoc (wordAt p.words 3) = some kl → wordAt p.words 3 < 2 ^ 24 → v.isSpilled (home v ch) kl = false →
      v.commandKey c kl .wrap = (.ok k, t) →
      (∀ m, kwUnwrap k.material ((wordsToBytes (wordsAt p.words 12 10)).take (wordAt p.words 11)) = some m →
        (t.useKey (t.cmdWing c) kl 1).placeKey (t.cmdWing c) l (t.newKey a m (wordsToBytes (wordsAt p.words 8 3))) = (.ok, u) →
        Answers (exec (.keyUnwrap ch) s)
          (u.rhlVault (u.cmdWing c) Status.ok.code (leBytes 4 l.ref ++ wordsToBytes (wordsAt p.words 4 4))) ch .ok [])
      ∧ (kwUnwrap k.material ((wordsToBytes (wordsAt p.words 12 10)).take (wordAt p.words 11)) = none →
        Answers (exec (.keyUnwrap ch) s)
          (t.rhlVault (t.cmdWing c) Status.unwrapFail.code (leBytes 4 l.ref ++ wordsToBytes (wordsAt p.words 4 4))) ch
          .unwrapFail []))
    ∧ (∀ a kl k, Served s ch { op := 0x128, lenMin := 13, lenMax := 13, hold := true, iron := true } p →
      keyAttrClean p.words 4 = true → a = { KeyAttr.ofWords p.words 4 with generated := false } →
      (took s ch).placeCheck c l a = (none, v) →
      kLoc (wordAt p.words 3) = some kl → wordAt p.words 3 < 2 ^ 24 → v.isSpilled (home v ch) kl = false →
      v.commandKey c kl .derive = (.ok k, t) →
      (t.useKey (t.cmdWing c) kl 1).placeKey (t.cmdWing c) l
        (t.newKey a (derive k.material "HOST-DRV" t.vlt.ctx (8 * ktypeLen a.ktype)
          (wordsToBytes (wordsAt p.words 11 4))) (wordsToBytes (wordsAt p.words 8 3))) = (.ok, u) →
      Answers (exec (.keyDerive ch) s)
        (u.rhlVault (u.cmdWing c) Status.ok.code (leBytes 4 l.ref ++ wordsToBytes (wordsAt p.words 4 4))) ch .ok []))

/-- MKA_DERIVE, of a CAK that its owner may use so, puts its ICK and KEK with the attributes of R268 in two free session entries,
counts a use and answers OK. MKA_ICV, of a key with the use ICV, gathers a part after those before it, the first dropping them;
the last part answers with the CMAC of all (R254, R268).
Choices of the model in it: assumptions 10, 13 and 46. -/
def Obligations.KeyAgreement : Prop :=
  ∀ (s : State) (ch : Fin 8) (p : Place) (k : Key) (t : State), s.pathLost (home s ch) = false →
    (∀ id n a b, Served s ch { op := 0x129, lenMin := 12, lenMax := 12, hold := true, iron := true } p →
      kLoc (wordAt p.words 2) = some (.classA id) → wordAt p.words 2 < 2 ^ 24 → wordAt p.words 3 = a → a < 2 ^ 20 →
      wordAt p.words 4 = b → b < 2 ^ 20 → a ≠ b → wordAt p.words 5 = n → 1 ≤ n → n ≤ 32 →
      tget s.vlt.sess a = none → tget s.vlt.sess b = none → Usable s ch p (.classA id) .mka k →
      t = (took s ch).useKey (home s ch) (.classA id) 1 →
      ∃ (u : State) (ick kek : Key),
        ick = t.newKey (mkaAttr k.attr .icv) (mkaKdf k.material "IEEE8021 ICK"
          ((wordsToBytes (wordsAt p.words 6 8)).take n) (8 * ktypeLen k.attr.ktype)) []
        ∧ kek = t.newKey (mkaAttr k.attr .wrap) (mkaKdf k.material "IEEE8021 KEK"
          ((wordsToBytes (wordsAt p.words 6 8)).take n) (8 * ktypeLen k.attr.ktype)) []
        ∧ u.vlt = { t.vlt with sess := tput (tput t.vlt.sess a ick) b kek } ∧ u.chans = t.chans
        ∧ Answers (exec (.mkaDerive ch) s) (u.rhlVault (home s ch) Status.ok.code (leBytes 4 (wordAt p.words 2))) ch .ok [])
    ∧ (∀ l n (first last : Bool) bytes all, Served s ch { op := 0x12A, lenMin := 3, lenMax := 61, hold := true, iron := true } p →
      kLoc (wordAt p.words 2) = some l → wordAt p.words 2 < 2 ^ 24 → 1 ≤ n → n ≤ 236 → p.len = 2 + (n + 3) / 4 →
      wordAt p.words 3 = b2n first + b2n last * 2 + n * 256 → Usable s ch p l .icv k →
      t = (keyed s ch l).useKey (home s ch) l 1 → bytes = (wordsToBytes (wordsAt p.words 4 59)).take n →
      all = (if first then [] else s.chans[ch].icv) ++ bytes →
      (last = true → Answers (exec (.mkaIcv ch) s)
        ((t.modChan ch fun x => { x with icv := [] }).rhlVault (home s ch) Status.ok.code (leBytes 4 (wordAt p.words 2))) ch .ok
        (bytesToWords (cmac k.material all)))
      ∧ (last = false → Answers (exec (.mkaIcv ch) s)
        ((t.modChan ch fun x => { x with icv := all }).rhlVault (home s ch) Status.ok.code
          (leBytes 4 (wordAt p.words 2))) ch .ok []))

/-- MEMSLOT_LOAD refers an empty slot to a loaded Class A key of AES; KEY_DESTROY of a session key no SA uses zeroises it and
of a memory key slot closes it, as CLASS_A_UNLOAD does a cell (R247, R274): the unit is marked with this moment of RT, and beside it only
the wings' state, where a grant is recorded, may change.
Choices of the model in it: assumptions 31 and 40. -/
def Obligations.KeyEnds : Prop :=
  ∀ (s : State) (ch : Fin 8) (p : Place) (j : Nat), s.pathLost .sl = false → s.pathLost .sr = false →
    (∀ id k, Served s ch { op := 0x0E5, lenMin := 2, lenMax := 2, hold := true, iron := true } p → wordAt p.words 2 = j →
      j < 2 ^ 12 → wordAt p.words 3 < 2 ^ 24 → kLoc (wordAt p.words 3) = some (.classA id) → tget s.vlt.slots j = none →
      (took s ch).commandKey (ctx0 s ch p) (.classA id) .memory = (.ok k, took s ch) → k.attr.ktype ≤ 2 →
      Answers (exec (.memslotLoad ch) s) (((took s ch).useKey (home s ch) (.classA id) 1).modVlt fun v =>
        { v with slots := tput v.slots j { ref := some id, key := none, inSl := true, inSr := true } }) ch .ok [])
    ∧ (Served s ch { op := 0x12B, lenMin := 1, lenMax := 1, close := true, hold := true, iron := true } p →
      wordAt p.words 2 < 2 ^ 24 →
      (kLoc (wordAt p.words 2) = some (.sess j) → (tget s.vlt.sess j).isSome = true →
        (took s ch).keyInUse (wordAt p.words 2) = false → (∀ c : Fin 8, s.chans[c].waiting = none) →
        Answers (exec (.keyDestroy ch) s) ((took s ch).modVlt fun v => { v with sess := tdel v.sess j }) ch .ok [])
      ∧ (kLoc (wordAt p.words 2) = some (.sess j) → (tget s.vlt.sess j).isSome = true →
        (took s ch).keyInUse (wordAt p.words 2) = true → Answers (exec (.keyDestroy ch) s) (took s ch) ch .keyInUse [])
      ∧ (kLoc (wordAt p.words 2) = some (.slot j) → (tget s.vlt.slots j).isSome = true → p.force = false →
        Waits (exec (.keyDestroy ch) s) ((took s ch).startKeyClose (.slot j)) ch (.key (wordAt p.words 2))))
    ∧ (Served s ch { op := 0x125, lenMin := 1, lenMax := 1, close := true, hold := true, iron := true } p →
      wordAt p.words 2 = j → j < 2 ^ 7 → (s.vlt.keyAt (.classA j)).isSome = true → p.force = false →
      Waits (exec (.classAUnload ch) s) ((took s ch).startKeyClose (.classA j)) ch (.classA j))
    ∧ (∀ t l, t = s.startKeyClose l → t = { s with vlt := t.vlt, sl := t.sl, sr := t.sr }
      ∧ (l = .slot j → t.vlt = { s.vlt with slots := tmod s.vlt.slots j fun e =>
          if e.closeAt.isSome then e else { e with closeAt := some s.rt } })
      ∧ (l = .classA j → t.vlt = s.vlt.modKey (.classA j) fun k =>
          if k.closeAt.isSome then k else { k with closeAt := some s.rt }))

/-- BLOB_LOAD of a blob that unwraps under the WKR, names its own head, holds the installed version and may be used in this
state loads its key in the first free Class A cell; KEY_INFO returns a key's attributes and uses, or says that an installed
Class A key is not loaded; DEV_KEYS returns the DID, the context and the public keys (R244, R245, R258).
Choices of the model in it: assumptions 10 and 31. -/
def Obligations.KeyBlobs : Prop :=
  ∀ (s : State) (ch : Fin 8) (p : Place), s.pathLost (home s ch) = false →
    (∀ blob id a m i, Served s ch { op := 0x124, lenMin := 27, lenMax := 27, hold := true, iron := true } p →
      blob = wordsAt p.words 2 27 → id = fld (wordAt blob 0) 22 16 → a = KeyAttr.ofWords blob 3 →
      kwUnwrap (s.vlt.keys.wkr.getD []) (wordsToBytes (wordsAt blob 7 20)) = some m →
      m.take 28 = wordsToBytes (blob.take 7) → a.clsB = false → wordsNat (wordsAt blob 1 2) = s.vlt.version id →
      a.lcAllowed.testBit (s.vlt.lcCode - 1) = true → s.vlt.cellOf id = none → s.vlt.freeCell = some i →
      ∃ k : Key, k = { attr := a, key := (m.drop 28).take 32, salt := (m.drop 60).take 12, at' := s.rt } ∧
        Answers (exec (.blobLoad ch) s) (((took s ch).modVlt fun v => { v with classA := v.classA.set i (some (id, k)) }).rhlVault
          (home s ch) Status.ok.code (leBytes 4 (KLoc.classA id).ref ++ wordsToBytes a.words)) ch .ok [])
    ∧ (∀ l, Served s ch { op := 0x12C, lenMin := 1, lenMax := 1 } p → wordAt p.words 2 < 2 ^ 24 → kLoc (wordAt p.words 2) = some l →
      (∀ k, s.isSpilled (home s ch) l = false → (took s ch).readKey (home s ch) l = (some k, took s ch) →
        Answers (exec (.keyInfo ch) s) ((took s ch).rhlVault (home s ch) Status.ok.code (leBytes 4 (wordAt p.words 2))) ch .ok
          (k.attr.words ++ [wd k.uses, 1]))
      ∧ (∀ id, l = .classA id → s.vlt.keyAt l = none → s.vlt.version id ≠ 0 →
        Answers (exec (.keyInfo ch) s) ((took s ch).rhlVault (home s ch) Status.ok.code (leBytes 4 (wordAt p.words 2))) ch .ok
          (List.replicate 6 0)))
    ∧ (∀ d e, Served s ch { op := 0x120, lenMin := 0, lenMax := 0 } p → s.vlt.keys.trans = some d → s.vlt.keys.attest = some e →
      Answers (exec (.devKeys ch) s) ((took s ch).rhlVault (home s ch) Status.ok.code (leBytes 4 s.vlt.ctx)) ch .ok
        (bytesToWords didBytes ++ [wd s.vlt.ctx] ++ bytesToWords (ecPub d) ++ bytesToWords (ecPub e)))

/-! ## Key update messages and the life cycle (R259 to R266, R275 to R281, R302) -/

/-- KUM_PART gathers words; a KUM that passes the checks of R262 commits its journal record, or is cut where `cut` says, and
its action follows: INSTALL_KEY sets the version and loads the key, DESTROY_KEY sets the version and closes the cell,
OWNER_ROTATE burns the next hash, REINSTATE takes the Iron back, unless its record does not commit, LC_MOVE aborts the key
operations in progress and begins to burn. OWNER_ENROL burns hash 0.
Choices of the model in it: assumptions 11 and 31. -/
def Obligations.KumUpdates : Prop :=
  ∀ (s : State) (ch : Fin 8) (p : Place) (ws : List Word) (cut : JCut) (t : State), 
    (∀ first n, Served s ch { op := 0x121, lenMin := 1, lenMax := 62 } p → wordAt p.words 2 = first → p.len = n + 1 →
      first + n ≤ 104 → Answers (exec (.kumPart ch) s) ((took s ch).modChan ch fun x =>
        { x with kum := (List.range n).foldl (fun t i => tput t (first + i) (p.words.getD (3 + i) 0)) x.kum }) ch .ok [])
    ∧ (∀ key salt blob, KumServed s ch p ws 1 → s.vlt.ironHeld = false → s.vlt.kumKey ws = .ok (key, salt) →
      blob = blobWords (s.vlt.keys.wkr.getD []) (kumKeyId ws) (kumCtr ws) (kumAttr ws) key salt →
      t = (kumTook s ch).commitKum ws (wordsToBytes blob) cut (fun u =>
        (u.modVlt fun v => v.setVersion (kumKeyId ws) (kumCtr ws)).loadClassA (kumKeyId ws)
          { attr := kumAttr ws, key := key, salt := salt, at' := s.rt }) →
      Answers (exec (.installKey ch cut) s)
        (t.rhlVault (t.cmdWing (ctx0 s ch p)) Status.ok.code (leBytes 4 s.vlt.ctx)) ch .ok blob)
    ∧ (KumServed s ch p ws 2 → s.vlt.ironHeld = false →
      t = (kumTook s ch).commitKum ws [] cut (fun u =>
        (u.modVlt fun v => v.setVersion (kumKeyId ws) (kumCtr ws)).startKeyClose (.classA (kumKeyId ws))) →
      Answers (exec (.destroyKey ch cut) s)
        (t.rhlVault (t.cmdWing (ctx0 s ch p)) Status.ok.code (leBytes 4 s.vlt.ctx)) ch .ok [])
    ∧ (∀ i n : Fin 4, n = i + 1 → KumServed s ch p ws 3 → s.vlt.ironHeld = false → s.vlt.ownerSlot = some i → i ≠ 3 → s.fuseOk = true →
      t = ((kumTook s ch).modVlt fun v =>
        { v with owner := v.owner.set n (some (sha384 (wordsToBytes (wordsAt ws 38 24)))) }).commitKum ws [] cut id →
      Answers (exec (.ownerRotate ch cut) s)
        (t.rhlVault (t.cmdWing (ctx0 s ch p)) Status.ok.code (leBytes 4 s.vlt.ctx)) ch .ok [])
    ∧ (∀ k u, KumServed s ch p ws 4 → s.vlt.ironHeld = true → s.vlt.keys.ret.getD (retKeyOf s.vlt.ctx) = k →
      s.vlt.quiet 0 = true →
      u = ((kumTook s ch).modVlt fun v => { v with keys := { v.keys with ret := some k } }).commitKum ws [] cut (fun u =>
        u.modVlt fun v => (v.setIron false).deriveAll) →
      t = (if cut = .beforeCommit then u.modVlt fun v => { v with keys := { v.keys with ret := s.vlt.keys.ret } } else u) →
      Answers (exec (.reinstate ch cut) s)
        (t.rhlVault (t.cmdWing (ctx0 s ch p)) Status.ok.code (leBytes 4 s.vlt.ctx)) ch .ok [])
    ∧ (∀ b, KumServed s ch p ws 5 → (s.vlt.ironHeld = true → kumArg ws = 6) → s.vlt.moveBit (kumArg ws) = some (b, true) →
      t = (kumTook s ch).abortVault .lcAbort (some ch) → t.fuseOk = true →
      Waits (exec (.lcMove ch cut) s) (t.beginBurn b) ch .burn)
    ∧ (Served s ch { op := 0x123, lenMin := 12, lenMax := 12, hold := true } p → s.vlt.burn = none →
      s.pathLost (home s ch) = false → s.vlt.lcCode = 3 → s.vlt.owner[(0 : Fin 4)] = none → s.fuseOk = true →
      Answers (exec (.ownerEnrol ch) s) (((took s ch).modVlt fun v =>
        { v with owner := v.owner.set 0 (some (wordsToBytes (wordsAt p.words 2 12))) }).rhlVault (home s ch)
          Status.ok.code []) ch .ok [])

/-- The life-cycle fuses (R277): each of the 20 logical bits is burnt as three copies and read by majority; the moves burn PROV, COMM
and SVC, the lowest unburnt FS bit, and RET; LC_SEQ is the number of logical bits burnt. -/
def Obligations.FuseBits : Prop :=
  (∀ a b c : Bool, LcBit.read ⟨a, b, c⟩ = (a && b || a && c || b && c))
  ∧ (∀ (lc : Vector LcBit 20) (i : Fin 20), burnCopy (burnCopy (burnCopy lc i 0) i 1) i 2 = lc.set i ⟨true, true, true⟩
    ∧ lcSeqOf lc = lc.toList.countP LcBit.read ∧ lcSeqOf lc ≤ 20)
  ∧ (∀ v : Vault,
    (v.lcCode = 1 → v.moveBit 2 = some (0, false)) ∧ (v.lcCode = 2 → v.moveBit 3 = some (1, false))
    ∧ (v.lcCode = 3 → v.moveBit 4 = some (2, true))
    ∧ (∀ (i : Nat) (h : i < 16), (∀ (j : Nat) (k : j < i), v.lc[3 + j].read = true) → v.lc[3 + i].read = false →
      (v.lcCode = 4 → v.moveBit 5 = some (3 + i, true)) ∧ (v.lcCode = 5 → v.moveBit 4 = some (3 + i, true)))
    ∧ (1 ≤ v.lcCode → v.lcCode ≤ 5 → v.moveBit 6 = some (19, decide (4 ≤ v.lcCode))))

/-- The moves that no KUM authorises and the burning of every move: LC_ADVANCE and LC_RETIRE abort the key operations in
progress, begin to burn the bit of their move and wait; each copy is burnt in turn, the third completes the move; the loss of the rail, which
first cuts the owner hashes that burn, stops a move before its third copy (R280, R281, R284, R439). A completed move puts the vault in the new state and context, with no key of the old one.
Choices of the model in it: assumptions 2 and 34. -/
def Obligations.LifeCycleMoves : Prop :=
  ∀ (s t : State) (ch : Fin 8) (p : Place) (n b : Nat) (held burnt : Bool) (v : Vault) (x : Burn),
    t = (took s ch).abortVault .lcAbort (some ch) →
    (Served s ch { op := 0x145, lenMin := 1, lenMax := 1, hold := true } p → s.vlt.burn = none →
      s.pathLost (home s ch) = false → wordAt p.words 2 = n → n < 256 →
      (n ≠ 6 → s.vlt.moveBit n = some (b, false) → t.fuseOk = true →
        Waits (exec (.lcAdvance ch) s) (t.beginBurn b) ch .burn)
      ∧ (n ≠ 6 → s.vlt.moveBit n = some (b, false) → t.fuseOk = false →
        Answers (exec (.lcAdvance ch) s) t ch .fuseRailAbsent [])
      ∧ (s.vlt.moveBit n = none → Answers (exec (.lcAdvance ch) s) (took s ch) ch .lcRefused []))
    ∧ (Served s ch { op := 0x146, lenMin := 0, lenMax := 0, hold := true } p → s.vlt.burn = none →
      s.pathLost (home s ch) = false → t.fuseOk = true →
      (s.boot.phase = .held .epochExhausted → Waits (exec (.lcRetire ch) s) (t.beginBurn 19) ch .burn)
      ∧ (s.boot.phase = .ready → s.vlt.lcCode ≤ 3 → 1 ≤ s.vlt.lcCode →
        Waits (exec (.lcRetire ch) s) (t.beginBurn 19) ch .burn))
    ∧ (s.vlt.burn = some x → x.stopped = false →
      (x.copy < 2 → s.fuseOk = true → exec .fuseCopy s = .next (s.modVlt fun v =>
        { v with lc := burnCopy v.lc (Fin.ofNat 20 x.bit) x.copy, burn := some { x with copy := x.copy + 1 } }))
      ∧ (x.copy = 2 → exec .fuseCopy s = .next (State.finishMove
          (s.modVlt fun v => { v with lc := burnCopy v.lc (Fin.ofNat 20 x.bit) 2 }) x.after)))
    ∧ ((∀ c q, s.chans[c].head = some q → s.hashBurn c q = none) → s.cutHashes = s)
    ∧ (∀ y, y = s.cutHashes →
      (y.vlt.burn = none → exec (.fuseVppLoss burnt) s = .next { y with pwr := { y.pwr with fuseVpp := false } })
      ∧ (y.vlt.burn = some x → x.stopped = false → x.copy < 2 →
        ∃ u, exec (.fuseVppLoss burnt) s = .next ((u.stopBurn .fuseRailAbsent).endBurn)
          ∧ u = { y with pwr := { y.pwr with fuseVpp := false },
                         vlt := { y.vlt with lc := if burnt then burnCopy y.vlt.lc (Fin.ofNat 20 x.bit) x.copy else y.vlt.lc } }))
    ∧ (v.moveContext held).lcCode = lcCodeOf v.lc ∧ (v.moveContext held).lcSeq = lcSeqOf v.lc
    ∧ (v.moveContext held).classA = Vector.replicate 64 none ∧ (v.moveContext held).sess = [] ∧ (v.moveContext held).slots = []
    ∧ (v.ironHeld = false → held = false → ∃ c, c = ctxWord v.epoch (lcCodeOf v.lc) (lcSeqOf v.lc)
        ∧ (v.moveContext held).keys.ret = some (retKeyOf c) ∧ (v.moveContext held).keys.wkr = some (wkrOf c)
        ∧ (v.moveContext held).keys.attest = some (attestKeyOf c) ∧ (v.moveContext held).keys.trans = some (transKeyOf c))

/-- ATTEST signs a KEY, an IDENTITY or a LINK statement: of a key that its owner and the state allow, a use of which it counts, under the
attestation key of the context; of the device; of the context before, under that context's key (R272, R273). ATTEST_REST returns the
words that a longer statement left.
Choices of the model in it: assumption 10. -/
def Obligations.Attestation : Prop :=
  ∀ (s : State) (ch : Fin 8) (p : Place) (nonce : List Word) (own : Nat), nonce = wordsAt p.words 4 4 →
    own = s.vlt.keys.attest.getD (attestKeyOf s.vlt.ctx) →
    (Served s ch { op := 0x12D, lenMin := 6, lenMax := 6, hold := true, iron := true } p → s.pathLost (home s ch) = false →
      s.vlt.drbgOk = true →
      (wordAt p.words 2 = 2 → SignedAnswer (exec (.attest ch) s) s (took s ch) ch own
        ((took s ch).statement 2 s.vlt.ctx nonce 0 (List.replicate 4 0) [] (ecPub own)))
      ∧ (∀ l k u, wordAt p.words 2 = 1 → s.vlt.lcCode ≠ 6 → kLoc (wordAt p.words 3) = some l → wordAt p.words 3 < 2 ^ 24 →
        s.isSpilled (home s ch) l = false → (took s ch).attestKey (ctx0 s ch p) l = (.ok k, u) → u.vlt.drbgOk = true →
        SignedAnswer (exec (.attest ch) s) s (u.useKey (u.cmdWing (ctx0 s ch p)) l 1) ch own (u.statement 1 s.vlt.ctx nonce l.ref k.attr.words
          ((cmac k.material (asciiBytes "TRILOTH KEYCHECK")).take 8) []))
      ∧ (wordAt p.words 2 = 3 → s.vlt.lcCode ≠ 6 → s.vlt.lcCode ≠ 1 → s.vlt.prev ≠ 0 → s.vlt.prev ≠ s.vlt.ctx →
        SignedAnswer (exec (.attest ch) s) s (took s ch) ch (attestKeyOf s.vlt.prev)
          ((took s ch).statement 3 s.vlt.prev nonce s.vlt.ctx (List.replicate 4 0) [] (ecPub own)))
      ∧ (s.vlt.lcCode = 6 → wordAt p.words 2 = 1 ∨ wordAt p.words 2 = 3 →
        Answers (exec (.attest ch) s)
          ((took s ch).rhlVault (home s ch) Status.lcRefused.code (leBytes 4 s.vlt.ctx)) ch .lcRefused []))
    ∧ (Served s ch { op := 0x12E, lenMin := 0, lenMax := 0 } p →
      (62 < s.chans[ch].stmt.length →
        Answers (exec (.attestRest ch) s) (took s ch) ch .ok ((s.chans[ch].stmt.drop 62).take 6))
      ∧ (s.chans[ch].stmt.length ≤ 62 → Answers (exec (.attestRest ch) s) (took s ch) ch .notFound []))

/-- The commands of start-up and state: BOOT_STATUS with the status of a held step, RCB_READ, whose second half marks every
entry read, IMAGE_WRITE, IMAGE_GO, which loads an image that passes R286 and drops another, and LC_STATUS.
Choices of the model in it: assumption 34. -/
def Obligations.BootCommands : Prop :=
  ∀ (s : State) (ch : Fin 8) (p : Place),
    (Served s ch { op := 0x140, lenMin := 0, lenMax := 0 } p →
      (∀ st, s.boot.phase = .held st → Answers (exec (.bootStatus ch) s) (took s ch) ch .ok
        [wd (st.code + s.vlt.lcCode * 2 ^ 8), wd s.vlt.ctx])
      ∧ (s.boot.phase = .rom ∨ s.boot.phase = .ready → Answers (exec (.bootStatus ch) s) (took s ch) ch .ok
        [wd (s.vlt.lcCode * 2 ^ 8), wd s.vlt.ctx]))
    ∧ (Served s ch { op := 0x141, lenMin := 1, lenMax := 1 } p → s.pathLost (home s ch) = false →
      (wordAt p.words 2 = 0 → Answers (exec (.rcbRead ch) s) (took s ch) ch .ok
        (bytesToWords (memBytes s.vlt.sram 0xE00 128)))
      ∧ (wordAt p.words 2 = 1 → Answers (exec (.rcbRead ch) s)
        ((took s ch).modVlt fun v => { v with rcbUnread := false, rcbFill := 0 }) ch .ok
        (bytesToWords (memBytes s.vlt.sram 0xE80 128))))
    ∧ (∀ t, Served s ch { op := 0x142, lenMin := 1, lenMax := 62 } p → (ctx0 s ch p).imagePart s.boot.image = some t →
      Answers (exec (.imageWrite ch) s) { took s ch with boot := { s.boot with image := t } } ch .ok [])
    ∧ (Served s ch { op := 0x143, lenMin := 0, lenMax := 0 } p →
      (∀ w, imageOk s.boot.image s.vlt.lcCode = true → w = wordAt (imageWords s.boot.image 1 1) 0 → 
        Answers (exec (.imageGo ch) s) { took s ch with boot := { s.boot with
          phase := .loading
          hash := wordsToBytes (imageWords s.boot.image 5 12)
          scriptLevel := fld w 15 0
          stambe := fld w 31 16 } } ch .ok [])
      ∧ (imageOk s.boot.image s.vlt.lcCode = false → Answers (exec (.imageGo ch) s)
        { took s ch with boot := { s.boot with image := [] } } ch .imageInvalid []))
    ∧ (Served s ch { op := 0x144, lenMin := 0, lenMax := 0 } p → s.pathLost (home s ch) = false →
      Answers (exec (.lcStatus ch) s) (took s ch) ch .ok ([wd (s.vlt.lcCode + s.vlt.lcSeq * 2 ^ 8 + s.vlt.epoch * 2 ^ 16
        + b2n s.vlt.ironHeld * 2 ^ 25 + b2n s.vlt.hold * 2 ^ 26)] ++ s.vlt.cond.toList.map wd))

/-- The tamper commands: TAMPER_SET writes words 0 to 9 of the settings and the next SEQ without RESTORE, with SET_MAC;
TAMPER_GET returns the eleven words; TAMPER_RELEASE ends a hold once every source answered with HOLD or IRON has read
NORMAL for 1 ms (R294, R295, R297, R298).
Choices of the model in it: assumption 33. -/
def Obligations.TamperCommands : Prop :=
  ∀ (s : State) (ch : Fin 8) (p : Place) (ws : List Word), s.pathLost (home s ch) = false → ws = wordsAt p.words 2 10 →
    (Served s ch { op := 0x147, lenMin := 10, lenMax := 10 } p → settingsOk ws = true → s.vlt.keys.ret.isSome = true →
      (∀ m, ¬(s.vlt.lcCode = 4 ∧ s.vlt.settingsLocked ws = true) →
        m = memWr32 (memPut s.vlt.sram 0xF00 (wordsToBytes ws)) 0xF28 ((s.vlt.setting 10 + 1) % 2 ^ 16) →
        Answers (exec (.tamperSet ch) s) ((took s ch).modVlt fun v => Vault.setMac { v with sram := m }) ch .ok [])
      ∧ (s.vlt.lcCode = 4 → s.vlt.settingsLocked ws = true → Answers (exec (.tamperSet ch) s) (took s ch) ch .tamperLocked []))
    ∧ (Served s ch { op := 0x148, lenMin := 0, lenMax := 0 } p →
      Answers (exec (.tamperGet ch) s) (took s ch) ch .ok ((List.range 11).map fun i => wd (s.vlt.setting i)))
    ∧ (Served s ch { op := 0x149, lenMin := 0, lenMax := 0 } p →
      (s.vlt.hold = false → Answers (exec (.tamperRelease ch) s) (took s ch) ch .ok [])
      ∧ (s.vlt.hold = true → s.vlt.quiet 1000000 = true →
        Answers (exec (.tamperRelease ch) s) ((took s ch).modVlt fun v => { v with hold := false }) ch .ok [])
      ∧ (s.vlt.hold = true → s.vlt.quiet 1000000 = false →
        Answers (exec (.tamperRelease ch) s) (took s ch) ch .tamperActive []))

/-! ## Time and power (R11, R308 to R314, R320, R323, R324, R418) -/

/-- PRM_STATUS, TOUT_GET and TS_EXPORT_READ of the one wing named, and PWR_STATUS. A last offset that PRM_STATUS cannot hold
and the slot rates of PWR_STATUS are free values (assumption 2). -/
def Obligations.TimeReads : Prop :=
  ∀ (s : State) (ch : Fin 8) (p : Place) (w : Wing) (x : Prompt), x = (s.wing w).prm →
    (Served s ch { op := 0x161, lenMin := 0, lenMax := 0, wing := 2 } p →
      p.wings { op := 0x161, lenMin := 0, lenMax := 0, wing := 2 } (home s ch) = [w] →
      (-2 ^ 31 ≤ x.theta → x.theta < 2 ^ 31 → Answers (exec (.prmStatus ch) s) (took s ch) ch .ok
        ([wd (x.st.code + b2n x.holdFlag * 4)] ++ tsWords (tsOf x.t x.epoch) ++ [wd (ofSigned 32 x.f), wd (ofSigned 32 x.theta)]))
      ∧ (2 ^ 31 ≤ x.theta ∨ x.theta < -2 ^ 31 → Answers (exec (.prmStatus ch) s) (took s ch).takeFree ch .ok
        ([wd (x.st.code + b2n x.holdFlag * 4)] ++ tsWords (tsOf x.t x.epoch) ++ [wd (ofSigned 32 x.f), wd s.freeVal])))
    ∧ (∀ c : Fin 16, Served s ch { op := 0x164, lenMin := 1, lenMax := 1, wing := 2 } p →
      p.wings { op := 0x164, lenMin := 1, lenMax := 1, wing := 2 } (home s ch) = [w] → wordAt p.words 2 = c.val →
      (cueWing c = w → Answers (exec (.toutGet ch) s) (took s ch) ch .ok ((((took s ch).view ch).cues[c]).words c))
      ∧ (cueWing c ≠ w → Answers (exec (.toutGet ch) s) (took s ch) ch .notFound []))
    ∧ (Served s ch { op := 0x166, lenMin := 0, lenMax := 0, wing := 2 } p →
      p.wings { op := 0x166, lenMin := 0, lenMax := 0, wing := 2 } (home s ch) = [w] →
      Answers (exec (.tsExportRead ch) s) ((took s ch).modWing w fun x => { x with tsq := x.tsq.drop 5 }) ch .ok
        (wd ((s.wing w).tsq.take 5).length :: ((s.wing w).tsq.take 5).flatMap TsRec.words))
    ∧ (Served s ch { op := 0x1C0, lenMin := 0, lenMax := 0 } p →
      (s.reach (home s ch) (otherWing (home s ch)) = true →
        Answers (exec (.pwrStatus ch) s) (took s ch).takeFree.takeFree ch .ok
          [wd (b2n s.pwr.vddh + b2n s.pwr.slpReq * 2), wd (Config.freeValue s.freeCtr), wd (Config.freeValue (s.freeCtr + 1))])
      ∧ (s.reach (home s ch) (otherWing (home s ch)) = false →
        Answers (exec (.pwrStatus ch) s) (took s ch) ch .wingUnreachable []))

/-- The edges and clocks of a wing's Prompt that runs (R73, R310 to R312): an edge less than 1 ms of TOD_x_CLK after the last, or
without a stable valid time, is counted and changes nothing else of Prompt; one whose lock input reads 0 is counted where
USE_LOCK is set; a used edge acquires an UNSET Prompt in the next epoch, for which no launch-time frame waits on (R135), and disciplines a LOCKED one by F and R; the fall of
TOD_x_LOCK, the holdover time without a used edge, or a clock that has made no edge for 10 µs take a LOCKED one to HOLDOVER. A
cue whose time has come begins its pulse, a one-shot ends in OFF and a periodic cue goes on to its next time; the pulse ends
WIDTH_NS later and the pin goes back to its idle level (R323, R324).
Choices of the model in it: assumption 35. -/
def Obligations.TimeEvents : Prop :=
  (∀ (s v : State) (w : Wing) (t : TodIn) (p : Prompt), s.todRuns w = true → p = (s.wing w).prm →
    v = (s.modPrm w fun p => { p with ppsRt := some s.rt, edges := 0 }) →
    (p.ppsRt.isSome = true ∧ p.cfg.clkHz ≠ 0 ∧ p.edges * 1000 < p.cfg.clkHz ∨ t.valid = false ∨ t.stable = false →
      exec (.todPps w t) s = .next (v.countWing w .ppsIgnored))
    ∧ (∀ u, t.valid = true → t.stable = true → p.ppsRt = none ∨ p.cfg.clkHz ≤ p.edges * 1000 → p.cfg.clkHz ≠ 0 →
      u = v.rhlRec w 0x09 (leBytes 1 (1 + b2n t.lock * 2)) (leBytes 6 t.sec.toNat ++ leBytes 4 t.ns.toNat) 4 →
      (t.lock = true ∨ p.cfg.useLock = false →
        exec (.todPps w t) s = .next (u.usedEdge w ((t.sec.toNat * 1000000000 + t.ns.toNat) * 2 ^ 32)))
      ∧ (t.lock = false → p.cfg.useLock = true → exec (.todPps w t) s = .next (u.countWing w .todUnlockedEdge)))
    ∧ (∀ tod, p.st = .unset → s.usedEdge w tod = (((s.modPrm w fun p =>
        { p with usedRt := s.rt, st := .locked, t := tod, epoch := (p.epoch + 1) % 2 ^ 16, f := 0, r := 0, usedT := some tod,
                 skipF := true, clkLost := false }).copyRt).log w .prmAcquired 0 0 0 0).dropOldEpoch w)
    ∧ (∀ tod, p.st = .locked → p.armed = 0 →
      s.usedEdge w tod = ((s.modPrm w fun p => { p with usedRt := s.rt }).discipline w tod p.skipF))
    ∧ (∀ (tod : Nat) (gap th : Int), th = (tod : Int) - (p.t : Int) → gap = max 1 ((p.t : Int) - p.usedT.getD p.t) →
      (((s.discipline w tod false).wing w).prm.f = clampRate (p.f + th * 1000000000000 / (8 * gap))
        ∧ ((s.discipline w tod false).wing w).prm.r
          = clampRate (clampRate (p.f + th * 1000000000000 / (8 * gap)) + th * 1000000000000 / (2 * gap))
        ∧ ((s.discipline w tod true).wing w).prm.f = p.f
        ∧ ((s.discipline w tod false).wing w).prm.t = p.t
        ∧ (s.discipline w tod false).wing (otherWing w) = s.wing (otherWing w)))
    ∧ (∀ u, u = ((s.modPrm w fun p => { p with st := .holdover, holdFlag := true }).log w .prmHoldover 0 0 0 0) →
      p.st = .locked →
      (p.cfg.useLock = true → exec (.todLock w) s = .next u)
      ∧ (p.usedRt + p.cfg.holdoverMs * 1000000 ≤ s.rt → exec (.prmHoldover w) s = .next u)
      ∧ (p.clkLost = false → p.edgeRt + 10000 ≤ s.rt → exec (.prmClockLost w) s = .next ((u.modPrm w fun p =>
          { p with clkLost := true, ratio := Config.todRatio (decide (w = .sr)) s.rt }).log w .prmClockLost 0 0 0 0))))
  ∧ (∀ (s : State) (c : Fin 16) (n : Nat), s.timeRuns (cueWing c) = true →
    (s.cues[c].mode ≠ 0 → s.cues[c].pulse = none → s.cues[c].next = some n → n ≤ (s.wing (cueWing c)).prm.t →
      ∃ t, exec (.cueFire c) s = .next t ∧ t = { s with cues := t.cues, ports := t.ports }
        ∧ t.cues[c].pulse = some (s.rt + s.cues[c].widthNs)
        ∧ t.cues[c].pin = (if s.cues[c].outEn then !s.cues[c].polarity else false)
        ∧ (s.cues[c].mode = 1 → t.cues[c].mode = 0 ∧ t.cues[c].next = none)
        ∧ (s.cues[c].mode = 2 → t.cues[c].mode = 2 ∧ t.cues[c].next = some (n + s.cues[c].periodNs * 2 ^ 32))
        ∧ (∀ d : Fin 16, d ≠ c → t.cues[d] = s.cues[d]))
    ∧ (s.cues[c].pulse = some n → n ≤ s.rt →
      exec (.cuePulseEnd c) s = .next (s.modCue c fun x => { x with pulse := none })
        ∧ (∀ x : Cue, x.pulse = none → x.pin = (x.outEn && x.polarity))))

/-! ## Wear, strikes and the Script (R340, R347 to R360) -/

/-- WEAR_REPORT returns up to seven records and WEAR_HISTORY 64 values; STRIKE strikes a lane for which an understudy is left and
refuses one for which none is; HANDOVER of channels that move begins and waits, and answers at once where nothing moves;
JOIN answers at once while both wings are JOINED, and waits where both are REJOIN_READY.
Choices of the model in it: assumptions 2 and 36. -/
def Obligations.RepairCommands : Prop :=
  ∀ (s : State) (ch : Fin 8) (p : Place) (w : Wing) (n : Nat),
    (∀ kind, Served s ch { op := 0x181, lenMin := 2, lenMax := 2, wing := 2 } p →
      p.wings { op := 0x181, lenMin := 2, lenMax := 2, wing := 2 } (home s ch) = [w] → wordAt p.words 2 = kind → kind < 10 →
      n = min 7 (unitCount kind - wordAt p.words 3) →
      Answers (exec (.wearReport ch) s) { took s ch with freeCtr := s.freeCtr + 2 ^ 14 } ch .ok
        (wd n :: (List.range n).flatMap fun i => s.wearWords kind (wordAt p.words 3 + i) w))
    ∧ (∀ kind ix, Served s ch { op := 0x182, lenMin := 1, lenMax := 1 } p →
      wordAt p.words 2 = kind + ix * 16 + wingIx w * 2 ^ 16 → kind < 9 → ix < unitCount kind → ix < 2 ^ 12 →
      s.reach (home s ch) w = true →
      Answers (exec (.wearHistory ch) s) { took s ch with freeCtr := s.freeCtr + 64 } ch .ok
        (pairWords (s.wearHist (wordAt p.words 2))))
    ∧ (∀ l : Fin 28, Served s ch { op := 0x183, lenMin := 1, lenMax := 1 } p → wordAt p.words 2 = l.val * 16 →
      s.reach (home s ch) (laneWing l) = true →
      (s.lanes[l].st ≠ .struck → s.laneSpare l = true → exec (.strike ch) s =
        .next (State.settleHand (((took s ch).strikeLane l 3 0).finish ch .ok [])))
      ∧ (s.lanes[l].st = .struck → exec (.strike ch) s = .next (State.settleHand ((took s ch).finish ch .ok [])))
      ∧ (s.lanes[l].st ≠ .struck → s.laneSpare l = false → exec (.strike ch) s =
        .next (State.settleHand ((took s ch).finish ch .noSpare []))))
    ∧ (Served s ch { op := 0x184, lenMin := 1, lenMax := 1 } p → wordAt p.words 2 = n → n < 3 → s.joined = true →
      (∀ x ∈ s.handTo n, (s.core x).struck = false ∧ (s.core x).lost = false ∧ (s.core x).reloading = false) →
      s.upd.step = 0 → s.upd.hand = none →
      ((took s ch).handIdle n = false → exec (.handover ch) s = .next (State.settleHand (((took s ch).beginHand n).modHead ch
        fun x => { x with phase := .running (.handover n) })))
      ∧ ((took s ch).handIdle n = true → exec (.handover ch) s = .next (State.settleHand ((took s ch).finish ch .ok []))))
    ∧ (Served s ch { op := 0x187, lenMin := 0, lenMax := 0 } p →
      (∀ u, s.joined = true → u = (took s ch).finish ch .ok [] →
        exec (.join ch) s = .next (if u.joinDue then u.joinNow else u))
      ∧ (∀ u, s.sl.link = .rejoinReady → s.sr.link = .rejoinReady →
        u = ((took s ch).modHead ch fun x => { x with phase := .running (.join p.at') }) →
        exec (.join ch) s = .next (if u.joinDue then u.joinNow else u)))

/-- A Script update (R359, R360): UPDATE_WRITE gathers the image, UPDATE_GO checks it and begins CC-R's handover; a core that
has started its image runs it and the update goes on to its next step; a core of the first reload that has not started
32 ms after its reload ends the update with UPDATE_ABORTED and loads the image before.
Choices of the model in it: assumption 36. -/
def Obligations.ScriptUpdates : Prop :=
  ∀ (s : State) (ch : Fin 8) (p : Place) (c : CoreId) (x : Core), x = s.core c →
    (∀ t, Served s ch { op := 0x185, lenMin := 1, lenMax := 62 } p → s.updating = false →
      (ctx0 s ch p).imagePart s.upd.image = some t →
      Answers (exec (.updateWrite ch) s) { took s ch with upd := { s.upd with image := t } } ch .ok [])
    ∧ (∀ t u, Served s ch { op := 0x186, lenMin := 0, lenMax := 0 } p → s.updating = false → s.upd.hand = none → s.joined = true →
      (∀ d, (s.core d).struck = false ∧ (s.core d).lost = false) →
      t = s.upd.image →
      (imageOk t s.vlt.lcCode = true → fld (wordAt (imageWords t 1 1) 0) 31 16 = s.boot.stambe →
        u = ((took s ch).eachWing fun s w => s.rhlFreeze w 5 0) →
        Answers (exec (.updateGo ch) s) (State.beginHand { u with upd :=
          { step := 2, hand := none, image := t, hash := wordsToBytes (imageWords t 5 12) } } 1) ch .ok [])
      ∧ (imageOk t s.vlt.lcCode = false → Answers (exec (.updateGo ch) s) { took s ch with upd := {} } ch .imageInvalid []))
    ∧ (∀ u, s.running = true → s.joined = true → s.loadingCore = some c → (s.core (otherCore c)).struck = false →
      (s.core (otherCore c)).lost = false → s.upd.hash ≠ [] →
      u = (s.modCore c fun _ => { x with hash := s.upd.hash, reloading := false, suspended := false, got := 0, missed := 0,
                                         armed := false }) →
      (s.upd.step = 3 → exec .updateCoreStarted s =
        .next ((State.beginHand { u with upd := { s.upd with step := 4 } } 0).settleHand))
      ∧ (s.upd.step = 5 → exec .updateCoreStarted s =
        .next ((State.beginHand { u with upd := { s.upd with step := 6 } } 2).settleHand)))
    ∧ (∀ u, s.running = true → s.loadingCore = some c → s.upd.step = 3 → x.reloadAt + 32000000 ≤ s.rt →
      u = s.logBoth .updateAborted 0 (coreIx c).val 0 0 →
      exec .updateStartTimeout s = .next (State.modCore { u with upd := {} } c fun y => { y with reloadAt := s.rt }))

/-! ## Rehearsal (R394 to R409) -/

/-- RHL_STATUS returns the record of R404: STATE, CAUSE, LOG_HELD, TARGET_READY, LOG_ID, BLOCKS, CAPACITY and LAST_CHECK of the
wing that it names. -/
def Obligations.LoggerStatus : Prop :=
  ∀ (s : State) (ch : Fin 8) (p : Place) (w : Wing) (r : Rhl), r = (s.wing w).rhl →
    Served s ch { op := 0x1A1, lenMin := 0, lenMax := 0, wing := 2 } p →
    p.wings { op := 0x1A1, lenMin := 0, lenMax := 0, wing := 2 } (home s ch) = [w] →
    ∃ state blocks capacity : Nat,
      Answers (exec (.rhlStatus ch) s) (took s ch) ch .ok
        ([wd (state + r.cause * 2 ^ 3 + b2n r.held * 2 ^ 11 + b2n r.targetReady * 2 ^ 12)] ++ toWords 2 r.logId
          ++ [wd blocks, wd capacity, wd r.lastCheck])
      ∧ (r.st = .off → state = 0) ∧ (r.st = .trace → state = 1) ∧ (r.st = .record → state = 2) ∧ (r.st = .frozen → state = 3)
      ∧ (r.st = .snapshot → state = 4) ∧ (r.st = .replaying → state = 5) ∧ (r.st = .replayDone → state = 6)
      ∧ (r.st = .replayDiverged → state = 7)
      ∧ (r.st = .replaying ∨ r.st = .replayDone ∨ r.st = .replayDiverged → blocks = r.consumed)
      ∧ (r.st ≠ .replaying → r.st ≠ .replayDone → r.st ≠ .replayDiverged → blocks = r.blocks.length)
      ∧ (r.cfg.record = false → capacity = 256 - r.blocks.length)
      ∧ (r.cfg.record = true → capacity = r.spillCap - r.spilled.length)

/-- RHL_EXPORT returns the log's bytes. RHL_REPLAY of an image, whose bytes in external memory are a free value (assumption 2),
starts a replay where the image is a RECORD log of the wing and of the running image, its key is the unit's own or unwraps, and its
snapshot loads under that key; else it answers RHL_STATE. RHL_RESUME starts a frozen log again. The events of Rehearsal (R396, R401,
R402, R408, R409): a snapshot whose blocks are all spilled goes on in RECORD, and freezes by an ALARM that came meanwhile; a block
whose write to the spill region has ended OK leaves the ring, one whose write failed freezes the log; a log that has taken its post
blocks stops in FROZEN. A replayed record moves the replay's RT on; a state digest that differs, a grant or an output that a free
value says differs, and a block whose TAG or SEQ does not hold diverge with their cause; a VAULT record binds a stand-in key, a
watchdog FAULT strikes its unit, and an input leaves all but the wing's replayable state, counts and Call Board, its regions and
its lanes as they were.
Choices of the model in it: assumptions 2, 20 and 37. -/
def Obligations.Rehearsal : Prop :=
  (∀ (s : State) (ch : Fin 8) (p : Place) (w : Wing) (r : Rhl), r = (s.wing w).rhl →
    (∀ off, Served s ch { op := 0x1A2, lenMin := 2, lenMax := 2, wing := 2 } p →
      p.wings { op := 0x1A2, lenMin := 2, lenMax := 2, wing := 2 } (home s ch) = [w] →
      off = wordsNat (wordsAt p.words 2 2) →
      (s.vlt.lcCode = 5 → r.held = true → r.st = .off ∨ r.st = .frozen → (off = 0 → r.targetDid ≠ [] → r.targetReady = true) →
        Answers (exec (.rhlExport ch) s) (took s ch) ch .ok
          (wd ((took s ch).rhlBytes w off 240).length :: bytesToWords ((took s ch).rhlBytes w off 240)))
      ∧ (s.vlt.lcCode ≠ 5 → Answers (exec (.rhlExport ch) s) (took s ch) ch .lcRefused []))
    ∧ (∀ addr, Served s ch { op := 0x1A3, lenMin := 4, lenMax := 4 } p → wordAt p.words 2 = wingIx w → wordAt p.words 4 < 2 ^ 8 →
      addr = wordsNat (wordsAt p.words 3 2) → addr % 4096 = 0 → s.inBypass w addr (wordAt p.words 5) = true →
      s.reach (home s ch) w = true → s.vlt.lcCode = 5 ∨ s.vlt.lcCode = 1 → s.wingOpen w = false → r.busy = false →
      ∀ b h, b = (Config.image s.freeCtr).take (wordAt p.words 5) → h = padTo 256 b →
      ∀ m, m = (if s.imageFits w h then s.imageKey h else none).bind (fun k => (Config.snapOf k b).map fun x => (k, x)) →
        Answers (exec (.rhlReplay ch) s)
          (m.elim (took s ch).takeFree fun e =>
            (((took s ch).takeFree.loadSnap w e.2).quietOutputs w).modRhl w fun r =>
              { r.lost with
                  st := .replaying
                  cause := 0
                  logId := leNat ((h.drop 4).take 8)
                  consumed := 0
                  lastCheck := 0
                  playKey := e.1
                  playRt := 0
                  standIns := [] }) ch
          (if m.isSome then .ok else .rhlState) [])
    ∧ (∀ o : OpSpec, o = { op := 0x1A4, lenMin := 0, lenMax := 0, wing := 1 } → Served s ch o p → p.wings o (home s ch) = [w] →
      (r.st = .frozen → (r.cfg.record = true → (took s ch).recordOk w = true) → s.vlt.drbgOk = true →
        Answers (exec (.rhlResume ch) s) ((took s ch).startRhl w r.cfg) ch .ok [])
      ∧ (r.st ≠ .frozen → Answers (exec (.rhlResume ch) s) (took s ch) ch .rhlState [])))
  ∧ (∀ (s : State) (w : Wing) (r : Rhl), r = (s.wing w).rhl →
    (∀ t, t = s.modRhl w (fun r => { r with st := .record, afterSnap := none }) → r.st = .snapshot →
      (r.full = [] → r.afterSnap = none → exec (.rhlSnapshotDone w) s = .next t)
      ∧ (∀ bits, r.full = [] → r.afterSnap = some bits → exec (.rhlSnapshotDone w) s = .next (t.rhlFreeze w 1 bits))
      ∧ (r.full ≠ [] → exec (.rhlSnapshotDone w) s = .next s))
    ∧ (∀ b rest g o u v st ok, r.full = b :: rest → r.st = .record ∨ r.st = .snapshot → r.spilled.length < r.spillCap →
      s.spill = some g → o = s.regions[g].d.owner → u = OwnUse.block w r.spilled.length → s.ownGot o u = some (st, v) →
      (st = 0 → exec (.rhlBlockSpill w ok) s = .next ((s.ownTaken o u).modRhl w fun r =>
        { r with full := rest, spilled := r.spilled ++ [b] }))
      ∧ (st ≠ 0 → exec (.rhlBlockSpill w ok) s = .next ((s.ownTaken o u).rhlFreeze w 4 0)))
    ∧ (r.st = .trace ∨ r.st = .record → r.post = some 0 → exec (.rhlPostBlocks w) s = .next (s.rhlStop w 1 r.postBits))
    ∧ (r.st = .replaying →
      (∀ (type dt : Nat) (clear sealed : Bytes) (v : State) (x : ReplayRec), x = .rcd type dt clear sealed →
        v = s.modRhl w (fun r => { r with playRt := if type = 1 then leNat sealed else r.playRt + dt }) →
        (type = 0x01 ∨ type = 0x10 ∨ type = 0x11 → exec (.rhlReplayRecord w x) s = .next v)
        ∧ (type = 0x0F → exec (.rhlReplayRecord w x) s = .next (v.modRhl w fun r =>
            if v.stateDigest w r.playKey = sealed.take 8 then { r with lastCheck := leNat (clear.take 4) }
            else { r with st := .replayDiverged, cause := 1 }))
        ∧ (∀ c, type = 0x0E ∧ c = 2 ∨ isOutput type clear = true ∧ c = 3 → exec (.rhlReplayRecord w x) s =
            .next (v.takeFree.modRhl w fun r => if s.freeVal % 2 = 1 then r else { r with st := .replayDiverged, cause := c }))
        ∧ (type = 0x0C → exec (.rhlReplayRecord w x) s = .next ((v.standIn w sealed).replayInput w type clear sealed))
        ∧ (∀ u, type = 0x0B → (clear.getD 0 0).toNat = 1 → unitOf (leNat (clear.drop 1)) = some u →
            exec (.rhlReplayRecord w x) s = .next ((v.watchdog u 0).replayInput w type clear sealed))
        ∧ (type = 0x0B → (clear.getD 0 0).toNat ≠ 1 ∨ unitOf (leNat (clear.drop 1)) = none →
            exec (.rhlReplayRecord w x) s = .next (v.replayInput w type clear sealed))
        ∧ (type ∈ [0x02, 0x03, 0x04, 0x05, 0x06, 0x07, 0x08, 0x09, 0x0A, 0x0D] → isOutput type clear = false →
            exec (.rhlReplayRecord w x) s = .next (v.replayInput w type clear sealed)))
      ∧ (∀ b, exec (.rhlReplayRecord w (.block b)) s = .next (s.modRhl w fun r =>
          if r.blockOk b then { r with consumed := r.consumed + 1 } else { r with st := .replayDiverged, cause := 4 }))
      ∧ exec (.rhlReplayRecord w .last) s = .next (s.modRhl w fun r => { r with st := .replayDone })
      ∧ (∀ t type clear sealed, t = s.replayInput w type clear sealed →
        t.wing (otherWing w) = s.wing (otherWing w) ∧ (t.wing w).rhl = r ∧ (t.wing w).link = (s.wing w).link
        ∧ (∀ q : Fin 64, s.regions[q].st ≠ .notInstalled → s.regions[q].d.owner ≠ w → t.regions[q] = s.regions[q])
        ∧ (∀ l : Fin 28, laneWing l ≠ w → t.lanes[l] = s.lanes[l])
        ∧ t = { s with sl := t.sl, sr := t.sr, regions := t.regions, lanes := t.lanes, freeCtr := t.freeCtr })))

/-! ## The control port (R9, R10, R71, R365 to R370, R381 to R392) -/

/-- The mailbox handshake (R365, R366, R368): a doorbell takes the channel's owner with the request, or marks an overrun while
the request is busy; the engine copies a request into a free place and frees the buffer; it answers a request of an opcode that the
catalogue does not hold, with the curtain asked for (R369, R372); it writes the response of the oldest place, which the
acknowledgement frees.
Choices of the model in it: assumptions 12 and 22. -/
def Obligations.MailboxHandshake : Prop :=
  ∀ (s t : State) (a : CpAcc) (ch : Fin 8) (v : Word),
    (Admits s t a (chanOff ch 0x200) → bitOf v.toNat 0 = true →
      (t.chans[ch].reqBusy = false → Wrote (exec (.doorbell a ch v) s) t a (chanOff ch 0x200) 0 v.toNat fun u =>
        u.modChan ch fun c => { c with reqBusy := true, bellGroup := c.ownGroup, bellWorld := c.ownWorld })
      ∧ (t.chans[ch].reqBusy = true → Wrote (exec (.doorbell a ch v) s) t a (chanOff ch 0x200) 0 v.toNat fun u =>
        u.modChan ch fun c => { c with overrun := true }))
    ∧ (s.cpUp = true → s.isReady = true ∨ ch = 0 → s.chans[ch].reqBusy = true → s.chans[ch].queue.length < 8 →
      s.pwr.entering = false → s.chans[ch].closing = none → s.chans[ch].mapNext = none →
      ∃ p : Place, exec (.reqFree ch) s = .next (s.modChan ch fun c =>
          { c with queue := c.queue ++ [p], reqBusy := false, evFree := true, opSeen := false })
        ∧ p.words = s.chans[ch].req.toList ∧ p.group = s.chans[ch].bellGroup ∧ p.world = s.chans[ch].bellWorld ∧ p.at' = s.rt
        ∧ (s.unserved s.chans[ch].mapWing = false → p.phase = .queued)
        ∧ (s.unserved s.chans[ch].mapWing = true → p.phase = .answered .wingUnreachable []))
    ∧ (∀ p rest st ws, s.cpUp = true → s.chans[ch].rspValid = false → (∀ q, s.chans[ch].head = some q → catalogue.contains q.op = true) →
      s.chans[ch].queue = p :: rest → p.phase = .answered st ws → p.own = none →
      exec (.rspWrite ch) s = .next (s.modChan ch fun c =>
        { c with rsp := putWords c.rsp (p.response st ws), rspValid := true }))
    ∧ (∀ p, s.cpUp = true → s.chans[ch].head = some p → p.phase = .queued →
      catalogue.contains p.op = false → s.canServe ch = true → p.seq = s.chans[ch].expect.toNat →
      exec (.rspWrite ch) s = .next (((took s ch).finish ch .unknownOpcode []).writeRsp ch))
    ∧ (Admits s t a (chanOff ch 0x208) → bitOf v.toNat 0 = true → t.chans[ch].rspValid = true →
      Wrote (exec (.rspAck a ch v) s) t a (chanOff ch 0x208) 0 v.toNat fun u =>
        u.modChan ch fun c => { c with rspValid := false, queue := c.queue.drop 1 })

/-- Register writes (R9, R10, R381 to R391). A write that the ownership check refuses changes no register and sets CP_ERR. A
write that passes has its register's effect: IRQ_LINE and its lock, the alarm causes cleared by 1, ZEROISE_EN, which is held at
1 in SERVICE and FIELD_SERVICE and once locked, the Call Board flags, and a channel's request buffer, overrun flag, events and
IRQ_EN; a write to TAIL takes effect within the ring; a read of ENTRY latches the entry. CP_RST_N clears the adapter's outputs
and abandons a zeroise sequence (R71). The zeroise sequence (R392): while it is enabled, 0x5A3C0F96 then 0xA5C3F069 to ARM and 1
to FIRE, each by the same writer within 256 cycles of the one before, fire the Iron. A write to ARM or FIRE takes no step while it is
not enabled, nor, where none has been taken, with another value; one that comes after a step out of turn, with another value, from
another writer or too late abandons the sequence and counts, and so does a gap that grows too long.
Choices of the model in it: assumptions 22 and 39. -/
def Obligations.ControlPort : Prop :=
  (∀ (s t : State) (a : CpAcc) (ad : BitVec 16) (w : Wing) (v : Word) (off : Nat), off = ad.toNat / 4 * 4 →
    (Admits s t a off → ownRow off = false →
      Wrote (exec (.registerWrite a ad v) s) t a off 0 v.toNat fun u => u.regWrite off v.toNat)
    ∧ (s.cpTakes = true → ownRow off = false → t = (guardOf off).elim s (fun n => s.ownParity a n) → t.cpRefused a off = true →
      ∃ u, u = t.zAbort ∧ exec (.registerWrite a ad v) s
        = .next (State.rhlCtrl { u with sys := { u.sys with err := true } } a off true v.toNat))
    ∧ (Admits s t a (cbdOff w 0x04) → ∀ tail, tail = v.setWidth 16 →
      (((t.wing w).cbd.head - tail).toNat ≤ 4096 → Wrote (exec (.cbdTail a w v) s) t a (cbdOff w 0x04) 0 v.toNat fun u =>
        u.modWing w fun x => { x with cbd := { x.cbd with tail := tail } })
      ∧ (4096 < ((t.wing w).cbd.head - tail).toNat → Wrote (exec (.cbdTail a w v) s) t a (cbdOff w 0x04) 0 v.toNat fun u =>
        u.modWing w fun x => { x with cbd := { x.cbd with tailErr := true } }))
    ∧ (Admits s t a (cbdOff w 0x20) → ∃ u, u = (t.modWing w fun x => { x with cbd := { x.cbd with shadow := x.cbd.latch } })
      ∧ exec (.cbdEntry a w) s = .next (State.rhlCtrl { u with sys :=
        { u.sys with rdata := wd (wordAt (t.wing w).cbd.latch 0), err := false } } a (cbdOff w 0x20) false
          (wd (wordAt (t.wing w).cbd.latch 0)).toNat))
    ∧ (∃ u, exec .cpRstN s = .next u ∧ u.sys.rdata = 0 ∧ u.sys.err = false ∧ u.sys.zStep = 0
      ∧ u = { s with sys := u.sys, pwr := { s.pwr with cpRst := true } }))
  ∧ (∀ (u : State) (n : Fin 8) (v k : Nat),
    (u.sys.lock = false → ∃ m, u.regWrite 0x40 v = { u with sys := { u.sys with line := m } }
      ∧ ∀ i : Fin 8, m[i] = v / 2 ^ (3 * i.val) % 8)
    ∧ (u.sys.lock = true → u.regWrite 0x40 v = u ∧ u.regWrite 0x100 v = u)
    ∧ u.regWrite 0x44 v = { u with sys := { u.sys with lock := u.sys.lock || v.testBit 0 } }
    ∧ (∃ m, u.regWrite 0x80 v = { u with sys := { u.sys with alarm := m } }
      ∧ ∀ i, i < 6 → m.testBit i = (u.sys.alarm.testBit i && !v.testBit i))
    ∧ (u.sys.lock = false → v.testBit 0 = true ∨ u.vlt.lcCode ≠ 4 ∧ u.vlt.lcCode ≠ 5 →
      u.regWrite 0x100 v = { u with sys := { u.sys with zEn := v.testBit 0 } })
    ∧ (v.testBit 0 = false → u.vlt.lcCode = 4 ∨ u.vlt.lcCode = 5 → u.regWrite 0x100 v = u)
    ∧ (∀ w, ∃ c, u.regWrite (cbdOff w 0x08) v = (u.modWing w fun x => { x with cbd := c })
      ∧ c.lost = ((u.wing w).cbd.lost && !v.testBit 13) ∧ c.tailErr = ((u.wing w).cbd.tailErr && !v.testBit 14)
      ∧ c.lostCount = (if v.testBit 13 then 0 else (u.wing w).cbd.lostCount) ∧ c.head = (u.wing w).cbd.head
      ∧ c.tail = (u.wing w).cbd.tail)
    ∧ (k < 64 → u.chans[n].reqBusy = false →
      u.regWrite (chanOff n (4 * k)) v = u.modChan n fun c =>
        { c with req := c.req.set (Fin.ofNat 64 k) (wd v), opSeen := c.opSeen || decide (k = 0) })
    ∧ (k < 64 → u.chans[n].reqBusy = true → u.regWrite (chanOff n (4 * k)) v = u.modChan n fun c => { c with overrun := true })
    ∧ u.regWrite (chanOff n 0x204) v = (u.modChan n fun c => { c with overrun := c.overrun && !v.testBit 2 })
    ∧ u.regWrite (chanOff n 0x210) v = (u.modChan n fun c => { c with irqEn := wd (v % 2 ^ 13) })
    ∧ u.regWrite (chanOff n 0x20C) v = (u.modChan n fun c => { c with
        evFree := c.evFree && !v.testBit 1, evSaSl := c.evSaSl && !v.testBit 5, evSaSr := c.evSaSr && !v.testBit 10 }))
  ∧ (∀ (s t : State) (a : CpAcc) (gap : Nat) (v : Word),
    (Admits s t a 0x104 →
      (t.zEnabled = true → t.sys.zStep = 0 → v = 0x5A3C0F96#32 → ∃ u, u = { t with sys :=
          { t.sys with zStep := 1, zMid := a.mid.toNat, zWorld := a.world, err := false } }
        ∧ exec (.zeroiseArm a gap v) s = .next (State.rhlCtrl u a 0x104 true v.toNat))
      ∧ (t.zEnabled = true → t.sys.zStep = 1 → v = 0xA5C3F069#32 → t.sys.zMid = a.mid.toNat → t.sys.zWorld = a.world → gap ≤ 256 →
        ∃ u, u = { t with sys := { t.sys with zStep := 2, err := false } }
          ∧ exec (.zeroiseArm a gap v) s = .next (State.rhlCtrl u a 0x104 true v.toNat))
      ∧ (t.zEnabled = true → t.sys.zStep ≠ 0 →
        t.sys.zStep ≠ 1 ∨ v ≠ 0xA5C3F069#32 ∨ t.sys.zMid ≠ a.mid.toNat ∨ t.sys.zWorld ≠ a.world ∨ 256 < gap →
        ∃ u, u = { t with sys := { t.sys with zStep := 0, zAborts := min 255 (t.sys.zAborts + 1), err := false } }
          ∧ exec (.zeroiseArm a gap v) s = .next (State.rhlCtrl u a 0x104 true v.toNat))
      ∧ (t.zEnabled = false ∨ t.sys.zStep = 0 ∧ v ≠ 0x5A3C0F96#32 → ∃ u, u = { t with sys := { t.sys with err := false } }
        ∧ exec (.zeroiseArm a gap v) s = .next (State.rhlCtrl u a 0x104 true v.toNat)))
    ∧ (Admits s t a 0x108 →
      (t.zEnabled = true → t.sys.zStep = 2 → v = 1#32 → t.sys.zMid = a.mid.toNat → t.sys.zWorld = a.world → gap ≤ 256 →
        ∃ u, u = State.fireIron { t with sys := { t.sys with zStep := 0, zFired := true } }
          ∧ exec (.zeroiseFire a gap v) s
            = .next (State.rhlCtrl { u with sys := { u.sys with err := false } } a 0x108 true v.toNat))
      ∧ (t.zEnabled = true → t.sys.zStep ≠ 0 →
        t.sys.zStep ≠ 2 ∨ v ≠ 1#32 ∨ t.sys.zMid ≠ a.mid.toNat ∨ t.sys.zWorld ≠ a.world ∨ 256 < gap →
        ∃ u, u = { t with sys := { t.sys with zStep := 0, zAborts := min 255 (t.sys.zAborts + 1), err := false } }
          ∧ exec (.zeroiseFire a gap v) s = .next (State.rhlCtrl u a 0x108 true v.toNat))
      ∧ (t.zEnabled = false ∨ t.sys.zStep = 0 → ∃ u, u = { t with sys := { t.sys with err := false } }
        ∧ exec (.zeroiseFire a gap v) s = .next (State.rhlCtrl u a 0x108 true v.toNat)))
    ∧ (s.cpUp = true → s.sys.zStep ≠ 0 → exec .zeroiseGap s = .next { s with sys :=
        { s.sys with zStep := 0, zAborts := min 255 (s.sys.zAborts + 1) } }))

/-- The Call Board registers (R390). A read of ENTRY[0] latches the 8 words of the entry at TAIL, zeros while FILL is 0, and returns
word 0; reads of ENTRY[1] to ENTRY[7] return what was latched; no event has code 0. A write of t to TAIL takes effect only if
(HEAD − t) mod 2^16 is at most 4,096; otherwise TAIL_ERR is set. An entry that would make FILL exceed 4,096 first moves TAIL by
1, sets LOST and counts. A Call Board raises no interrupt cause. The accesses are stated where no logger records them. -/
def Obligations.CallBoard : Prop :=
  (∀ (s t : State) (a : CpAcc) (w : Wing) (v : Word) (tail : BitVec 16), tail = v.setWidth 16 →
    (∀ x, (s.wing x).rhl.taking = false) →
    (Admits s t a (cbdOff w 0x04) →
      (((t.wing w).cbd.head - tail).toNat ≤ 4096 →
        ∃ u, exec (.cbdTail a w v) s = .next u ∧ (u.wing w).cbd = { (t.wing w).cbd with tail := tail })
      ∧ (4096 < ((t.wing w).cbd.head - tail).toNat →
        ∃ u, exec (.cbdTail a w v) s = .next u ∧ (u.wing w).cbd = { (t.wing w).cbd with tailErr := true }))
    ∧ (Admits s t a (cbdOff w 0x20) → ∃ e u, exec (.cbdEntry a w) s = .next u
      ∧ ((t.wing w).cbd.fill = 0 → e = List.replicate 8 0)
      ∧ (∀ x, (t.wing w).cbd.fill ≠ 0 → tget (t.wing w).cbd.ring ((t.wing w).cbd.tail.toNat % 4096) = some x → e = x)
      ∧ u.sys.rdata = e.getD 0 0 ∧ u.sys.err = false ∧ (u.wing w).cbd = { (t.wing w).cbd with shadow := e }))
  ∧ (∀ (s : State) (w : Wing) (k : Nat), 1 ≤ k → k ≤ 7 →
    s.reg (cbdOff w (0x20 + 4 * k)) = some (wordAt (s.wing w).cbd.shadow k))
  ∧ (∀ e : Ev, e.code ≠ 0)
  ∧ (∀ (c d : Cbd) (e : List Word), d = c.push e →
    d.head = c.head + 1 ∧ d.ring = tput c.ring (c.head.toNat % 4096) e ∧ d.tailErr = c.tailErr ∧ d.shadow = c.shadow
    ∧ (c.fill < 4096 → d.tail = c.tail ∧ d.lost = c.lost ∧ d.lostCount = c.lostCount)
    ∧ (4096 ≤ c.fill → d.tail = c.tail + 1 ∧ d.lost = true ∧ d.lostCount = min (c.lostCount + 1) 0xFFFF))
  ∧ (∀ (s : State) (w : Wing) (c : Cbd) (n : Fin 8), (s.modWing w fun x => { x with cbd := c }).irqStatus n = s.irqStatus n)

/-- The test access port (R78): each scan shifts its register and changes nothing else; IDCODE captures the device code,
BYPASS 0, SAMPLE and EXTEST the pins; outside BLANK a private instruction acts as BYPASS and is logged on both Call Boards, in
BLANK it is refused. While the VDDC domain takes no inputs (R81), or TRST_N is asserted, no scan has an effect. The registers
are IEEE 1149.1's (assumption 9). -/
def Obligations.TestPort : Prop :=
  (∀ (s : State) (pins tdi : List Bool) (code : Word), s.cpUp = true → s.pwr.trst = false →
    exec (.tapBypass tdi) s = .next { s with tap := s.tap.scanBypass 0 tdi }
    ∧ (∃ t, exec (.tapIdcode tdi) s = .next { s with tap := t } ∧ t.drive = false
      ∧ t.tdo = (wordBits 0x1A71C54B#32 ++ tdi).take tdi.length)
    ∧ (∃ t, exec (.tapSample pins tdi) s = .next { s with tap := t } ∧ t.drive = false ∧ t.tdo = (pins ++ tdi).take tdi.length
      ∧ t.cells = (pins ++ tdi).drop tdi.length)
    ∧ (∃ t, exec (.tapExtest pins tdi) s = .next { s with tap := t } ∧ t.drive = true ∧ t.tdo = (pins ++ tdi).take tdi.length
      ∧ t.cells = (pins ++ tdi).drop tdi.length)
    ∧ (s.vlt.lcCode = 1 → exec (.tapTestAccess code tdi) s = .refused .privateTest)
    ∧ (s.vlt.lcCode ≠ 1 → exec (.tapTestAccess code tdi) s
      = .next { s.logBoth .testAccess 0 code.toNat 0 0 with tap := s.tap.scanBypass 4 tdi }))
  ∧ (∀ (s : State) (pins tdi : List Bool) (code : Word), s.cpUp = false ∨ s.pwr.trst = true →
    exec (.tapBypass tdi) s = .next s ∧ exec (.tapIdcode tdi) s = .next s ∧ exec (.tapSample pins tdi) s = .next s
    ∧ exec (.tapExtest pins tdi) s = .next s ∧ exec (.tapTestAccess code tdi) s = .next s)

/-! ## Stream ports at work (R47 to R59, R85, R133 to R149) -/

/-- A frame that a port takes (R52, R59): presented on an open port under credits that cover its cells, with a length from 1 to
the MTU and all its beats, it takes its cells and goes to its selection; a length or a count of beats that does not fit
is counted and the frame discarded; a frame that its credits do not cover fails the input. Whatever becomes of a frame of HS_I,
its curtain is placed (R163). STRAY_BEAT counts. A side whose reset is asserted takes nothing (R48).
Choices of the model in it: assumptions 2, 18 and 48. -/
def Obligations.FrameArrivals : Prop :=
  (∀ (s : State) (p : Fin 64) (n k : Nat), s.cpUp = true → s.ports[p].st = .opened → s.flowing (portWing p) = true →
    n = (k + 15) / 16 →
    (∀ (f : HsFrame) (v u : State), f.len.toNat = k → s.ports[p].sideGone false = false → s.ports[p].hsIFail = false →
      v = s.placeCurtain p f.curtain → u = arrived v p false k (hsSide f) f.data →
      (cells k ≤ s.ports[p].hsIHeld → 1 ≤ k → k ≤ s.ports[p].sp.mtu → f.eof = true → (f.data.length + 15) / 16 = n →
        exec (.outboundFrame p f) s = .next ((u.selectFrame (outCarrier u p f)).credit p))
      ∧ (cells k ≤ s.ports[p].hsIHeld → k = 0 ∨ s.ports[p].sp.mtu < k →
        exec (.outboundFrame p f) s = .next ((u.countPort p .hsLenInvalid).credit p))
      ∧ (cells k ≤ s.ports[p].hsIHeld → 1 ≤ k → k ≤ s.ports[p].sp.mtu → f.eof = false → (f.data.length + 15) / 16 < n →
        exec (.outboundFrame p f) s = .next ((u.countPort p .hsTruncated).credit p))
      ∧ (s.ports[p].hsIHeld < cells k → exec (.outboundFrame p f) s = .next (((v.modPort p fun x =>
        { x with hsIFail := true }).log (portWing p) .creditViolation p.val 0 0 0).credit p)))
    ∧ (∀ (f : LsFrame) (u : State), f.len.toNat = k → s.ports[p].sideGone true = false → s.ports[p].lsIFail = false →
      u = arrived s p true k (leBytes 1 (b2n f.err)) f.data →
      cells k ≤ s.ports[p].lsIHeld → 1 ≤ k → k ≤ s.ports[p].sp.mtu → f.eof = true → (f.data.length + 15) / 16 = n →
      (f.err = false → exec (.inboundFrame p f) s = .next ((u.takeIn (u.inCarrier p (padTo k f.data))).credit p))
      ∧ (f.err = true → exec (.inboundFrame p f) s
        = .next (((u.countPort p .lsErr).abortCut p (padTo k f.data)).credit p)))
    ∧ (s.ports[p].sideGone false = false → s.ports[p].hsIFail = false →
      exec (.strayBeat p false) s = .next (s.countPort p .hsStrayBeat))
    ∧ (s.ports[p].sideGone true = false → s.ports[p].lsIFail = false →
      exec (.strayBeat p true) s = .next (s.countPort p .lsStrayBeat)))
  ∧ (∀ (s : State) (p : Fin 64),
    (s.ports[p].hsRst = true → ∀ f, exec (.outboundFrame p f) s = .next (s.credit p) ∧ exec (.strayBeat p false) s = .next s)
    ∧ (s.ports[p].lsRst = true → ∀ f, exec (.inboundFrame p f) s = .next (s.credit p) ∧ exec (.strayBeat p true) s = .next s))

/-- The signals of ports: a credit pulse adds a cell up to 1,023, beyond which it is ignored and the first of each 1,024 is an event
(R59); LS_HOLD holds and lets go, and the reserved reason counts (R58). A reset of a side, with the forced close of an open port, puts
its outputs at their reset values, while it stands that side's pulses and holds are ignored and another reset has no effect, its
release clears the credits of a stream port's side; a lost clock closes an open port by force (R47, R48, R52, R54).
Choices of the model in it: assumptions 18 and 23. -/
def Obligations.PortSignals : Prop :=
  ∀ (s : State) (p : Fin 64) (q m : Fin 4) (side : PortSide),
    (s.cpUp = true →
      (s.ports[p].sideGone false = false → s.ports[p].hsOCred < 1023 →
        ∃ t, exec (.creditPulse p false) s = .next t ∧ t = { s with ports := t.ports }
        ∧ t.ports[p] = { s.ports[p] with
            hsOCred := s.ports[p].hsOCred + 1
            pulses := s.ports[p].pulses.set 2 (s.ports[p].pulses[2] + 1) }
        ∧ (∀ r : Fin 64, r ≠ p → t.ports[r] = s.ports[r]))
      ∧ (s.ports[p].sideGone true = false → s.ports[p].lsOCred < 1023 →
        ∃ t, exec (.creditPulse p true) s = .next t ∧ t = { s with ports := t.ports }
        ∧ t.ports[p] = { s.ports[p] with
            lsOCred := s.ports[p].lsOCred + 1
            pulses := s.ports[p].pulses.set 3 (s.ports[p].pulses[3] + 1) }
        ∧ (∀ r : Fin 64, r ≠ p → t.ports[r] = s.ports[r]))
      ∧ (∀ t, s.ports[p].sideGone false = false → 1023 ≤ s.ports[p].hsOCred →
        t = s.modPort p (fun x => { x with pulses := x.pulses.set 2 (x.pulses[2] + 1), hsOExcess := x.hsOExcess + 1 }) →
        exec (.creditPulse p false) s
          = .next (if s.ports[p].hsOExcess % 1024 = 0 then t.log (portWing p) .creditOverflow p.val 2 0 0 else t))
      ∧ (∀ t, s.ports[p].sideGone true = false → 1023 ≤ s.ports[p].lsOCred →
        t = s.modPort p (fun x => { x with pulses := x.pulses.set 3 (x.pulses[3] + 1), lsOExcess := x.lsOExcess + 1 }) →
        exec (.creditPulse p true) s
          = .next (if s.ports[p].lsOExcess % 1024 = 0 then t.log (portWing p) .creditOverflow p.val 3 0 0 else t))
      ∧ (∀ h r t u, s.ports[p].sideGone true = false →
        t = s.modPort p (fun x => { x with
          hold := h
          holdRsn := r.toNat
          holdSince := if h && !x.hold then s.rt else x.holdSince
          holdSpent := x.holdSpent && h }) →
        u = (if h = true ∧ r = 3 then t.countPort p .lsHoldRsnReserved else t) →
        exec (.lsHold p h r) s = .next (if s.rhlPort p then
          u.rhlRec (portWing p) 0x04 (leBytes 1 p.val ++ leBytes 1 (b2n h) ++ leBytes 1 r.toNat) [] 2 else u)))
    ∧ (s.ports[p].hsRst = true → exec (.creditPulse p false) s = .next s)
    ∧ (s.ports[p].lsRst = true → exec (.creditPulse p true) s = .next s ∧ ∀ h r, exec (.lsHold p h r) s = .next s)
    ∧ (s.cpUp = true → s.sideRst side = false →
      exec (.portReset side) s = .next ((s.forceSide .portResetWhileOpen side).holdSide side)
      ∧ (s.sideOpen side = false → exec (.portReset side) s = .next (s.holdSide side))
      ∧ (s.ports[p].st ≠ .closed → s.ports[p].hsRst = false →
        exec (.portReset (.hs p)) s = .next (((s.log (portWing p) .portResetWhileOpen p.val 0 0 0).forcePort p).modPort p
          fun x => { x with hsRst := true, hsOut := none })))
    ∧ (s.ports[p].hsRst = true → exec (.portResetRelease (.hs p)) s = .next (s.modPort p fun x =>
        { x with hsRst := false, hsIHeld := 0, hsIUsed := 0, hsOCred := 0, hsIFail := false, hsINotOpen := false,
                 hsOExcess := 0 }))
    ∧ (s.ports[p].lsRst = true → exec (.portResetRelease (.ls p)) s = .next (s.modPort p fun x =>
        { x with lsRst := false, lsIHeld := 0, lsIUsed := 0, lsOCred := 0, lsIFail := false, lsINotOpen := false,
                 lsOExcess := 0 }))
    ∧ (s.rqps[q].rst = true → exec (.portResetRelease (.rqp q)) s = .next (s.modRqp q fun x => { x with rst := false }))
    ∧ (s.mps[m].rst = true → exec (.portResetRelease (.mp m)) s = .next (s.modMp m fun x => { x with rst := false }))
    ∧ (s.pwr.cpRst = true → exec (.portResetRelease .cp) s = .next { s with pwr := { s.pwr with cpRst := false } })
    ∧ (s.pwr.trst = true → exec (.portResetRelease .tap) s = .next { s with pwr := { s.pwr with trst := false } })
    ∧ (s.pwr.todRstSl = true → exec (.portResetRelease (.tod .sl)) s = .next { s with pwr := { s.pwr with todRstSl := false } })
    ∧ (s.pwr.todRstSr = true → exec (.portResetRelease (.tod .sr)) s = .next { s with pwr := { s.pwr with todRstSr := false } })
    ∧ (s.sideRst side = true → exec (.portReset side) s = .next s)
    ∧ (s.sideRst side = false → exec (.portResetRelease side) s = .next s)
    ∧ (s.cpUp = true →
      (s.sideOpen side = false → exec (.portClockLost side) s = .next s)
      ∧ (s.ports[p].st ≠ .closed →
        exec (.portClockLost (.hs p)) s = .next ((s.log (portWing p) .portClockLost p.val 0 0 0).forcePort p)
        ∧ exec (.portClockLost (.ls p)) s = .next ((s.log (portWing p) .portClockLost p.val 1 0 0).forcePort p))
      ∧ (s.rqps[q].st ≠ .closed →
        exec (.portClockLost (.rqp q)) s = .next ((s.log (rqpWing q) .portClockLost q.val 2 0 0).forceRqp q))
      ∧ (s.mps[m].rst = false → s.mps[m].clkLost = false →
        exec (.portClockLost (.mp m)) s
          = .next (State.dropMp ((s.log (mpWing m) .portClockLost m.val 3 0 0).modMp m fun x => { x with clkLost := true }) m)))

/-- What becomes of a staged or an inbound frame (R122, R133, R135, R136, R145): it is released, bypassed or sealed under its
SA's next number, which the SA then binds; it is checked and delivered, or, where its tag fails, counted BAD_TAG and discarded, or
delivered with that status where its delivery was cut-through (R146); a record that its
read has given enters the cache with its key and lets frames go on, one whose tag failed makes its SA absent, and one that could
not be read is asked for again; a frame past its launch time is discarded, and at the hold limit every staged frame moves to the
Green Room.
Choices of the model in it: assumptions 18 and 46. -/
def Obligations.FrameMoves : Prop :=
  ∀ (s : State) (p : Fin 64) (id : Nat) (w : Wing), w = portWing p →
    (∀ (f : OutFrame) (out : Bytes), s.ports[p].staging.find? (fun f => f.id = id) = some f → s.ports[p].absent = false →
      (f.ltime.any fun t => decide (t + s.ports[p].sp.launchTol * 2 ^ 32 < (s.wing w).prm.t)) = false →
      s.mayRelease p f = true →
      out = ptpCorrect s.ports[p].ptp true s.ports[p].ptp.asym (s.residence w f.resIn) f.bytes →
      (f.sai = none → cells out.length ≤ s.ports[p].lsOCred →
        exec (.frameRelease p id) s = .next (s.presentLs p f out none 0))
      ∧ (∀ a x k form sealed, f.sai = some a → s.sa w a = some x → s.bad (.sa w a) = false → x.gone = false →
        x.resident = true → x.canBind = true → s.saKey w x.r = (some k, s) → k.ended s.rt = false →
        outForm x.r (s.wing w).meshEtype x.pn out = some form →
        form.length ≤ 16383 → cells form.length ≤ s.ports[p].lsOCred → f.ks = some (a, x.pn) →
        sealed = sealFrame x.r k x.pn form →
        exec (.frameRelease p id) s = .next ((s.presentLs p f sealed (some a) x.pn).bindPn w a form.octets
          (if f.orig = some a then f.thresh else x.r.thresh) p)))
    ∧ (∀ (f : InFrame), s.ports[p].inbound.find? (fun f => f.id = id) = some f → s.ports[p].absent = false → f.wait = false →
      s.itemDone (.inb p id) = true → s.ports[p].inBehind f = false →
      (f.sai = none → s.ports[p].mayDeliver f f.bytes.length = true →
        exec (.frameTagCheck p id) s = .next (s.deliverIn p f f.bytes 2))
      ∧ (∀ a x k bytes octets, f.sai = some a → s.sa w a = some x → s.saKey w x.r = (some k, s) →
        openFrame x.r k f.pn f.bytes = .ok bytes octets → s.ports[p].mayDeliver f bytes.length = true →
        exec (.frameTagCheck p id) s = .next (((((s.verified w a f.pn f.thresh).countSa w a .inOk 1).countSa w a .inOctets octets).useIn
          w a x.r).deliverIn p f bytes 0))
      ∧ (∀ a x k, f.sai = some a → s.sa w a = some x → s.saKey w x.r = (some k, s) →
        openFrame x.r k f.pn f.bytes = .badTag → f.held = true →
        exec (.frameTagCheck p id) s = .next ((((s.unpend p f).countSa w a .badTag 1).useIn w a x.r).unInbound p f.id))
      ∧ (∀ a x k out, f.sai = some a → s.sa w a = some x → s.saKey w x.r = (some k, s) →
        openFrame x.r k f.pn f.bytes = .badTag → f.held = false → out = openedBytes x.r k f.pn f.bytes →
        s.ports[p].mayDeliver f out.length = true →
        exec (.frameTagCheck p id) s = .next ((((s.unpend p f).countSa w a .badTag 1).useIn w a x.r).deliverIn p f out 1)))
    ∧ (∀ sai x st bytes tagOk keyOk, s.sa w sai = some x → x.resident = false → x.gone = false →
      s.ownGot w (.saRead sai) = some (st, bytes) →
      (∀ j t cls u, st = 0 → j = fld x.r.keyRef 19 0 → t = s.takeKey w j → (t.sa w sai).any Sa.keyGone = false →
        (t.wing w).kspill.contains j = false → cls = ((t.waitSa w).find? (·.1 = sai)).elim 3 (·.2) →
        u = ((((t.ownTaken w (.saRead sai)).evictSa w cls).modSa w sai fun x => { x with
          resident := true
          used := t.rt }).cacheKey w j) →
        exec (.saFetch w sai tagOk keyOk) s
          = .next ((if x.r.inb then u.countSa w sai .windowCollapse 1 else u).fetchDone w sai))
      ∧ (st = 2 → exec (.saFetch w sai tagOk keyOk) s = .next ((((s.ownTaken w (.saRead sai)).modSa w sai fun x =>
          { x with gone := true }).log w .saStoreTag 0 sai 0 0).fetchFail w sai))
      ∧ (st ≠ 0 → st ≠ 2 → exec (.saFetch w sai tagOk keyOk) s = .next ((s.ownTaken w (.saRead sai)).askOwn w (.saRead sai) 3)))
    ∧ (∀ (f : OutFrame) t, s.ports[p].staging.find? (fun f => f.id = id) = some f → f.ltime = some t →
      t + s.ports[p].sp.launchTol * 2 ^ 32 < (s.wing w).prm.t → exec (.lateFrame p id) s = .next (s.discardOut p f .late))
    ∧ (s.cpUp = true → s.ports[p].hold = true → s.ports[p].holdSpent = false →
      s.ports[p].holdSince + s.ports[p].sp.holdLimit * 1000 ≤ s.rt →
      exec (.lsHoldLimit p) s = .next ((s.ports[p].staging.foldl (fun t f => (t.toGrq w (f.toG p 0xC)).unstage p f.id)
        ((s.modPort p fun x => { x with holdSpent := true }).countPort p .lsHoldLimit)).log w
          .lsHoldLimit p.val 0 s.ports[p].staging.length 0))

/-- The receive window (R145): once a number has been received under an SA with REPLAY whose window is at most 1,024, neither it
nor a number received before is accepted again, and TOP is the highest number received.
Choices of the model in it: assumption 19. -/
def Obligations.ReplayWindow : Prop :=
  ∀ (x : Sa) (n m : Nat), x.r.replay = true → x.r.window ≤ 1024 →
    (x.markReceived n).pn = max x.pn n ∧ (x.markReceived n).accepts n = false
    ∧ (m ≤ x.pn → x.received m = true → (x.markReceived n).accepts m = false)

/-- The arbiter of insertions answers the oldest request with its slot or BOX_FULL (R105); an UNKEYED entry older than its time
is cleared (R107); a frame held past its queue's time leaves the Green Room, and the summary names what was lost, for each queue
that lost frames, at most once in a millisecond (R113), as the Usher's names the refusals that were not logged (R233). Leases of
group SAs and the overlap of a rekey (R141 to R143, R271): a grant begins at the lease table's NEXT_GRANT, or at 1, and takes up
to 65,536 numbers, its journal record committed before the wing has it; a request not answered in a second is made again with
LEASE_HOLD; the old SA closes once its overlap has run out.
Choices of the model in it: assumptions 16, 17, 19 and 28. -/
def Obligations.Timers : Prop :=
  (∀ (s : State) (w : Wing),
    (∀ ch e rest slot t g, (s.wing w).box.reqs = .command ch e :: rest → g = (if rest.isEmpty then s else s.rhlGrant w 14 true) →
      (g.modBox w fun b => { b with reqs := rest }).boxInstall w e = (some slot, t) → t.chans[ch].waiting = some .box →
      exec (.boxInsertion w) s = .next (t.finish ch .ok [wd (locator slot)]))
    ∧ (∀ ch e rest t g, (s.wing w).box.reqs = .command ch e :: rest → g = (if rest.isEmpty then s else s.rhlGrant w 14 true) →
      (g.modBox w fun b => { b with reqs := rest }).boxInstall w e = (none, t) → t.chans[ch].waiting = some .box →
      exec (.boxInsertion w) s = .next (t.finish ch .boxFull []))
    ∧ (∀ ch e rest r t g, (s.wing w).box.reqs = .command ch e :: rest → g = (if rest.isEmpty then s else s.rhlGrant w 14 true) →
      (g.modBox w fun b => { b with reqs := rest }).boxInstall w e = (r, t) → t.chans[ch].waiting ≠ some .box →
      exec (.boxInsertion w) s = .next t)
    ∧ (∀ kt key c f rest g, (s.wing w).box.reqs = .learned kt key c f :: rest →
      g = (if rest.isEmpty then s else s.rhlGrant w 14 false) →
      exec (.boxInsertion w) s = .next ((g.modBox w fun b => { b with reqs := rest }).boxLearn w kt key c f))
    ∧ (∀ slot e, tget (s.wing w).box.slots slot = some e → e.state = 1 → s.bad (.box w slot) = false →
      e.at' + (s.wing w).unkeyedTtl * 1000000000 < s.rt → exec (.unkeyedTtl w slot) s = .next (s.boxClear w slot))
    ∧ (∀ h f q, (s.wing w).grq.frames.find? (fun f => f.handle = h) = some f → q = Fin.ofNat 3 f.queue →
      f.admRt + (s.wing w).grq.timeout[q] * 1000 ≤ s.rt →
      ∃ g, g = { (s.wing w).grq with frames := (s.wing w).grq.frames.filter fun f => f.handle ≠ h,
                                     timedOut := bumpAt (s.wing w).grq.timedOut q 1, sumTo := bumpAt (s.wing w).grq.sumTo q 1 }
        ∧ exec (.grqHoldTimeout w h) s = .next (s.modWing w fun x => { x with grq := g }))
    ∧ (∀ g qs, g = (s.wing w).grq → qs = (List.finRange 3).filter (fun q => g.sumFull[q] + g.sumTo[q] ≠ 0) →
      (∀ t, g.sumAt = some t → s.rt < t + 1000000 → exec (.grqSummary w) s = .next s)
      ∧ (qs = [] → exec (.grqSummary w) s = .next s)
      ∧ (qs ≠ [] → g.sumAt = none ∨ (∃ t, g.sumAt = some t ∧ t + 1000000 ≤ s.rt) →
        exec (.grqSummary w) s
          = .next ((qs.foldl (fun t q => t.log w .grqSummary q.val 0 g.sumFull[q] g.sumTo[q]) s).modWing w fun x => { x with grq :=
              { x.grq with sumFull := Vector.replicate 3 0, sumTo := Vector.replicate 3 0, sumAt := some s.rt } })))
    ∧ ((s.wing w).ush.msDropped = 0 ∨ s.rt < (s.wing w).ush.msEnd → exec (.ushFaultSummary w) s = .next s)
    ∧ ((s.wing w).ush.msDropped ≠ 0 → (s.wing w).ush.msEnd ≤ s.rt →
      exec (.ushFaultSummary w) s = .next ((s.log w .ushFaultSummary 0 0 (s.wing w).ush.msDropped 0).modUsh w
        fun u => { u with msDropped := 0, msEnd := s.rt + 1000000 })))
  ∧ (∀ (s : State) (w : Wing) (sai : Nat) (x : Sa), s.sa w sai = some x →
    (∀ cut a b body, x.r.groupPn = true → x.leaseAsk.isSome = true → x.leaseHeld = false → s.pathLost w = false →
      s.vlt.keys.ret.isSome = true → (s.vlt.leaseIx sai = none → s.vlt.leaseFree.isSome = true) →
      a = ((s.vlt.leaseIx sai).bind fun i => s.vlt.lease i).elim 1 (fun e => e.2.2) → a ≠ 0 → a ≤ x.r.lastPn →
      b = min (a + 65536) (x.r.lastPn + 1) → body = leBytes 4 (sai + b2n x.r.pn64 * 2 ^ 20) ++ leBytes 8 b →
      exec (.leaseGrant w sai cut) s = .next (s.commitRecord 2 0 s.vlt.updCtr s.vlt.kumDigest body cut fun u =>
        (u.modVlt fun v => v.applySlot v.activeSlot).leaseGiven w sai a b))
    ∧ (∀ t, x.leaseAsk = some t → t + 1000000000 ≤ s.rt → exec (.leaseRefreshRetry w sai) s = .next
        ((s.modSa w sai fun x => { x with leaseAsk := some s.rt, leaseHeld := false }).log w .leaseHold 0 sai
          (x.leaseEnd % 2 ^ 32) (x.leaseEnd / 2 ^ 32)))
    ∧ (∀ t, x.st = .active → x.r.overlapMs ≠ 0 → x.overlapAt = some t → t + x.r.overlapMs * 1000000 ≤ s.rt →
      exec (.rekeyOverlap w sai) s = .next (s.startSaClose w sai)))

/-! ## The memory side (R60 to R69, R174, R178 to R230) -/

/-- A request taken on a request port that is ready and whose wing's lanes can take more (R60 to R64, R69, R215, R226): one that
breaks a rule of R61, or whose ATID is in use, is MALFORMED and counted; a CURTAIN_ONLY waits for its curtain, or is DENIED where
its master is not valid; a read or a write whose lines the Usher grants goes to the memory protection engine, under the highest
class that they ask for; one that it refuses is DENIED. The engine ends one that no region covers with DENIED and one whose
region's wing is not reached with UNREACHABLE, and takes one to an UNPROTECTED region (R174, R335).
Choices of the model in it: assumption 26. -/
def Obligations.MemoryRequests : Prop :=
  ∀ (s t : State) (q : Fin 4) (r : AReq) (op mid : Nat) (i : Instr) (a : Access) (w : Wing), s.ready4 q = true →
    s.laneFull w (decide (r.cls = 0)) = false → w = rqpWing q → mid = r.mid.toNat →
    (i = .memRead q r ∧ op = (if r.op = 3 then 3 else 0) ∨ i = .memWrite q r ∧ op = (if r.op = 3 then 3 else 1)
      ∨ i = .curtainOnly q r ∧ op = (if r.op = 3 then 3 else 2)) →
    t = requested s q r op → a = accessOf t q r op s.rqps[q].nextSeq →
    (reqMalformed r op = true ∨ s.rqps[q].tidBusy r.tid.toNat = true →
      ∃ b : Access, b = { a with curtain := 0, addrs := [], fixed := some 6 }
        ∧ exec i s = .next (joined (t.modRqp q fun x => { x with cnt := bumpAt x.cnt 0 1 }) q b))
    ∧ (reqMalformed r op = false → s.rqps[q].tidBusy r.tid.toNat = false → ∀ m u ds, m = t.mgParity w mid →
      u = (m.usherParity w mid (linesOf r op)).regionParity w (linesOf r op) →
      ds = u.usherLines w mid r.world (decide (op = 1)) r.kix.toNat (linesOf r op) →
      (op = 2 → (m.master w mid).valid = true → exec i s = .next (joined m q a))
      ∧ (op = 2 → (m.master w mid).valid = false →
        exec i s = .next (joined (m.ushRefuse w q mid 2 r.world r.kix.toNat 0 0 (.refuse 1 none false 0)) q
          { a with fixed := some 1, curtain := 0 }))
      ∧ (∀ (grants : List (Option Nat × Nat)) slots c b v, op < 2 → ds = grants.map (fun e => UDec.grant e.1 e.2) → slots = grants.map Prod.fst →
        c = grants.foldl (fun c e => max c e.2) r.cls.toNat →
        (b, v) = u.mpeAccept q { a with
          clsIn := c
          cls := c
          lines := ((linesOf r op).zip slots).map fun e => { addr := e.1, slot := e.2, t0 := u.rt } } slots →
        exec i s = .next (joined v q b))
      ∧ (∀ addr d rest, op < 2 → ((linesOf r op).zip ds).filter (fun e => refusedLine e.2) = (addr, d) :: rest →
        exec i s = .next (joined (u.ushRefuse w q mid op r.world r.kix.toNat addr (rest.length + 1) d) q
          { a with fixed := some 1 })))
    ∧ (∀ b c slots at0 v, at0 = (b.lines.head?.map MLine.addr).getD 0 → (c, v) = s.mpeAccept q b slots →
      (s.regionAt w at0 = none → c = { b with fixed := some 1 }
        ∧ v = s.log w .noRegion 0 (at0 % 2 ^ 32) (at0 / 2 ^ 32 % 256 + b.mid % 256 * 2 ^ 8 + q.val * 2 ^ 16) 0)
      ∧ (∀ g, s.regionAt w at0 = some g →
        (s.reach w s.regions[g].d.owner = false → c = { b with fixed := some 3 }
          ∧ v = s.modRqp q fun x => { x with cnt := bumpAt x.cnt 1 1 })
        ∧ (s.reach w s.regions[g].d.owner = true → s.regions[g].d.mode = 0 → b.clsIn ≠ 0 →
          c = { b with region := some g.val, cls := b.clsIn })))

/-- Beats and lines on the pins of the memory side (R62, R65, R67 to R69): write data goes to the oldest write that waits for it,
and where no write waits it is kept for the next;
a response beat leaves D; a memory port's request is accepted, answered, or ends with MEM_ERR when its answer does not come
in time or names an error; a beat for no outstanding request is stray, and none is taken while the port or the VDDC domain takes no
inputs (R81). The answer to a line of a master's read is held for its
checks, that to a write ends the line, with those that stand in the page buffer for it where it started a re-encryption (R208).
Choices of the model in it: assumptions 23 and 26. -/
def Obligations.MemoryPins : Prop :=
  ∀ (s : State) (q m : Fin 4),
    (∀ (data : BitVec 512) (strb : BitVec 64), s.rqps[q].st ≠ .closed → s.rqps[q].rst = false →
      s.rqps[q].struck = false → s.rhlMem q = false →
      (∀ a : Access, s.rqps[q].accs.find? (fun a => a.op = 1 ∧ !a.wdone) = some a → s.access q a.seq = some a →
        a.wbeats.length = a.alen → a.alen ≤ 3 →
        exec (.writeData q data strb true) s = .next ((s.modAcc q a.seq fun b =>
          { b with wbeats := a.wbeats ++ [(data.toNat, strb.toNat)], wdone := true }).limitWrite q a.seq).pump)
      ∧ (∀ last, (∀ a ∈ s.rqps[q].accs, a.op = 1 → a.wdone = true) → exec (.writeData q data strb last) s
        = .next (s.modRqp q fun x => { x with early := x.early ++ [(data.toNat, strb.toNat, last)] }).pump))
    ∧ exec (.rqpResponseAccepted q) s = .next (s.modRqp q fun x => { x with dq := x.dq.tail })
    ∧ (∀ (x : MpReq) rest, s.mps[m].aq = x :: rest → s.mps[m].alive = true →
      x.write = false ∨ ((s.wing (mpWing m)).rhl.st ≠ .record ∧ (s.wing (mpWing m)).rhl.cfg.rqpMask = 0) →
      exec (.mpRequestAccepted m) s = .next (s.modMp m fun p =>
        { p with aq := rest, out := p.out ++ [{ x with at' := s.rt }] }).pump)
    ∧ (∀ (x : MpReq) (b : MpBeat) (t : State), s.mps[m].alive = true → s.cpUp = true →
      s.mps[m].out.find? (fun x => x.aid = b.did.toNat ∧ x.write = b.write) = some x →
      t = (s.modMp m fun p => { p with out := p.out.filter (·.aid ≠ x.aid) }) →
      (∀ p tid seq k d sb, x.write = true → b.err = false → x.lines = [{ use := .data p tid seq k, data := d, sb := sb }] →
        ((∀ a l, s.access p seq = some a → a.lines[k]? = some l → l.trig = false) →
          exec (.mpResponse m b) s = .next (t.endLine p seq k fun l => { l with status := 0 }).pump)
        ∧ (∀ a l, s.access p seq = some a → a.lines[k]? = some l → l.trig = true →
          exec (.mpResponse m b) s = .next ((t.endBuffered l.addr 0).endLine p seq k fun l => { l with status := 0 }).pump))
      ∧ (x.write = true → b.err = true → exec (.mpResponse m b) s = .next (t.mpFailFrom x 0 false).pump)
      ∧ (∀ p tid seq k d sb, x.write = false → x.got = 0 → x.lines = [{ use := .data p tid seq k, data := d, sb := sb }] →
        (s.wing (mpWing m)).rhl.st ≠ .record → (s.wing (mpWing m)).rhl.cfg.rqpMask = 0 →
        (b.err = false → exec (.mpResponse m b) s = .next (t.modLine p seq k fun l => if l.phase = .reading then
            { l with phase := .gotData, cipher := b.data.toNat, tag := if s.mps[m].sb then b.sb.toNat else 0, t0 := s.rt }
          else l).pump)
        ∧ (b.err = true → exec (.mpResponse m b) s = .next (t.failLine p seq k 5).pump)))
    ∧ (∀ b : MpBeat, s.mps[m].alive = false ∨ s.cpUp = false → exec (.mpResponse m b) s = .next s)
    ∧ (∀ b : MpBeat, s.mps[m].alive = true → s.cpUp = true → (∀ x ∈ s.mps[m].out, x.aid = b.did.toNat → x.write ≠ b.write) →
      exec (.mpResponse m b) s = .next (s.log (mpWing m) .mpStray m.val b.did.toNat 0 0))
    ∧ (∀ (x : MpReq) (aid : BitVec 8), s.mps[m].out.find? (fun x => x.aid = aid.toNat ∧ x.at' + s.mps[m].timeout * 1000 ≤ s.rt)
        = some x →
      exec (.mpResponseTimeout m aid) s
        = .next ((s.modMp m fun p => { p with out := p.out.filter (·.aid ≠ x.aid) }).mpFailFrom x x.got true).pump)

/-- The checks of lines (R193, R195, R203, R206), each once the line's lane work is done, its counters are verified and its stored tag is at hand: a read line
whose tag matches is released and ends, and one that fails without
REPAIR ends with TAG_FAIL, its event and the alarm; a partial write merges its bytes into a verified line, and one that fails
without REPAIR poisons it; a repair takes the one candidate that matches, rewritten under its counters where they have not moved,
or reports that none or more than one matched.
Choices of the model in it: assumptions 26 and 27. -/
def Obligations.LineChecks : Prop :=
  ∀ (s t u : State) (q : Fin 4) (tid : BitVec 7) (n plain : Nat) (a : Access) (l : MLine) (r : Fin 64) (key : Bytes),
    s.lineKey r l.slot = (some key, t) →
    (s.lineOf q tid.toNat n (fun a l => a.op = 0 ∧ l.phase = .gotData ∧ l.known) = some (a, l, r) →
      u = (if l.released then t else t.useSlot t.regions[r].d.owner l.slot) →
      (s.itemDone (.mem q a.seq n) = false ∨ l.metaOk = false ∨ l.tagged = false → exec (.lineVerify q tid n) s = .next s.pump)
      ∧ (s.itemDone (.mem q a.seq n) = true → l.metaOk = true → l.tagged = true →
        (u.checkLine r l key = (plain, true) → l.released = false →
          exec (.lineVerify q tid n) s = .next ((u.modLine q a.seq n fun l =>
            { l with plain := plain, verified := true, released := true, status := 0 }).endLine q a.seq n id).pump)
        ∧ (u.checkLine r l key = (plain, true) → l.released = true →
          exec (.lineVerify q tid n) s = .next (u.endLine q a.seq n id).pump)
        ∧ (u.checkLine r l key = (plain, false) → u.regions[r].d.repair = true →
          exec (.lineVerify q tid n) s = .next (u.modLine q a.seq n fun l => { l with phase := .repairing }).pump)
        ∧ (u.checkLine r l key = (plain, false) → u.regions[r].d.repair = false →
          exec (.lineVerify q tid n) s = .next (State.pump (State.failLine (State.modLine
            (((u.countRegion r 3 1).logAddr r .memTagFail l.addr a.mid q (u.lineKix r l.slot)).raiseAlarm .memIntegrity) q a.seq n
              fun l => { l with verified := !l.released }) q a.seq n 2)))))
    ∧ (s.lineOf q tid.toNat n (fun a l => a.op = 1 ∧ (l.phase = .repaired ∨ (l.phase = .gotData ∧ l.known))) = some (a, l, r) →
      (∀ m, l.phase = .repaired → m = mergeLine l.plain (a.wbeats.getD n (0, 0)).1 (a.wbeats.getD n (0, 0)).2 →
        exec (.partialWrite q tid n) s = .next (s.modLine q a.seq n fun l => { l with phase := .merged, plain := m }).pump)
      ∧ (l.phase = .gotData → s.itemDone (.mem q a.seq n) = true → l.metaOk = true → l.tagged = true →
        u = t.useSlot t.regions[r].d.owner l.slot →
        (∀ m, u.checkLine r l key = (plain, true) →
          m = mergeLine plain (a.wbeats.getD n (0, 0)).1 (a.wbeats.getD n (0, 0)).2 →
          exec (.partialWrite q tid n) s = .next (u.modLine q a.seq n fun l => { l with phase := .merged, plain := m }).pump)
        ∧ (u.checkLine r l key = (plain, false) → u.regions[r].d.repair = false →
          exec (.partialWrite q tid n) s
            = .next ((u.poison r l.addr a.mid q (u.lineKix r l.slot)).failLine q a.seq n 2).pump)))
    ∧ (∀ (ks : List (Nat × Nat)) (kix : Nat), s.lineOf q tid.toNat n (fun _ l => l.phase = .repairing) = some (a, l, r) →
      kix = s.lineKix r l.slot → ks = repairs key kix l.addr l.major l.minor l.cipher l.tag →
      (∀ mask arg c (same : Bool) (m : Fin 4) v, ks = [(mask, arg)] → t.ctrLine r l.addr = some c → m = s.regions[r].d.port l.addr →
        same = (decide (majorOf c = l.major ∧ minorOf c (lineIx l.addr) = l.minor) && t.mps[m].alive) →
        (same = true → t.mps[m].free l.addr = true) → v = (t.logAddr r .tagRepaired l.addr a.mid q arg).countRegion r 5 1 →
        u = (if same then v.mpIssue m (.wback s.regions[r].d.owner l.addr) l.addr true (l.cipher ^^^ mask) l.tag a.clsIn
          else v) →
        plain = lineCipher key kix l.addr l.major l.minor (l.cipher ^^^ mask) →
        (a.op = 0 → l.released = false → exec (.tagRepair q tid n) s = .next ((u.modLine q a.seq n fun l =>
            { l with plain := plain, verified := true, released := true, status := 0 }).endLine q a.seq n id).pump)
        ∧ (a.op = 0 → l.released = true → exec (.tagRepair q tid n) s = .next (u.failLine q a.seq n 2).pump)
        ∧ (a.op = 1 → exec (.tagRepair q tid n) s
          = .next (u.modLine q a.seq n fun l => { l with phase := .repaired, plain := plain }).pump))
      ∧ (∀ arg, (ks = [] ∧ arg = 0) ∨ (2 ≤ ks.length ∧ arg = 1) → exec (.tagRepair q tid n) s
          = .next ((t.logAddr r .repairFailed l.addr a.mid q arg).tagFailed q a n l r).pump))

/-- Curtains (R199 to R202): CURTAIN_ISSUE completes once every earlier request of its master has been issued; CURTAIN_VERIFY
once every earlier read has ended, with TAG_FAIL where one failed after its release; CURTAIN_PERSIST once the earlier writes
have ended and what they touched is persistent, with MEM_ERR where a write-back failed, be it before the curtain began to wait. A curtain that completes lets its own
request go on.
Choices of the model in it: assumption 27. -/
def Obligations.MemoryCurtains : Prop :=
  ∀ (s : State) (q : Fin 4) (tid : BitVec 7) (a : Access),
    (s.curtainOf q tid.toNat 1 = some a → (∀ b ∈ s.rqps[q].accs, b.seq < a.seq → b.mid = a.mid → s.accIssued q b = true) →
      exec (.curtainIssue q tid) s = .next (s.endCurtain q a 0).pump)
    ∧ (∀ b, s.curtainOf q tid.toNat 1 = some a → b ∈ s.rqps[q].accs → b.seq < a.seq → b.mid = a.mid → s.accIssued q b = false →
      exec (.curtainIssue q tid) s = .next s)
    ∧ (s.curtainOf q tid.toNat 2 = some a →
      (∀ b ∈ s.rqps[q].accs, b.seq < a.seq → b.mid = a.mid →
        b.op ≠ 0 ∨ b.fixed.isSome = true ∨ ∀ l ∈ b.lines, l.phase = .done) →
      (∀ e ∈ s.rqps[q].vlost, e.1 ≠ a.mid) →
      ((∀ e ∈ s.rqps[q].vfails, e.1 ≠ a.mid) → exec (.curtainVerify q tid) s = .next (s.endCurtain q a 0).pump)
      ∧ ((∃ e ∈ s.rqps[q].vfails, e.1 = a.mid ∧ e.2 < a.seq) → ∃ rest, exec (.curtainVerify q tid) s
        = .next (((s.modRqp q fun x => { x with vfails := rest }).endCurtain q a 2).pump)
        ∧ ∀ e, e ∈ rest ↔ e ∈ s.rqps[q].vfails ∧ ¬(e.1 = a.mid ∧ e.2 < a.seq)))
    ∧ (s.curtainOf q tid.toNat 3 = some a → s.rqps[q].writesDone a = true → a.flush = some [] →
      (∀ e ∈ a.saves, e.2 ≤ (s.regions[Fin.ofNat 64 e.1]).saves) →
      (∀ e ∈ s.rqps[q].pfails, e.1 ≠ a.mid) → (∀ e ∈ s.rqps[q].plost, e.1 ≠ a.mid) →
      ∃ rest, exec (.curtainPersist q tid) s
        = .next (((s.modRqp q fun x => { x with wregs := rest }).endCurtain q a (if a.flushErr || s.flushLost s.rqps[q] a then 5 else 0)).pump)
      ∧ ∀ e, e ∈ rest ↔ e ∈ s.rqps[q].wregs ∧ ¬(e.1 = a.mid ∧ e.2.2.1 < a.seq))
    ∧ (a.region = none → ∀ st, s.endCurtain q a st = s.modAcc q a.seq fun a => { a with cur := some st })
    ∧ (∀ rn, a.region = some rn → a.fixed = none → a.op < 2 → s.endCurtain q a 0
      = (s.modAcc q a.seq fun a => { a with cur := some 0 }).countRegion (Fin.ofNat 64 rn) (if a.op = 0 then 0 else 1) a.lines.length)

/-- The longer work of the memory side: a page is re-encrypted once its writes are accepted, or its re-encryption is abandoned
where a read failed (R207, R209); a region is ready once
its INIT writes have ended, its pin with it as far as the cache had room for its lines (R179, R189); a pin counts once its lines are filled, or is gone once they are written back (R190); a drain
that lasts past 1.5 µs fails the Usher's commit (R230).
Choices of the model in it: assumptions 27, 28 and 29. -/
def Obligations.MemoryEvents : Prop :=
  ∀ (s t : State) (w : Wing) (r : Fin 64),
    (∀ (e : Reenc) page, s.reencOf w page = some e → r = Fin.ofNat 64 e.region → s.pageOut w page = false →
      t = (s.modMpe w fun m => { m with reencs := m.reencs.filter (·.page ≠ page) }).dropPage w page →
      (∀ major, e.failed = false → e.draining = true → e.writes = [] →
        ((s.access e.q e.seq).any fun a => a.lines.any (·.starts page)) = false →
        major = (s.ctrLine r page).elim 0 majorOf → major < 2 ^ 64 - 1 →
        exec (.pageReencrypted w page) s
          = .next ((t.countRegion r 7 1).logAddr r .pageReencrypted page e.mid e.q (major % 2 ^ 32)).pump)
      ∧ (e.failed = true → exec (.pageReencrypted w page) s = .next (t.abandon e page).pump))
    ∧ (∀ (pin : Bool) u, s.regions[r].st = .init → s.initCount r ≤ s.regions[r].initIx → s.initOut r = false →
      pin = (s.regions[r].d.pin && decide (s.regions[r].d.mode ≠ 0)) →
      u = (s.modRegion r fun x => { x with st := .active, root := 0 }) →
      t = (if pin then u.holdZeros r else u).log s.regions[r].d.owner .regionReady r.val 0 0 0 →
      exec (.regionReady r) s = .next (if t.regions[r].fillIx.isSome then t else t.answerWaiters (.pin r) .ok []).pump)
    ∧ (∀ i, s.regions[r].st = .active → s.regions[r].pinWait = none → s.regions[r].fillIx = some i →
      s.regions[r].d.mlines ≤ i → s.regions[r].d.pin = true →
      t = (s.modRegion r fun x => { x with fillIx := none, pinned := true, readyLate := false }) →
      exec (.pinFill r) s = .next (State.answerWaiters (if s.regions[r].readyLate then
        t.log s.regions[r].d.owner .regionReady r.val 0 0 0 else t) (.pin r) .ok []).pump)
    ∧ (s.regions[r].st = .active → s.regions[r].pinWait = none → s.regions[r].fillIx = none → s.regions[r].pinned = true →
      s.regions[r].d.pin = false →
      s.unflushed r = false → exec (.pinFill r) s = .next ((s.unpin r).answerWaiters (.pin r) .ok []).pump)
    ∧ (∀ t0 q a ch u, (s.wing w).ush.hold = some t0 → (s.wing w).ush.blocked = none → (s.wing w).ush.drained = false →
      oldest (s.undrained w) = some (q, a) → t0 + 1500 ≤ s.rt →
      (s.wing w).ush.commitCh = some ch → s.chans[ch].waiting = some (.ushCommit w false) →
      u = (((s.modUsh w fun u => { u with hold := none, commitCh := none, drained := false, blocked := none }).countWing w
        .commitFailed).log w .ushCommitFail 0 (s.blockPort q a) 0 0) →
      exec (.ushDrainTimeout w) s = .next (State.nextUsh 8 w (u.finish ch .ushDrainTimeout [wd (s.blockPort q a)])))

/-! ## The vault's own work (R250, R255, R265, R270, R276, R307) -/

/-- Root copies that wait together, up to six, share one REGION_ROOT journal record, whose roots are applied once it is committed
(R265). A key whose expiry has passed is marked spent with one KEY_SPENT event and count, and the inbound SAs under it close
(R255). The vault renews its masks with a fresh draw, reseeds, copies RT, where that has run on since a
start-up took it up, with the later epoch while Prompt runs (R307, R308), and stops its DRBG when a health test fails, with ENTROPY_FAIL on both
Call Boards and the KEY alarm (R270). It rewrites the slot copies of a wing whose path returns, unless the vault
is struck (R276).
Choices of the model in it: assumptions 2, 31 and 40. -/
def Obligations.VaultEvents : Prop :=
  ∀ s : State,
    (∀ cut rs body, rs = s.vlt.rootsAsked → rs ≠ [] → rs.length ≤ 6 → s.pwr.vddv = true → s.vlt.keys.ret.isSome = true →
      body = rs.flatMap s.rootEntry →
      exec (.journalCommit cut) s = .next ((s.modVlt fun v => { v with jq := [] }).commitRecord 3 rs.length s.vlt.updCtr
        s.vlt.kumDigest body cut fun t => ((t.modVlt fun v => Vault.applyRoots rs.length v body).rootsDone rs).pump))
    ∧ (∀ (ref : BitVec 24) l k x u, kLoc ref.toNat = some l → s.vlt.keyAt l = some k → s.cpUp = true → k.spent = false →
      x = s.keyWing l →
      u = (((s.closeUnder l).modVlt fun v => v.modKey l fun k => { k with spent := true }).log x .keySpent 0 l.ref 0 0).countWing
        x .keySpent →
      (k.attr.expiryS ≠ 0 → k.at' + k.attr.expiryS * 1000000000 ≤ s.rt → exec (.keyExpiry ref) s = .next u)
      ∧ (s.rt < k.at' + k.attr.expiryS * 1000000000 → exec (.keyExpiry ref) s = .next s))
    ∧ (∀ j w sai y, s.sa w sai = some y → (s.closeUnder (.sess j)).sa w sai
      = some (if y.r.inb ∧ fld y.r.keyRef 19 0 = j ∧ y.st = .active then { y with st := .closing, closeAt := s.rt } else y))
    ∧ (∀ w, s.sl.struck.contains (unitName 9 0 .sl) = true → exec (.vaultPathRestored w) s = .next s)
    ∧ (s.sl.struck.contains (unitName 9 0 .sl) = false → s.vlt.pathLostSl = true → exec (.vaultPathRestored .sl) s = .next (s.modVlt fun v =>
      { v with pathLostSl := false, slots := v.slots.map fun e => (e.1, { e.2 with inSl := true }) }))
    ∧ (s.sl.struck.contains (unitName 9 0 .sl) = false → s.vlt.pathLostSr = true → exec (.vaultPathRestored .sr) s = .next (s.modVlt fun v =>
      { v with pathLostSr := false, slots := v.slots.map fun e => (e.1, { e.2 with inSr := true }) }))
    ∧ (s.pwr.vddv = true → s.pwr.vddc = true → s.boot.phase ≠ .off → exec .rtCopy s = .next (s.modVlt fun v =>
      { v with
          rtCopy := if s.vlt.rtLive then s.rt else s.vlt.rtCopy
          vtCopy := if s.vlt.rtLive then s.vlt.vtimer else s.vlt.vtCopy
          epochCopy := laterEpoch s.sl.prm.epoch s.sr.prm.epoch }))
    ∧ (s.cpUp = true → s.vlt.drbgOk = true →
      exec .maskRefresh s = .next (s.modVlt fun v => { v with maskAt := s.rt, maskDraw := v.drbgN, drbgN := v.drbgN + 1 })
      ∧ exec .drbgReseed s = .next (s.modVlt fun v => { v with reseedAt := s.rt })
      ∧ exec .entropyFail s
        = .next (((s.modVlt fun v => { v with drbgOk := false }).logBoth .entropyFail 0 0 0 0).raiseAlarm .key))
    ∧ (s.vlt.drbgOk = false → exec .maskRefresh s = .next s)

/-! ## Tamper (R288 to R303) -/

/-- At each chip, once the one before has lasted its time, every driven line advances its LFSR and keeps its last 32 chips: each is
what its LFSR offers, or that of the alternating code (R290). Every 8 chips the settings written last take effect (R297) and each
pair and the shield are classified (R291), and a source that leaves its condition for one that is not NORMAL is a detection, which outside a
fuse move is answered at its level: at LOG a retention entry alone beside the events, at ALARM the TAMPER cause, at HOLD the
tamper hold (R293), after the key operations in progress have been aborted (R303). In the vault the Iron leaves no key cell, no retention key, a zeroised scratch slot and IRON_HELD (R299).
Choices of the model in it: assumptions 2, 32 and 33. -/
def Obligations.TamperEvents : Prop :=
  (∀ (s : State) (samples : List Bool), s.pwr.vddv = true → s.pwr.vddh = true → s.vlt.chipAt + s.chipNs ≤ s.vlt.vtimer →
    ∃ v : Vault, exec (.tamperChip samples) s = .next (s.modVlt fun _ => v)
      ∧ v.chipN = s.vlt.chipN + 1 ∧ v.chipAt = s.vlt.vtimer ∧ v.sram = s.vlt.sram ∧ v.keys = s.vlt.keys ∧ v.cond = s.vlt.cond
      ∧ ∀ (i : Fin 24) (l : LineCode), l = s.vlt.lines[i] →
        (s.vlt.lineOn i.val = false → v.lines[i] = { l with chips := [] })
        ∧ (s.vlt.lineOn i.val = true → ∃ c all, v.lines[i] = { lfsr := Config.lfsrNext l.lfsr, chips := all }
          ∧ (c = (l.lfsr.getLsbD 0, Config.chipPull i.val l.lfsr) ∨ c = altChip s.vlt.chipN i.val)
          ∧ all = (l.chips ++ [(c.1, c.2, samples.getD i.val false)]).drop (l.chips.length + 1 - 32)))
  ∧ (∀ (s : State) (samples : List Bool), s.vlt.vtimer < s.vlt.chipAt + s.chipNs → exec (.tamperChip samples) s = .next s)
  ∧ (∀ (s u : State) (v : Vault), v = { s.vlt with setNow := (List.range 11).map s.vlt.setting } → u = s.modVlt (fun _ => v) →
    s.pwr.vddv = true →
    (s.pwr.vddh = true → v.chipN % 8 = 0 → exec .tamperWindow s
      = .next (((((u.sense 0 (v.pairReads 0 1)).sense 1 (v.pairReads 2 3)).sense 2 (v.pairReads 4 5)).sense 3
        (v.pairReads 6 7)).sense 4 v.shieldReads))
    ∧ (s.pwr.vddh = true → v.chipN % 8 ≠ 0 → exec .tamperWindow s = .next s)
    ∧ (s.pwr.vddh = false → exec .tamperWindow s = .next u))
  ∧ (∀ (s : State) (hot : Bool), s.pwr.vddv = true →
    exec (.tempSource hot) s = .next (s.sense 7 (if hot then 0xA else 9)))
  ∧ (∀ (s : State) (i : Fin 10) (c : Nat) (t : State), t = s.setCond i c →
    (s.vlt.cond[i] = c → s.sense i c = s)
    ∧ (s.vlt.cond[i] ≠ c → c = 0 → s.sense i c = t)
    ∧ (s.vlt.cond[i] ≠ c → c ≠ 0 → ∀ r u,
      r = (t.eachWing fun u w => u.rhlFault w (if i = 5 ∨ i = 6 ∨ i = 8 then 4 else 3) (unitName 9 0 .sl)) →
      u = (if r.cpUp then r.abortVault .tamperAbort none else r) → u.vlt.burn = none →
      s.sense i c = u.respond (u.detected i.val c)))
  ∧ (∀ (s : State) (d : Detected), s.cpUp = true →
    (d.level = 0 → s.respond d = (((s.modVlt fun v => v.rcbPush d.rcb).logWords .sl d.sl).logWords .sr d.sr))
    ∧ (d.level = 1 → s.respond d
      = ((((s.modVlt fun v => v.rcbPush d.rcb).logWords .sl d.sl).logWords .sr d.sr).raiseAlarm .tamper))
    ∧ (d.level = 2 → (s.respond d).vlt.hold = true ∧ (s.respond d).sys.alarm.testBit 3 = true
      ∧ (s.respond d).vlt.keys = s.vlt.keys ∧ (s.respond d).vlt.classA = s.vlt.classA))
  ∧ (∀ v : Vault, Memory.wf v.sram = true → ∀ t, t = v.iron →
    t.keys = {} ∧ (∀ i : Fin 64, t.classA[i] = none) ∧ t.slots = [] ∧ t.sess = [] ∧ t.ironHeld = true
    ∧ memBytes t.sram (slotAddr (1 - v.activeSlot)) 192 = List.replicate 192 0 ∧ t.updCtr = v.updCtr
    ∧ (∀ id, id < 128 → t.version id = v.version id) ∧ (∀ n, n < 64 → t.lease n = v.lease n) ∧ t.lc = v.lc ∧ t.epoch = v.epoch)

/-! ## Reset, supplies and sleep (R382, R413 to R424) -/

/-- What the VDDC domain is in after its reset (R382, R413, R423): every unit and register at its reset state, the vault's
retention SRAM, fuses and owner slots as they were, and no session key, memory key slot or expiring Class A key.
Choices of the model in it: assumptions 2, 24 and 25. -/
def Obligations.PowerEvents : Prop :=
  (∀ s t : State, t = s.coreReset →
    t.boot = {} ∧ t.sl = {} ∧ t.sr = { served := .r } ∧ t.sys = {} ∧ t.upd = {} ∧ t.lanes = State.reset.lanes
    ∧ t.regions = State.reset.regions ∧ t.chans = State.reset.chans ∧ t.cores = State.reset.cores ∧ t.cues = State.reset.cues
    ∧ t.wear = [] ∧ (∀ p : Fin 64, t.ports[p].st = .closed) ∧ (∀ q : Fin 4, t.rqps[q].st = .closed)
    ∧ t.vlt.sram = s.vlt.sram ∧ t.vlt.owner = s.vlt.owner ∧ t.vlt.epoch = s.vlt.epoch ∧ t.vlt.rtCopy = s.vlt.rtCopy
    ∧ t.vlt.slots = [] ∧ t.vlt.sess = [] ∧ t.vlt.burn = none ∧ (s.vlt.burn = none → t.vlt.lc = s.vlt.lc)
    ∧ (∀ (i : Fin 64) id k, t.vlt.classA[i] = some (id, k) → k.uses = 0 ∧ k.attr.expireReset = false
      ∧ ∃ k', s.vlt.classA[i] = some (id, k') ∧ k'.key = k.key ∧ k'.attr = k.attr))
  ∧ (∀ s : State,
    (s.boot.phase ≠ .off → s.pwr.vddv = true →
      exec .coreRstN s = .next
        { s.coreReset with pwr := { s.pwr with entering := false, saving := false, coreRst := true, late := false } })
    ∧ (s.boot.phase = .off ∨ s.pwr.vddv = false →
      exec .coreRstN s = .next { s with pwr := { s.pwr with coreRst := true, late := false } })
    ∧ (s.pwr.vddc = true → s.pwr.vddv = true → s.pwr.presentAt + 50000 ≤ s.vlt.vtimer →
      exec .resetHold s = .next { s with pwr := { s.pwr with holdOver := true } })
    ∧ (s.pwr.vddc = true → s.coreWatched = false →
      exec .vddcLoss s = .next { s.coreReset.haltRt with
        pwr := { s.pwr with entering := false, saving := false, vddc := false, holdOver := false } })
    ∧ (s.pwr.vddc = true → s.coreWatched = true →
      ∃ u, u = (s.cutBurn.sense 5 7).coreReset.haltRt
        ∧ exec .vddcLoss s = .next { u with pwr := { u.pwr with vddc := false, holdOver := false } })
    ∧ (∃ t, exec .vddvLoss s = .next t ∧ t.pwr.vddv = false ∧ t.pwr.holdOver = false ∧ t.pwr.slpAck = false ∧ t.vlt.sram = []
      ∧ t.vlt.sramLost = true ∧ t.vlt.keys = {} ∧ (∀ i : Fin 64, t.vlt.classA[i] = none) ∧ t.vlt.owner = s.vlt.owner
      ∧ t.vlt.epoch = s.vlt.epoch ∧ (s.vlt.burn = none → t.vlt.lc = s.vlt.lc) ∧ t.boot = {} ∧ t.sys = {}))
  ∧ (∀ s t : State,
    (∀ above, s.coreWatched = true →
      exec (.supplyExcursion .vddc above) s = .next (s.sense 5 (if above then 8 else 7)))
    ∧ (s.coreWatched = false → exec (.supplyExcursion .vddc true) s = .next s
      ∧ exec (.supplyExcursion .vddc false) s = .next { s.haltRt with pwr := { s.pwr with vddc := false, holdOver := false } })
    ∧ (s.pwr.vddv = true → exec (.supplyExcursion .vddv true) s = .next (s.sense 6 8))
    ∧ (s.pwr.vddv = true → t = (s.setCond 6 7).coreReset.haltRt → exec (.supplyExcursion .vddv false) s
      = .next (State.modVlt { t with pwr := { t.pwr with vddv := false, holdOver := false } } fun v => { v with dip := some 7 }))
    ∧ (∀ u, u = s.cutHashes → s.pwr.vddh = true → s.pwr.vddv = true → s.vlt.burn = none → u.vlt.burn = none →
      t = State.modVlt { u with pwr := { u.pwr with vddh := false, fuseVpp := false } } (fun v =>
        { v with lines := v.lines.map fun (l : LineCode) => { l with chips := [] } }) →
      exec (.supplyExcursion .vddh false) s = .next (if u.pwr.vddv then t.sense 8 0xB else t))
    ∧ (s.pwr.vddc = false →
      t = { s with pwr := { s.pwr with vddc := true, presentAt := s.vlt.vtimer, holdOver := false } } →
      exec (.supplyPresent .vddc) s = .next (t.setCond 5 0))
    ∧ (s.pwr.vddv = false → s.vlt.dip = none →
      t = { s with pwr := { s.pwr with vddv := true, presentAt := s.vlt.vtimer, holdOver := false } } →
      exec (.supplyPresent .vddv) s = .next (t.setCond 6 0).findVddh)
    ∧ (∀ c, s.pwr.vddv = false → s.vlt.dip = some c →
      t = State.modVlt { s with pwr := { s.pwr with vddv := true, presentAt := s.vlt.vtimer, holdOver := false } }
        (fun v => { v with dip := none }) →
      exec (.supplyPresent .vddv) s = .next ((t.detect 6 c).setCond 6 0).findVddh)
    ∧ s.findVddh = (if s.pwr.vddh then s else s.sense 8 0xB)
    ∧ (t = { s with pwr := { s.pwr with vddh := true, fuseVpp := true } } →
      exec (.supplyPresent .vddh) s = .next (t.setCond 8 0)))
  ∧ (∀ s : State,
    (s.pwr.vddv = true → s.cpUp = true → s.pwr.coreRst = false → s.pwr.entering = false →
      ∃ t, exec .sleepEntry s = .next t ∧ t.pwr = { s.pwr with slpReq := true, entering := true }
        ∧ t.vlt = s.vlt ∧ (s.boot.phase = .ready → ∀ p : Fin 64, s.ports[p].st = .opened →
          t.ports[p] = { s.ports[p] with st := .closing, closeAt := s.rt }))
    ∧ (s.pwr.entering = true → s.boot.phase ≠ .ready ∨ s.sleepQueues.sleepReady = true → s.vlt.burn = none →
      ∃ t, exec .slpAck s = .next t ∧ t.pwr = { s.pwr with slpAck := true, entering := false, saving := false } ∧ t.boot = {}
        ∧ (s.vlt.rtLive = true → t.vlt.rtCopy = s.rt ∧ t.vlt.vtCopy = s.vlt.vtimer)
        ∧ (s.vlt.rtLive = false → t.vlt.rtCopy = s.vlt.rtCopy ∧ t.vlt.vtCopy = s.vlt.vtCopy)
        ∧ t.vlt.slots = [] ∧ t.vlt.sess = [] ∧ t.vlt.lc = s.vlt.lc
        ∧ t.vlt.sleepTs = s.now .sl ∧ t.vlt.sleepValid = decide (s.sl.prm.st ≠ .unset)))

/-! ## Start-up (R283, R284, R287) -/

/-- Start-up stops in the held state that its first failing step names (R283, R284), with no key of the vault; where retention is
lost and every epoch bit is burnt it is EPOCH_EXHAUSTED, in any state (R240, R280). Else it leaves the boot
ROM running with the keys of the present context, Prompt in one epoch in both wings and RT copied with it (R307, R308), and each
memory port in the mode of its tie (R65). A FUSE_VPP that falls while an EPOCH bit burns holds it too, and an entropy source that
fails sets the KEY cause (R270, R387). Both cores run the image, having made their first heartbeat, once the Script reports
ready (R287). START_UP in sleep without an assertion of CORE_RST_N has no effect; with SLP_REQ still 1 the block stays asleep
(R422), and a release within the reset hold takes effect at its end (R414).
Choices of the model in it: assumptions 21, 23, 24 and 34. -/
def Obligations.StartUp : Prop :=
  (∀ (s : State) (o : StartObs) (lc : Vector LcBit 20) (rail : Bool), s.boot.phase = .off → s.outOfHold = true →
    (s.pwr.slpAck = false ∨ (o.slpReq = false ∧ (s.pwr.coreRst = true ∨ s.pwr.late = true))) →
    lc = (if s.fuseOk then s.vlt.lc.map fun b => if b.any then LcBit.full else b else s.vlt.lc) →
    rail = (s.pwr.railOk && !lc.any fun b => b.any && b != LcBit.full) →
    (lcValid lc = false → ∃ t, exec (.startUp o) s = .next t ∧ t.boot.phase = .held .lcFuseInvalid ∧ t.vlt.keys = {}
      ∧ t.pwr = { s.pwr with coreRst := false, late := false, slpReq := o.slpReq, slpAck := false })
    ∧ (lcValid lc = true → rail = false →
      ∃ t, exec (.startUp o) s = .next t ∧ t.boot.phase = .held .fuseRailAbsent ∧ t.vlt.keys = {})
    ∧ (lcValid lc = true → rail = true → o.entropyOk = false →
      ∃ t, exec (.startUp o) s = .next t ∧ t.boot.phase = .held .entropyFail ∧ t.vlt.keys = {} ∧ t.vlt.lc = lc
        ∧ t.sys.alarm.testBit 2 = true)
    ∧ (lcValid lc = true → rail = true → o.entropyOk = true →
      (∃ i, 4 ≤ i ∧ i < 9 ∧ condOf i (o.conds.getD i 0) = true) →
      ∃ t, exec (.startUp o) s = .next t ∧ t.boot.phase = .held .tamperAtBoot ∧ t.vlt.keys = {})
    ∧ (lcValid lc = true → rail = true → o.entropyOk = true → (∀ i, i < 9 → condOf i (o.conds.getD i 0) = false) →
      s.vlt.epoch < 256 → (o.epochCut = none ∨ burnsEpoch (lcCodeOf lc) = false) → o.drbgOk = false →
      ∃ t, exec (.startUp o) s = .next t ∧ t.boot.phase = .held .entropyFail ∧ t.vlt.keys = {} ∧ t.sys.alarm.testBit 2 = true)
    ∧ (lcValid lc = true → rail = true → o.entropyOk = true → (∀ i, i < 9 → condOf i (o.conds.getD i 0) = false) →
      s.vlt.epoch < 256 → (o.epochCut = none ∨ burnsEpoch (lcCodeOf lc) = false) → o.drbgOk = true →
      o.katOk = false → ∃ t, exec (.startUp o) s = .next t ∧ t.boot.phase = .held .katFail ∧ t.vlt.keys = {})
    ∧ (∀ burnt, lcValid lc = true → rail = true → o.entropyOk = true →
      (∀ i, i < 9 → condOf i (o.conds.getD i 0) = false) → s.vlt.epoch < 256 → s.vlt.sramLost = true →
      burnsEpoch (lcCodeOf lc) = true → o.epochCut = some burnt →
      ∃ t, exec (.startUp o) s = .next t ∧ t.boot.phase = .held .fuseRailAbsent ∧ t.vlt.keys = {}
        ∧ t.vlt.epoch = s.vlt.epoch + b2n burnt ∧ t.pwr.fuseVpp = false)
    ∧ (lcValid lc = true → rail = true → o.entropyOk = true → (∀ i, i < 9 → condOf i (o.conds.getD i 0) = false) →
      s.vlt.epoch < 256 → (o.epochCut = none ∨ burnsEpoch (lcCodeOf lc) = false) → o.drbgOk = true →
      o.katOk = true → ∃ t, exec (.startUp o) s = .next t ∧ t.boot.phase = .rom ∧ t.vlt.lc = lc ∧ t.vlt.lcCode = lcCodeOf lc
        ∧ t.vlt.drbgOk = true
        ∧ t.pwr = { s.pwr with coreRst := false, late := false, slpReq := o.slpReq, slpAck := false }
        ∧ t.vlt.keys.ret = some (retKeyOf t.vlt.ctx)
        ∧ (t.vlt.ironHeld = false → t.vlt.keys.wkr = some (wkrOf t.vlt.ctx))
        ∧ (t.sl.prm.epoch = (s.vlt.epochCopy + 1) % 2 ^ 16 ∨ t.sl.prm.epoch = 1) ∧ t.sr.prm.epoch = t.sl.prm.epoch
        ∧ t.vlt.epochCopy = t.sl.prm.epoch ∧ t.vlt.rtCopy = t.vlt.rt
        ∧ (s.vlt.sramLost = true → t.sl.prm.epoch = 1 ∧ t.vlt.rt = 0)
        ∧ (∀ m : Fin 4, t.mps[m] = { s.mps[m] with sb := o.sb.getD m.val s.mps[m].sb }))
    ∧ (lcValid lc = true → rail = true → o.entropyOk = true → (∀ i, i < 9 → condOf i (o.conds.getD i 0) = false) →
      256 ≤ s.vlt.epoch → s.vlt.sramLost = true →
      ∃ t, exec (.startUp o) s = .next t ∧ t.boot.phase = .held .epochExhausted ∧ t.vlt.keys = {}))
  ∧ (∀ (s : State) (o : StartObs),
    s.boot.phase ≠ .off ∨ (s.pwr.slpAck = true ∧ s.pwr.coreRst = false ∧ s.pwr.late = false) → exec (.startUp o) s = .next s)
  ∧ (∀ (s : State) (o : StartObs) (released : Bool), s.boot.phase = .off → released = (s.pwr.coreRst || s.pwr.late) →
    (s.pwr.slpAck = false ∨ released = true) → (s.outOfHold = false ∨ (s.pwr.slpAck = true ∧ o.slpReq = true)) →
    exec (.startUp o) s = .next { s with
      pwr := { s.pwr with coreRst := false, late := released && !s.outOfHold, slpReq := o.slpReq } })
  ∧ (∀ (s : State) (bad : List (Fin 28)), s.boot.phase = .loading →
    ∃ t : State, exec (.scriptReady bad) s = .next (t.unitTests bad) ∧ t.boot = { s.boot with phase := .ready }
      ∧ (∀ c : CoreId, (t.core c).running = true ∧ (t.core c).hash = s.boot.hash ∧ (t.core c).beats = 1)
      ∧ (∀ w : Wing, (t.wing w).ready = true ∧ (t.wing w).failed = (s.wing w).failed) ∧ t.lanes = s.lanes
      ∧ ((∀ l : Fin 28, s.lanes[l].st ≠ .struck) → t.unitTests [] = t))

/-! ## The bridge and the heartbeats (R39, R330, R339, R340, R357) -/

/-- Tokens, silence and liveness (R330, R333, R339): a token renews the time that silence is measured from; one that fails parity is
counted and the work that it carried restarts; a beacon carries its sender's link state, and a far wing that has declared is
declared too; 20 µs of silence, or
the 16th bad token in 20 µs, is declared; a mark that goes stale or returns moves a wing between PARTITIONED and FAR_LOST; a
wing that has heard the far wing for 20 µs is REJOIN_READY. Heartbeats (R39): a beat counts while the other core is able to take
over, arms takeover at the third, and
the third miss in a row of an armed core loses it.
Choices of the model in it: assumption 38. -/
def Obligations.BridgeEvents : Prop :=
  ∀ (s : State) (w : Wing) (c : CoreId),
    (s.wingRuns w = true →
      (∃ t, exec (.bridgeToken w .work true) s = .next t ∧ (t.wing w).lastTok = s.rt ∧ (t.wing w).link = (s.wing w).link)
      ∧ (∀ l, l ≠ (s.wing (otherWing w)).link.code → ∀ parityOk, exec (.bridgeToken w (.beacon l) parityOk) s = .next s)
      ∧ (∀ l, l = (s.wing (otherWing w)).link.code → (s.wing w).link = .joined →
        ∃ t, exec (.bridgeToken w (.beacon l) true) s = .next t ∧ (t.wing w).lastTok = s.rt
          ∧ ((s.wing (otherWing w)).link = .partitioned ∨ (s.wing (otherWing w)).link = .farLost ↔ (t.wing w).link ≠ .joined))
      ∧ ((s.wing w).link = .joined → ∀ u v ts tok, s.tokSent w tok = true → u = (s.countWing w .brgParity).rhlFault w 0 (unitName 8 0 w) →
        ts = (s.wing w).parTimes.filter (fun r => decide (s.rt < r + 20000)) ++ [s.rt] →
        v = (u.modWing w fun y => { y with parTimes := ts }) →
        (∀ x, x = (if tok = .work then v.restartLost else v) →
          (ts.length < 16 → exec (.bridgeToken w tok false) s = .next x)
          ∧ (16 ≤ ts.length → exec (.bridgeToken w tok false) s = .next (x.declareLost w 1)))
        ∧ (v.lentWork = [] → v.crossLines = [] → v.restartLost = v))
      ∧ ((s.wing w).link = .joined → (s.wing w).lastTok + 20000 ≤ s.rt →
        exec (.bridgeSilence w) s = .next (s.declareLost w 0))
      ∧ (s.rt < (s.wing w).lastTok + 20000 → exec (.bridgeSilence w) s = .next s)
      ∧ (s.pathLost w = false → ¬((s.wing (otherWing w)).link = .farLost ∧ s.wingRuns (otherWing w) = true) →
        ∃ t, exec (.livenessMark w) s = .next t ∧ t.mark w = some s.rt ∧ t.mark (otherWing w) = s.mark (otherWing w)
          ∧ t = { s with vlt := t.vlt })
      ∧ (s.pathLost w = false → (s.wing (otherWing w)).link = .farLost → s.wingRuns (otherWing w) = true →
        ∃ t, exec (.livenessMark w) s = .next t ∧ t.mark w = some s.rt ∧ (t.wing (otherWing w)).link = .partitioned)
      ∧ ((s.wing w).link = .partitioned → s.markFresh (otherWing w) = false → exec (.farMarkStale w) s
        = .next (((s.modWing w fun x => { x with link := .farLost }).log w .linkState 0 2 0 0).refuseAll (otherWing w)))
      ∧ ((s.wing w).link = .partitioned → (s.wing w).tokRun + 20000 ≤ s.rt → s.rt < (s.wing w).lastTok + 20000 →
        (s.wing w).farOk = true → exec (.rejoinReady w) s
          = .next ((s.modWing w fun y => { y with link := .rejoinReady }).log w .bridgeRestored 0 0 0 0)))
    ∧ (∀ cause, (s.wing w).link ≠ .joined → s.declareLost w cause = s)
    ∧ (s.pwr.awake = true → s.boot.phase = .ready → (s.core c).beating = true →
      (∀ got, s.sl.link = .joined → s.sr.link = .joined → (s.core c).suspended = false →
        got = (if (s.core (otherCore c)).able then (s.core c).got + 1 else 0) → exec (.heartbeat c) s
        = .next (s.modCore c fun x => { x with
            beats := (x.beats + 1) % 2 ^ 16
            beatAt := s.rt
            missed := 0
            got := got
            armed := decide (3 ≤ got) }))
      ∧ (s.sl.link ≠ .joined ∨ s.sr.link ≠ .joined ∨ (s.core c).suspended = true →
        exec (.heartbeat c) s = .next (s.modCore c fun x => { x with beats := (x.beats + 1) % 2 ^ 16, beatAt := s.rt }))
      ∧ (s.sl.link = .joined → s.sr.link = .joined → (s.core c).suspended = false → (s.core c).got ≠ 0 →
        (s.core c).beatAt + 1000000 * ((s.core c).missed + 1) ≤ s.rt →
        ∀ u, u = (s.modCore c fun x => { x with missed := min 3 (x.missed + 1) }) →
        ((s.core c).missed < 2 ∨ (s.core c).armed = false → exec (.heartbeatMiss c) s = .next u)
        ∧ (2 ≤ (s.core c).missed → (s.core c).armed = true → exec (.heartbeatMiss c) s
          = .next ((u.rhlFault (homeWing c) 1 (unitName 3 0 (homeWing c))).loseCore c))))

/-! ## Repair of itself (R26, R348, R351 to R355) -/

/-- The watchdog strikes the lane whose stage is stuck, unless what is stuck waits for the bridge (R332); a unit that has no spare is struck with UNIT_STRUCK, and a wing's vault path
is lost with KEY_PATH_LOST (R26, R351). A margin
below STRIKE_MARGIN four times in a row strikes a lane that has an understudy, or marks a unit that AUTO_STRIKE does not let
strike (R348). The wear check warns once per
crossing. The march test is not one of a trie bank. A lane that passes its test takes its role, one that fails is struck (R352). A bad row is remapped, or the bank has
none left (R354); a struck bank's contents are read from the spare (R355).
Choices of the model in it: assumptions 2 and 36. -/
def Obligations.RepairEvents : Prop :=
  ∀ (s : State) (w : Wing), s.pwr.awake = true → s.boot.phase = .ready →
    (∀ (l : Fin 28) sent waits, waits = (s.lanes[l].items.any (fun i => i.wing ≠ laneWing l) && !s.bridgeOk) →
      (s.lanes[l].st ≠ .struck → waits = false → exec (.stuckHandshake (.lane l) sent) s
        = .next ((s.rhlFault (laneWing l) 1 (unitName 0 (l.val % 14) (laneWing l))).strikeLane l 1 sent))
      ∧ (waits = true → exec (.stuckHandshake (.lane l) sent) s = .next s))
    ∧ (∀ sent, s.waitsBridge w = true → exec (.stuckHandshake (.dispatcher w) sent) s = .next s
      ∧ exec (.stuckHandshake (.mpePath w) sent) s = .next s)
    ∧ (∀ sent ix, s.isStruck (.trieStage w ix) = false → exec (.stuckHandshake (.trieStage w ix) sent) s
      = .next (((((s.rhlFault w 1 (unitName 2 ix w)).log w .unitStruck 0 (unitName 2 ix w) 0 0).modWing w fun x =>
          { x with struck := x.struck ++ [unitName 2 ix w] })).roleChanged w (unitName 2 ix w) true))
    ∧ (∀ sent, s.vlt.pathLostSl = false → exec (.stuckHandshake (.vaultPath .sl) sent) s
      = .next ((s.modVlt fun v => { v with pathLostSl := true }).log .sl .keyPathLost 0 0 0 0))
    ∧ (∀ (u : UnitId) kind ix m name r v, monitored u = some (kind, ix, w) → (s.wing w).failed = false → ix < unitCount kind →
      m ≤ 65535 → name = unitName kind ix w → r = ((tget s.wear name).getD {}).sample m (s.wing w).wearCfg.strike →
      v = (s.rhlFault w 2 name).modWear name (fun _ => r) →
      (r.below < 4 → exec (.marginSample u m) s = .next v)
      ∧ (4 ≤ r.below → s.isStruck u = false → (s.wing w).wearCfg.autoStrike = false → r.critical = false →
        exec (.marginSample u m) s = .next (((v.log w .wearCritical 0 name m 0).markCritical w name).raiseAlarm .wear))
      ∧ (∀ l, u = .lane l → 4 ≤ r.below → s.lanes[l].st ≠ .struck → (s.wing w).wearCfg.autoStrike = true → s.laneSpare l = true →
        exec (.marginSample u m) s = .next (v.strikeLane l 0 0)))
    ∧ ((s.wing w).failed = false → (s.wing w).headless = false →
      (s.wing w).wearAt + (s.wing w).wearCfg.period * 1000000000 ≤ s.rt →
      (∃ t, exec (.wearCheck w) s = .next t ∧ (t.wing w).wearAt = s.rt ∧ (t.wing w).wearN = (s.wing w).wearN + 1)
      ∧ (∀ name r, s.wear = [(name, r)] → name / 2 ^ 16 % 2 = wingIx w → r.sampled = true → r.warned = false →
        r.low < (s.wing w).wearCfg.warn → s.rowErrs = [] →
        exec (.wearCheck w) s = .next (State.log
          { (s.modWing w fun x => { x with wearAt := s.rt, wearN := x.wearN + 1 }) with
            wear := [(name, { r with hist := (r.hist ++ [r.low]).drop (r.hist.length + 1 - 64), low := r.margin, fresh := false, warned := true,
                                     changed := s.now w })] } w .wearWarning 0 name r.low 0)))
    ∧ (∀ l, (s.understudies w).find? (fun l => s.lanes[l].testing && !s.lanes[l].items.any s.inRelease) = some l →
      s.lanes[l].closing = false → exec (.understudyPromotion w true) s = .next (s.promote l)
        ∧ exec (.understudyPromotion w false) s = .next (s.strikeLane l 2 0))
    ∧ (∀ bank row k, (s.wing w).failed = false → (bankOf bank).isNone = true → k = bankKey w bank →
      (((tget s.rows k).getD []).length < Config.spareRows bank →
        exec (.marchTest w bank row true) s = .next (State.log { s with
          rows := tput s.rows k ((tget s.rows k).getD [] ++ [(row, ((tget s.rows k).getD []).length)]) } w .rowRemapped 0 k row 0))
      ∧ (Config.spareRows bank ≤ ((tget s.rows k).getD []).length → exec (.marchTest w bank row true) s
        = .next (((s.log w .rowsExhausted 0 k 0 0).markCritical w k).raiseAlarm .wear))
      ∧ exec (.marchTest w bank row false) s = .next s)
    ∧ (∀ bank row faulty, (bankOf bank).isNone = false → exec (.marchTest w bank row faulty) s = .next s)
    ∧ (∀ ix rest t, (s.wing w).trie.copying = (false, ix) :: rest →
      t = (s.modTrie w fun t => { t with copying := rest, struckBanks := t.struckBanks ++ [(false, ix)], spareUsed := true }) →
      exec (.bankStruck w) s = .next (State.nextCommit 9 w (State.answerWaiters
        (((t.roleChanged w (unitName 1 ix w) true).roleChanged w (unitName 1 16 w) false).log w .bankStruck 0 (unitName 2 ix w)
          0 0) (.strike (.trieBank w false ix)) .ok [])))

/-! ## Closing (R343, R344) -/

/-- A closing unit reports CLOSED, with its event, only once its last admitted work has completed; when its close timeout has run
out first, the engine applies the forced close, and before that FORCED_CLOSE has no effect (R343, R344).
Choices of the model in it: assumption 40. -/
def Obligations.Closes : Prop :=
  ∀ (s : State) (p : Fin 64) (q : Fin 4) (r : Fin 64), s.pwr.awake = true → s.boot.phase = .ready →
    (s.ports[p].st = .closing →
      (s.ports[p].staging = [] → s.ports[p].inbound = [] → s.ports[p].readmit = [] → ∀ t, t = (s.modPort p fun x =>
          { x with st := .closed, forced := false, lsOut := x.lsOut.map fun o => { o with done := true } }) →
        exec (.unitClosed (.port p)) s
          = .next ((t.log (portWing p) .unitClosed 0 0 p.val 0).answerWaiters (.port p) .ok []))
      ∧ (s.ports[p].staging ≠ [] ∨ s.ports[p].inbound ≠ [] ∨ s.ports[p].readmit ≠ [] → exec (.unitClosed (.port p)) s = .next s)
      ∧ (∀ d, d = s.ports[p].closeAt + (s.wing (portWing p)).saTimeout * 1000 →
        (s.rt < d → exec (.forcedClose (.port p)) s = .next s)
        ∧ (d ≤ s.rt → exec (.forcedClose (.port p)) s = .next ((s.dropPortWork p).endPortClose p true))))
    ∧ (s.rqps[q].st = .closing →
      ((∀ a ∈ s.rqps[q].accs, a.own ≠ none) → s.rqps[q].dq.length ≤ 1 → exec (.unitClosed (.rqp q)) s = .next (s.endRqpClose q false))
      ∧ ((∃ a ∈ s.rqps[q].accs, a.own = none) ∨ 1 < s.rqps[q].dq.length → exec (.unitClosed (.rqp q)) s = .next s)
      ∧ (∀ d, d = s.rqps[q].closeAt + (s.wing (rqpWing q)).regTimeout * 1000 →
        (s.rt < d → exec (.forcedClose (.rqp q)) s = .next s)
        ∧ (d ≤ s.rt → exec (.forcedClose (.rqp q)) s
          = .next (((s.rqps[q].accs.filter fun a => a.own.isNone).foldl (fun s a => s.endAcc q a 7) s).endRqpClose q true))))
    ∧ (∀ w, w = s.regions[r].d.owner → s.regions[r].st = .closing →
      (s.regionBusy r = false → s.unflushed r = false → s.initOut r = false → ∀ t u,
        t = (s.modRegion r fun x => { x with st := .closed, forced := false, pinned := false, fillIx := none, pinWait := none }) →
        u = (t.purgeMeta r).log w .unitClosed 0 2 r.val 0 →
        exec (.unitClosed (.region r)) s
          = .next ((u.answerWaiters (.region r) .ok []).answerWaiters (.pin r) .unitClosing []))
      ∧ (s.regionBusy r = true → exec (.unitClosed (.region r)) s = .next s)
      ∧ (∀ d, d = s.regions[r].closeAt + (s.wing w).regTimeout * 1000 →
        (s.rt < d → exec (.forcedClose (.region r)) s = .next s)
        ∧ (d ≤ s.rt → exec (.forcedClose (.region r)) s = .next (s.forceRegion r))))
    ∧ (∀ w sai x, s.sa w sai = some x → x.st = .closing →
      (s.rt < x.closeAt + (s.wing w).saTimeout * 1000 → exec (.forcedClose (.sa w sai)) s = .next s)
      ∧ (x.closeAt + (s.wing w).saTimeout * 1000 ≤ s.rt →
        exec (.forcedClose (.sa w sai)) s = .next (s.forceSa w sai)))

/-! ## Tables, the retention SRAM and its journal (R238, R264, R265) -/

/-- A sparse table answers what was last put under a key and nothing under a key deleted, and keeps its keys rising. The bytes of
the retention SRAM read as last written, whatever was written elsewhere, and two canonical memories that read alike are one
list.
Choices of the model in it: assumption 7. -/
def Obligations.TablesAndSram : Prop :=
  (∀ (α : Type) (t : Tbl α) (k n : Nat) (v : α),
    tget (tput t k v) n = (if n = k then some v else tget t n) ∧ (Tbl.wf t = true → Tbl.wf (tput t k v) = true)
    ∧ (Tbl.wf t = true → Tbl.wf (tdel t k) = true ∧ tget (tdel t k) n = (if n = k then none else tget t n)))
  ∧ (∀ (m m' : List Host.Cell) (a n : Nat) (b : Byte) (bs : Bytes), Memory.wf m = true →
    memRead (memWrite m a b) n = (if n = a then b else memRead m n)
    ∧ memBytes (memPut m a bs) a bs.length = bs
    ∧ (n < a ∨ a + bs.length ≤ n → memRead (memPut m a bs) n = memRead m n)
    ∧ (∀ x, x < 2 ^ 32 → memRd32 (memWr32 m a x) a = x) ∧ (∀ x, x < 2 ^ 64 → memRd64 (memWr64 m a x) a = x)
    ∧ (Memory.wf m' = true → (∀ i, memRead m i = memRead m' i) → m = m'))

/-- A journal record (R264, R265): PREPARED leaves the active slot and its COMMIT word as they were; COMMITTED names the slot
written, whose SLOT_MAC verifies, whose SEQ is one more and which gives the update counter, the digest and the body; nothing
outside the two slots and the COMMIT word changes.
Choices of the model in it: assumption 11. -/
def Obligations.JournalRecord : Prop :=
  ∀ (v p t : Vault) (k : Bytes) (rtype count upd : Nat) (digest body : Bytes), Memory.wf v.sram = true →
    v.keys.ret = some k → digest.length = 48 → body.length ≤ 108 → rtype < 4 → count < 8 → upd < 2 ^ 64 →
    p = v.prepare rtype count upd digest body → t = p.commit →
    p.activeSlot = v.activeSlot ∧ p.updCtr = v.updCtr ∧ p.journalBody = v.journalBody
    ∧ t.activeSlot = 1 - v.activeSlot ∧ t.updCtr = upd ∧ t.kumDigest = digest
    ∧ t.journalBody = body ++ List.replicate (108 - body.length) 0 ∧ slotMacOk k t.sram t.activeSlot = true
    ∧ memRd32 t.sram (slotAddr t.activeSlot + 4) = (memRd32 v.sram (slotAddr v.activeSlot + 4) + 1) % 2 ^ 32
    ∧ (∀ a, a < 0x40 ∨ (0x44 ≤ a ∧ a < 0x80) ∨ 0x200 ≤ a → memRead t.sram a = memRead v.sram a)

/-! ## Whole-machine statements -/

/-- Every mailbox command (R369, R370): one whose SEQ is not the expected one is answered SEQ_ERROR with the expected value and
takes no SEQ; one that a check refuses is answered with that status, its SEQ taken; a row whose command does not come next has
no effect. Answering marks the first unanswered place and no other; a new mapping of the channel that waited takes effect with its
last answer (R328).
Choices of the model in it: assumption 1. -/
def Obligations.Responses : Prop :=
  (∀ (s : State) (ch : Fin 8) (p : Place) (o : OpSpec) (sel : Place → Bool) (body : State → Ctx → Res),
    (s.chans[ch].head = some p → p.phase = .queued → p.op = o.op → sel p = true → s.canServe ch = true →
      (p.seq ≠ s.chans[ch].expect.toNat →
        s.runSel ch o sel body = s.reply ch .seqError [wd s.chans[ch].expect.toNat])
      ∧ (∀ st, p.seq = s.chans[ch].expect.toNat → (took s ch).refuses ch p o = some st →
        s.runSel ch o sel body = (took s ch).finish ch st []))
    ∧ (s.chans[ch].head = none → s.runSel ch o sel body = s)
    ∧ (s.chans[ch].head = some p → p.op ≠ o.op ∨ p.phase ≠ .queued → s.runSel ch o sel body = s))
  ∧ (∀ (s : State) (ch : Fin 8) (st : Status) (ws : List Word) (pre rest : List Place) (p : Place),
    s.chans[ch].queue = pre ++ p :: rest → (∀ x ∈ pre, ∃ a b, x.phase = .answered a b) → (∀ a b, p.phase ≠ .answered a b) →
    s.chans[ch].head = some p
    ∧ (∀ u, u = s.modChan ch (fun c => { c with queue := pre ++ { p with phase := .answered st ws } :: rest }) →
      (s.chans[ch].mapNext = none → s.rawReply ch st ws = u)
      ∧ (∀ w, s.chans[ch].mapNext = some w → rest = [] → s.rawReply ch st ws = u.modChan ch fun c =>
        { c with mapWing := w, served := (s.wing w).served, mapNext := none })))
  ∧ (∀ (p : Place) (st : Status) (ws : List Word), ws.length ≤ 62 → ∀ r, r = p.response st ws →
    r.length = ws.length + 2 ∧ fld (wordAt r 0) 9 0 = p.op ∧ fld (wordAt r 0) 21 16 = ws.length ∧ fld (wordAt r 0) 23 22 = p.wing
    ∧ fld (wordAt r 0) 31 24 = st.code ∧ wordAt r 1 = p.seq ∧ r.drop 2 = ws)

/-- The state right after reset: what the manual gives at reset.
Choices of the model in it: assumptions 4, 5, 7 and 8. -/
def Obligations.ResetState : Prop :=
  ∀ s, s = State.reset →
    s.pending = [] ∧ sramOk s ∧ s.boot.phase = .off ∧ s.pwr.coreRst = true
    ∧ (∀ l : Fin 28, s.lanes[l].st = if l.val < 12 ∨ (14 ≤ l.val ∧ l.val < 26) then .inService else .understudy)
    ∧ (∀ w : Wing, (s.wing w).meshEtype = 0x88B5 ∧ (s.wing w).unkeyedTtl = 10 ∧ (∀ q : Fin 3, (s.wing w).grq.timeout[q] = 2000)
      ∧ (s.wing w).saTimeout = 10000 ∧ (s.wing w).regTimeout = 10000 ∧ (s.wing w).prm.st = .unset
      ∧ (s.wing w).cbd.head = 0 ∧ (s.wing w).cbd.tail = 0 ∧ (s.wing w).sas = []
      ∧ (s.wing w).wearCfg = { warn := 1000, strike := 400, period := 600, autoStrike := true, promoteEn := true }
      ∧ (s.wing w).ush.gen = 0 ∧ (s.wing w).ush.force.rules = [] ∧ (s.wing w).ush.force.service = false
      ∧ (∀ m, ((tget (s.wing w).ush.force.mg m).getD {}) = { group := 0, priv := true, debug := false, valid := true }))
    ∧ (∀ n : Fin 8, s.chans[n].mapWing = (if n.val ≤ 3 then .sl else .sr) ∧ s.chans[n].served = (if n.val ≤ 3 then .l else .r)
      ∧ s.chans[n].expect = 0 ∧ s.chans[n].queue = [] ∧ s.chans[n].irqEn = 0 ∧ s.chans[n].ownGroup = 0
      ∧ s.chans[n].locked = false ∧ s.sys.line[n] = n.val)
    ∧ s.sys.lock = false ∧ s.sys.alarm = 0 ∧ s.sys.zEn = true ∧ s.sys.zStep = 0 ∧ s.sys.zAborts = 0
    ∧ (∀ p : Fin 64, s.ports[p].st = .closed) ∧ (∀ q : Fin 4, s.rqps[q].st = .closed)
    ∧ (∀ r : Fin 64, s.regions[r].st = .notInstalled) ∧ (∀ m : Fin 4, s.mps[m].timeout = 100)

/-- Whatever command runs, the retention SRAM keeps its canonical form.
Choices of the model in it: assumption 7. -/
def Obligations.StepKeepsSram : Prop :=
  ∀ s t : State, sramOk s → step s = .next t → sramOk t

/-- Fuses only burn (R236, R277): whatever command runs, a physical copy of a life-cycle bit that is burnt stays burnt, the
epoch does not fall, and an owner slot that holds a hash keeps it. -/
def Obligations.FusesOnlyBurn : Prop :=
  ∀ s t : State, step s = .next t →
    (∀ i : Fin 20, (s.vlt.lc[i].c0 = true → t.vlt.lc[i].c0 = true) ∧ (s.vlt.lc[i].c1 = true → t.vlt.lc[i].c1 = true)
      ∧ (s.vlt.lc[i].c2 = true → t.vlt.lc[i].c2 = true))
    ∧ s.vlt.epoch ≤ t.vlt.epoch
    ∧ (∀ (i : Fin 4) h, s.vlt.owner[i] = some h → t.vlt.owner[i] = some h)
end

