-- ==== Sys2Proof/Laws/State.lean ====
section
/-! SUPPORT. What each update of the state leaves and what it sets: one lemma for each field. -/

namespace Sys2Proof.Machine

/-! ## State.modVlt -/

@[simp] theorem State.modVlt_pending (s : State) (f : Vault → Vault) : (s.modVlt f).pending = s.pending := rfl
@[simp] theorem State.modVlt_freeCtr (s : State) (f : Vault → Vault) : (s.modVlt f).freeCtr = s.freeCtr := rfl
@[simp] theorem State.modVlt_pwr (s : State) (f : Vault → Vault) : (s.modVlt f).pwr = s.pwr := rfl
@[simp] theorem State.modVlt_boot (s : State) (f : Vault → Vault) : (s.modVlt f).boot = s.boot := rfl
@[simp] theorem State.modVlt_vlt (s : State) (f : Vault → Vault) : (s.modVlt f).vlt = f s.vlt := rfl
@[simp] theorem State.modVlt_sl (s : State) (f : Vault → Vault) : (s.modVlt f).sl = s.sl := rfl
@[simp] theorem State.modVlt_sr (s : State) (f : Vault → Vault) : (s.modVlt f).sr = s.sr := rfl
@[simp] theorem State.modVlt_ports (s : State) (f : Vault → Vault) : (s.modVlt f).ports = s.ports := rfl
@[simp] theorem State.modVlt_rqps (s : State) (f : Vault → Vault) : (s.modVlt f).rqps = s.rqps := rfl
@[simp] theorem State.modVlt_mps (s : State) (f : Vault → Vault) : (s.modVlt f).mps = s.mps := rfl
@[simp] theorem State.modVlt_lanes (s : State) (f : Vault → Vault) : (s.modVlt f).lanes = s.lanes := rfl
@[simp] theorem State.modVlt_regions (s : State) (f : Vault → Vault) : (s.modVlt f).regions = s.regions := rfl
@[simp] theorem State.modVlt_cues (s : State) (f : Vault → Vault) : (s.modVlt f).cues = s.cues := rfl
@[simp] theorem State.modVlt_chans (s : State) (f : Vault → Vault) : (s.modVlt f).chans = s.chans := rfl
@[simp] theorem State.modVlt_sys (s : State) (f : Vault → Vault) : (s.modVlt f).sys = s.sys := rfl
@[simp] theorem State.modVlt_cores (s : State) (f : Vault → Vault) : (s.modVlt f).cores = s.cores := rfl
@[simp] theorem State.modVlt_upd (s : State) (f : Vault → Vault) : (s.modVlt f).upd = s.upd := rfl
@[simp] theorem State.modVlt_spill (s : State) (f : Vault → Vault) : (s.modVlt f).spill = s.spill := rfl
@[simp] theorem State.modVlt_wear (s : State) (f : Vault → Vault) : (s.modVlt f).wear = s.wear := rfl
@[simp] theorem State.modVlt_rows (s : State) (f : Vault → Vault) : (s.modVlt f).rows = s.rows := rfl
@[simp] theorem State.modVlt_rowErrs (s : State) (f : Vault → Vault) : (s.modVlt f).rowErrs = s.rowErrs := rfl
@[simp] theorem State.modVlt_upsets (s : State) (f : Vault → Vault) : (s.modVlt f).upsets = s.upsets := rfl
@[simp] theorem State.modVlt_tap (s : State) (f : Vault → Vault) : (s.modVlt f).tap = s.tap := rfl

/-! ## State.modPort -/

@[simp] theorem State.modPort_pending (s : State) (p : Fin 64) (f : Port → Port) : (s.modPort p f).pending = s.pending := rfl
@[simp] theorem State.modPort_freeCtr (s : State) (p : Fin 64) (f : Port → Port) : (s.modPort p f).freeCtr = s.freeCtr := rfl
@[simp] theorem State.modPort_pwr (s : State) (p : Fin 64) (f : Port → Port) : (s.modPort p f).pwr = s.pwr := rfl
@[simp] theorem State.modPort_boot (s : State) (p : Fin 64) (f : Port → Port) : (s.modPort p f).boot = s.boot := rfl
@[simp] theorem State.modPort_vlt (s : State) (p : Fin 64) (f : Port → Port) : (s.modPort p f).vlt = s.vlt := rfl
@[simp] theorem State.modPort_sl (s : State) (p : Fin 64) (f : Port → Port) : (s.modPort p f).sl = s.sl := rfl
@[simp] theorem State.modPort_sr (s : State) (p : Fin 64) (f : Port → Port) : (s.modPort p f).sr = s.sr := rfl
@[simp] theorem State.modPort_ports (s : State) (p : Fin 64) (f : Port → Port) : (s.modPort p f).ports = s.ports.set p (f s.ports[p]) := rfl
@[simp] theorem State.modPort_rqps (s : State) (p : Fin 64) (f : Port → Port) : (s.modPort p f).rqps = s.rqps := rfl
@[simp] theorem State.modPort_mps (s : State) (p : Fin 64) (f : Port → Port) : (s.modPort p f).mps = s.mps := rfl
@[simp] theorem State.modPort_lanes (s : State) (p : Fin 64) (f : Port → Port) : (s.modPort p f).lanes = s.lanes := rfl
@[simp] theorem State.modPort_regions (s : State) (p : Fin 64) (f : Port → Port) : (s.modPort p f).regions = s.regions := rfl
@[simp] theorem State.modPort_cues (s : State) (p : Fin 64) (f : Port → Port) : (s.modPort p f).cues = s.cues := rfl
@[simp] theorem State.modPort_chans (s : State) (p : Fin 64) (f : Port → Port) : (s.modPort p f).chans = s.chans := rfl
@[simp] theorem State.modPort_sys (s : State) (p : Fin 64) (f : Port → Port) : (s.modPort p f).sys = s.sys := rfl
@[simp] theorem State.modPort_cores (s : State) (p : Fin 64) (f : Port → Port) : (s.modPort p f).cores = s.cores := rfl
@[simp] theorem State.modPort_upd (s : State) (p : Fin 64) (f : Port → Port) : (s.modPort p f).upd = s.upd := rfl
@[simp] theorem State.modPort_spill (s : State) (p : Fin 64) (f : Port → Port) : (s.modPort p f).spill = s.spill := rfl
@[simp] theorem State.modPort_wear (s : State) (p : Fin 64) (f : Port → Port) : (s.modPort p f).wear = s.wear := rfl
@[simp] theorem State.modPort_rows (s : State) (p : Fin 64) (f : Port → Port) : (s.modPort p f).rows = s.rows := rfl
@[simp] theorem State.modPort_rowErrs (s : State) (p : Fin 64) (f : Port → Port) : (s.modPort p f).rowErrs = s.rowErrs := rfl
@[simp] theorem State.modPort_upsets (s : State) (p : Fin 64) (f : Port → Port) : (s.modPort p f).upsets = s.upsets := rfl
@[simp] theorem State.modPort_tap (s : State) (p : Fin 64) (f : Port → Port) : (s.modPort p f).tap = s.tap := rfl

/-! ## State.modRqp -/

@[simp] theorem State.modRqp_pending (s : State) (q : Fin 4) (f : RqPort → RqPort) : (s.modRqp q f).pending = s.pending := rfl
@[simp] theorem State.modRqp_freeCtr (s : State) (q : Fin 4) (f : RqPort → RqPort) : (s.modRqp q f).freeCtr = s.freeCtr := rfl
@[simp] theorem State.modRqp_pwr (s : State) (q : Fin 4) (f : RqPort → RqPort) : (s.modRqp q f).pwr = s.pwr := rfl
@[simp] theorem State.modRqp_boot (s : State) (q : Fin 4) (f : RqPort → RqPort) : (s.modRqp q f).boot = s.boot := rfl
@[simp] theorem State.modRqp_vlt (s : State) (q : Fin 4) (f : RqPort → RqPort) : (s.modRqp q f).vlt = s.vlt := rfl
@[simp] theorem State.modRqp_sl (s : State) (q : Fin 4) (f : RqPort → RqPort) : (s.modRqp q f).sl = s.sl := rfl
@[simp] theorem State.modRqp_sr (s : State) (q : Fin 4) (f : RqPort → RqPort) : (s.modRqp q f).sr = s.sr := rfl
@[simp] theorem State.modRqp_ports (s : State) (q : Fin 4) (f : RqPort → RqPort) : (s.modRqp q f).ports = s.ports := rfl
@[simp] theorem State.modRqp_rqps (s : State) (q : Fin 4) (f : RqPort → RqPort) : (s.modRqp q f).rqps = s.rqps.set q (f s.rqps[q]) := rfl
@[simp] theorem State.modRqp_mps (s : State) (q : Fin 4) (f : RqPort → RqPort) : (s.modRqp q f).mps = s.mps := rfl
@[simp] theorem State.modRqp_lanes (s : State) (q : Fin 4) (f : RqPort → RqPort) : (s.modRqp q f).lanes = s.lanes := rfl
@[simp] theorem State.modRqp_regions (s : State) (q : Fin 4) (f : RqPort → RqPort) : (s.modRqp q f).regions = s.regions := rfl
@[simp] theorem State.modRqp_cues (s : State) (q : Fin 4) (f : RqPort → RqPort) : (s.modRqp q f).cues = s.cues := rfl
@[simp] theorem State.modRqp_chans (s : State) (q : Fin 4) (f : RqPort → RqPort) : (s.modRqp q f).chans = s.chans := rfl
@[simp] theorem State.modRqp_sys (s : State) (q : Fin 4) (f : RqPort → RqPort) : (s.modRqp q f).sys = s.sys := rfl
@[simp] theorem State.modRqp_cores (s : State) (q : Fin 4) (f : RqPort → RqPort) : (s.modRqp q f).cores = s.cores := rfl
@[simp] theorem State.modRqp_upd (s : State) (q : Fin 4) (f : RqPort → RqPort) : (s.modRqp q f).upd = s.upd := rfl
@[simp] theorem State.modRqp_spill (s : State) (q : Fin 4) (f : RqPort → RqPort) : (s.modRqp q f).spill = s.spill := rfl
@[simp] theorem State.modRqp_wear (s : State) (q : Fin 4) (f : RqPort → RqPort) : (s.modRqp q f).wear = s.wear := rfl
@[simp] theorem State.modRqp_rows (s : State) (q : Fin 4) (f : RqPort → RqPort) : (s.modRqp q f).rows = s.rows := rfl
@[simp] theorem State.modRqp_rowErrs (s : State) (q : Fin 4) (f : RqPort → RqPort) : (s.modRqp q f).rowErrs = s.rowErrs := rfl
@[simp] theorem State.modRqp_upsets (s : State) (q : Fin 4) (f : RqPort → RqPort) : (s.modRqp q f).upsets = s.upsets := rfl
@[simp] theorem State.modRqp_tap (s : State) (q : Fin 4) (f : RqPort → RqPort) : (s.modRqp q f).tap = s.tap := rfl

/-! ## State.modMp -/

@[simp] theorem State.modMp_pending (s : State) (m : Fin 4) (f : MPort → MPort) : (s.modMp m f).pending = s.pending := rfl
@[simp] theorem State.modMp_freeCtr (s : State) (m : Fin 4) (f : MPort → MPort) : (s.modMp m f).freeCtr = s.freeCtr := rfl
@[simp] theorem State.modMp_pwr (s : State) (m : Fin 4) (f : MPort → MPort) : (s.modMp m f).pwr = s.pwr := rfl
@[simp] theorem State.modMp_boot (s : State) (m : Fin 4) (f : MPort → MPort) : (s.modMp m f).boot = s.boot := rfl
@[simp] theorem State.modMp_vlt (s : State) (m : Fin 4) (f : MPort → MPort) : (s.modMp m f).vlt = s.vlt := rfl
@[simp] theorem State.modMp_sl (s : State) (m : Fin 4) (f : MPort → MPort) : (s.modMp m f).sl = s.sl := rfl
@[simp] theorem State.modMp_sr (s : State) (m : Fin 4) (f : MPort → MPort) : (s.modMp m f).sr = s.sr := rfl
@[simp] theorem State.modMp_ports (s : State) (m : Fin 4) (f : MPort → MPort) : (s.modMp m f).ports = s.ports := rfl
@[simp] theorem State.modMp_rqps (s : State) (m : Fin 4) (f : MPort → MPort) : (s.modMp m f).rqps = s.rqps := rfl
@[simp] theorem State.modMp_mps (s : State) (m : Fin 4) (f : MPort → MPort) : (s.modMp m f).mps = s.mps.set m (f s.mps[m]) := rfl
@[simp] theorem State.modMp_lanes (s : State) (m : Fin 4) (f : MPort → MPort) : (s.modMp m f).lanes = s.lanes := rfl
@[simp] theorem State.modMp_regions (s : State) (m : Fin 4) (f : MPort → MPort) : (s.modMp m f).regions = s.regions := rfl
@[simp] theorem State.modMp_cues (s : State) (m : Fin 4) (f : MPort → MPort) : (s.modMp m f).cues = s.cues := rfl
@[simp] theorem State.modMp_chans (s : State) (m : Fin 4) (f : MPort → MPort) : (s.modMp m f).chans = s.chans := rfl
@[simp] theorem State.modMp_sys (s : State) (m : Fin 4) (f : MPort → MPort) : (s.modMp m f).sys = s.sys := rfl
@[simp] theorem State.modMp_cores (s : State) (m : Fin 4) (f : MPort → MPort) : (s.modMp m f).cores = s.cores := rfl
@[simp] theorem State.modMp_upd (s : State) (m : Fin 4) (f : MPort → MPort) : (s.modMp m f).upd = s.upd := rfl
@[simp] theorem State.modMp_spill (s : State) (m : Fin 4) (f : MPort → MPort) : (s.modMp m f).spill = s.spill := rfl
@[simp] theorem State.modMp_wear (s : State) (m : Fin 4) (f : MPort → MPort) : (s.modMp m f).wear = s.wear := rfl
@[simp] theorem State.modMp_rows (s : State) (m : Fin 4) (f : MPort → MPort) : (s.modMp m f).rows = s.rows := rfl
@[simp] theorem State.modMp_rowErrs (s : State) (m : Fin 4) (f : MPort → MPort) : (s.modMp m f).rowErrs = s.rowErrs := rfl
@[simp] theorem State.modMp_upsets (s : State) (m : Fin 4) (f : MPort → MPort) : (s.modMp m f).upsets = s.upsets := rfl
@[simp] theorem State.modMp_tap (s : State) (m : Fin 4) (f : MPort → MPort) : (s.modMp m f).tap = s.tap := rfl

/-! ## State.modLane -/

@[simp] theorem State.modLane_pending (s : State) (l : Fin 28) (f : LaneRec → LaneRec) : (s.modLane l f).pending = s.pending := rfl
@[simp] theorem State.modLane_freeCtr (s : State) (l : Fin 28) (f : LaneRec → LaneRec) : (s.modLane l f).freeCtr = s.freeCtr := rfl
@[simp] theorem State.modLane_pwr (s : State) (l : Fin 28) (f : LaneRec → LaneRec) : (s.modLane l f).pwr = s.pwr := rfl
@[simp] theorem State.modLane_boot (s : State) (l : Fin 28) (f : LaneRec → LaneRec) : (s.modLane l f).boot = s.boot := rfl
@[simp] theorem State.modLane_vlt (s : State) (l : Fin 28) (f : LaneRec → LaneRec) : (s.modLane l f).vlt = s.vlt := rfl
@[simp] theorem State.modLane_sl (s : State) (l : Fin 28) (f : LaneRec → LaneRec) : (s.modLane l f).sl = s.sl := rfl
@[simp] theorem State.modLane_sr (s : State) (l : Fin 28) (f : LaneRec → LaneRec) : (s.modLane l f).sr = s.sr := rfl
@[simp] theorem State.modLane_ports (s : State) (l : Fin 28) (f : LaneRec → LaneRec) : (s.modLane l f).ports = s.ports := rfl
@[simp] theorem State.modLane_rqps (s : State) (l : Fin 28) (f : LaneRec → LaneRec) : (s.modLane l f).rqps = s.rqps := rfl
@[simp] theorem State.modLane_mps (s : State) (l : Fin 28) (f : LaneRec → LaneRec) : (s.modLane l f).mps = s.mps := rfl
@[simp] theorem State.modLane_lanes (s : State) (l : Fin 28) (f : LaneRec → LaneRec) : (s.modLane l f).lanes = s.lanes.set l (f s.lanes[l]) := rfl
@[simp] theorem State.modLane_regions (s : State) (l : Fin 28) (f : LaneRec → LaneRec) : (s.modLane l f).regions = s.regions := rfl
@[simp] theorem State.modLane_cues (s : State) (l : Fin 28) (f : LaneRec → LaneRec) : (s.modLane l f).cues = s.cues := rfl
@[simp] theorem State.modLane_chans (s : State) (l : Fin 28) (f : LaneRec → LaneRec) : (s.modLane l f).chans = s.chans := rfl
@[simp] theorem State.modLane_sys (s : State) (l : Fin 28) (f : LaneRec → LaneRec) : (s.modLane l f).sys = s.sys := rfl
@[simp] theorem State.modLane_cores (s : State) (l : Fin 28) (f : LaneRec → LaneRec) : (s.modLane l f).cores = s.cores := rfl
@[simp] theorem State.modLane_upd (s : State) (l : Fin 28) (f : LaneRec → LaneRec) : (s.modLane l f).upd = s.upd := rfl
@[simp] theorem State.modLane_spill (s : State) (l : Fin 28) (f : LaneRec → LaneRec) : (s.modLane l f).spill = s.spill := rfl
@[simp] theorem State.modLane_wear (s : State) (l : Fin 28) (f : LaneRec → LaneRec) : (s.modLane l f).wear = s.wear := rfl
@[simp] theorem State.modLane_rows (s : State) (l : Fin 28) (f : LaneRec → LaneRec) : (s.modLane l f).rows = s.rows := rfl
@[simp] theorem State.modLane_rowErrs (s : State) (l : Fin 28) (f : LaneRec → LaneRec) : (s.modLane l f).rowErrs = s.rowErrs := rfl
@[simp] theorem State.modLane_upsets (s : State) (l : Fin 28) (f : LaneRec → LaneRec) : (s.modLane l f).upsets = s.upsets := rfl
@[simp] theorem State.modLane_tap (s : State) (l : Fin 28) (f : LaneRec → LaneRec) : (s.modLane l f).tap = s.tap := rfl

/-! ## State.modRegion -/

@[simp] theorem State.modRegion_pending (s : State) (r : Fin 64) (f : Region → Region) : (s.modRegion r f).pending = s.pending := rfl
@[simp] theorem State.modRegion_freeCtr (s : State) (r : Fin 64) (f : Region → Region) : (s.modRegion r f).freeCtr = s.freeCtr := rfl
@[simp] theorem State.modRegion_pwr (s : State) (r : Fin 64) (f : Region → Region) : (s.modRegion r f).pwr = s.pwr := rfl
@[simp] theorem State.modRegion_boot (s : State) (r : Fin 64) (f : Region → Region) : (s.modRegion r f).boot = s.boot := rfl
@[simp] theorem State.modRegion_vlt (s : State) (r : Fin 64) (f : Region → Region) : (s.modRegion r f).vlt = s.vlt := rfl
@[simp] theorem State.modRegion_sl (s : State) (r : Fin 64) (f : Region → Region) : (s.modRegion r f).sl = s.sl := rfl
@[simp] theorem State.modRegion_sr (s : State) (r : Fin 64) (f : Region → Region) : (s.modRegion r f).sr = s.sr := rfl
@[simp] theorem State.modRegion_ports (s : State) (r : Fin 64) (f : Region → Region) : (s.modRegion r f).ports = s.ports := rfl
@[simp] theorem State.modRegion_rqps (s : State) (r : Fin 64) (f : Region → Region) : (s.modRegion r f).rqps = s.rqps := rfl
@[simp] theorem State.modRegion_mps (s : State) (r : Fin 64) (f : Region → Region) : (s.modRegion r f).mps = s.mps := rfl
@[simp] theorem State.modRegion_lanes (s : State) (r : Fin 64) (f : Region → Region) : (s.modRegion r f).lanes = s.lanes := rfl
@[simp] theorem State.modRegion_regions (s : State) (r : Fin 64) (f : Region → Region) : (s.modRegion r f).regions = s.regions.set r (f s.regions[r]) := rfl
@[simp] theorem State.modRegion_cues (s : State) (r : Fin 64) (f : Region → Region) : (s.modRegion r f).cues = s.cues := rfl
@[simp] theorem State.modRegion_chans (s : State) (r : Fin 64) (f : Region → Region) : (s.modRegion r f).chans = s.chans := rfl
@[simp] theorem State.modRegion_sys (s : State) (r : Fin 64) (f : Region → Region) : (s.modRegion r f).sys = s.sys := rfl
@[simp] theorem State.modRegion_cores (s : State) (r : Fin 64) (f : Region → Region) : (s.modRegion r f).cores = s.cores := rfl
@[simp] theorem State.modRegion_upd (s : State) (r : Fin 64) (f : Region → Region) : (s.modRegion r f).upd = s.upd := rfl
@[simp] theorem State.modRegion_spill (s : State) (r : Fin 64) (f : Region → Region) : (s.modRegion r f).spill = s.spill := rfl
@[simp] theorem State.modRegion_wear (s : State) (r : Fin 64) (f : Region → Region) : (s.modRegion r f).wear = s.wear := rfl
@[simp] theorem State.modRegion_rows (s : State) (r : Fin 64) (f : Region → Region) : (s.modRegion r f).rows = s.rows := rfl
@[simp] theorem State.modRegion_rowErrs (s : State) (r : Fin 64) (f : Region → Region) : (s.modRegion r f).rowErrs = s.rowErrs := rfl
@[simp] theorem State.modRegion_upsets (s : State) (r : Fin 64) (f : Region → Region) : (s.modRegion r f).upsets = s.upsets := rfl
@[simp] theorem State.modRegion_tap (s : State) (r : Fin 64) (f : Region → Region) : (s.modRegion r f).tap = s.tap := rfl

/-! ## State.modCue -/

@[simp] theorem State.modCue_pending (s : State) (c : Fin 16) (f : Cue → Cue) : (s.modCue c f).pending = s.pending := rfl
@[simp] theorem State.modCue_freeCtr (s : State) (c : Fin 16) (f : Cue → Cue) : (s.modCue c f).freeCtr = s.freeCtr := rfl
@[simp] theorem State.modCue_pwr (s : State) (c : Fin 16) (f : Cue → Cue) : (s.modCue c f).pwr = s.pwr := rfl
@[simp] theorem State.modCue_boot (s : State) (c : Fin 16) (f : Cue → Cue) : (s.modCue c f).boot = s.boot := rfl
@[simp] theorem State.modCue_vlt (s : State) (c : Fin 16) (f : Cue → Cue) : (s.modCue c f).vlt = s.vlt := rfl
@[simp] theorem State.modCue_sl (s : State) (c : Fin 16) (f : Cue → Cue) : (s.modCue c f).sl = s.sl := rfl
@[simp] theorem State.modCue_sr (s : State) (c : Fin 16) (f : Cue → Cue) : (s.modCue c f).sr = s.sr := rfl
@[simp] theorem State.modCue_ports (s : State) (c : Fin 16) (f : Cue → Cue) : (s.modCue c f).ports = s.ports := rfl
@[simp] theorem State.modCue_rqps (s : State) (c : Fin 16) (f : Cue → Cue) : (s.modCue c f).rqps = s.rqps := rfl
@[simp] theorem State.modCue_mps (s : State) (c : Fin 16) (f : Cue → Cue) : (s.modCue c f).mps = s.mps := rfl
@[simp] theorem State.modCue_lanes (s : State) (c : Fin 16) (f : Cue → Cue) : (s.modCue c f).lanes = s.lanes := rfl
@[simp] theorem State.modCue_regions (s : State) (c : Fin 16) (f : Cue → Cue) : (s.modCue c f).regions = s.regions := rfl
@[simp] theorem State.modCue_cues (s : State) (c : Fin 16) (f : Cue → Cue) : (s.modCue c f).cues = s.cues.set c (f s.cues[c]) := rfl
@[simp] theorem State.modCue_chans (s : State) (c : Fin 16) (f : Cue → Cue) : (s.modCue c f).chans = s.chans := rfl
@[simp] theorem State.modCue_sys (s : State) (c : Fin 16) (f : Cue → Cue) : (s.modCue c f).sys = s.sys := rfl
@[simp] theorem State.modCue_cores (s : State) (c : Fin 16) (f : Cue → Cue) : (s.modCue c f).cores = s.cores := rfl
@[simp] theorem State.modCue_upd (s : State) (c : Fin 16) (f : Cue → Cue) : (s.modCue c f).upd = s.upd := rfl
@[simp] theorem State.modCue_spill (s : State) (c : Fin 16) (f : Cue → Cue) : (s.modCue c f).spill = s.spill := rfl
@[simp] theorem State.modCue_wear (s : State) (c : Fin 16) (f : Cue → Cue) : (s.modCue c f).wear = s.wear := rfl
@[simp] theorem State.modCue_rows (s : State) (c : Fin 16) (f : Cue → Cue) : (s.modCue c f).rows = s.rows := rfl
@[simp] theorem State.modCue_rowErrs (s : State) (c : Fin 16) (f : Cue → Cue) : (s.modCue c f).rowErrs = s.rowErrs := rfl
@[simp] theorem State.modCue_upsets (s : State) (c : Fin 16) (f : Cue → Cue) : (s.modCue c f).upsets = s.upsets := rfl
@[simp] theorem State.modCue_tap (s : State) (c : Fin 16) (f : Cue → Cue) : (s.modCue c f).tap = s.tap := rfl

/-! ## State.modChan -/

@[simp] theorem State.modChan_pending (s : State) (n : Fin 8) (f : Chan → Chan) : (s.modChan n f).pending = s.pending := rfl
@[simp] theorem State.modChan_freeCtr (s : State) (n : Fin 8) (f : Chan → Chan) : (s.modChan n f).freeCtr = s.freeCtr := rfl
@[simp] theorem State.modChan_pwr (s : State) (n : Fin 8) (f : Chan → Chan) : (s.modChan n f).pwr = s.pwr := rfl
@[simp] theorem State.modChan_boot (s : State) (n : Fin 8) (f : Chan → Chan) : (s.modChan n f).boot = s.boot := rfl
@[simp] theorem State.modChan_vlt (s : State) (n : Fin 8) (f : Chan → Chan) : (s.modChan n f).vlt = s.vlt := rfl
@[simp] theorem State.modChan_sl (s : State) (n : Fin 8) (f : Chan → Chan) : (s.modChan n f).sl = s.sl := rfl
@[simp] theorem State.modChan_sr (s : State) (n : Fin 8) (f : Chan → Chan) : (s.modChan n f).sr = s.sr := rfl
@[simp] theorem State.modChan_ports (s : State) (n : Fin 8) (f : Chan → Chan) : (s.modChan n f).ports = s.ports := rfl
@[simp] theorem State.modChan_rqps (s : State) (n : Fin 8) (f : Chan → Chan) : (s.modChan n f).rqps = s.rqps := rfl
@[simp] theorem State.modChan_mps (s : State) (n : Fin 8) (f : Chan → Chan) : (s.modChan n f).mps = s.mps := rfl
@[simp] theorem State.modChan_lanes (s : State) (n : Fin 8) (f : Chan → Chan) : (s.modChan n f).lanes = s.lanes := rfl
@[simp] theorem State.modChan_regions (s : State) (n : Fin 8) (f : Chan → Chan) : (s.modChan n f).regions = s.regions := rfl
@[simp] theorem State.modChan_cues (s : State) (n : Fin 8) (f : Chan → Chan) : (s.modChan n f).cues = s.cues := rfl
@[simp] theorem State.modChan_chans (s : State) (n : Fin 8) (f : Chan → Chan) : (s.modChan n f).chans = s.chans.set n (f s.chans[n]) := rfl
@[simp] theorem State.modChan_sys (s : State) (n : Fin 8) (f : Chan → Chan) : (s.modChan n f).sys = s.sys := rfl
@[simp] theorem State.modChan_cores (s : State) (n : Fin 8) (f : Chan → Chan) : (s.modChan n f).cores = s.cores := rfl
@[simp] theorem State.modChan_upd (s : State) (n : Fin 8) (f : Chan → Chan) : (s.modChan n f).upd = s.upd := rfl
@[simp] theorem State.modChan_spill (s : State) (n : Fin 8) (f : Chan → Chan) : (s.modChan n f).spill = s.spill := rfl
@[simp] theorem State.modChan_wear (s : State) (n : Fin 8) (f : Chan → Chan) : (s.modChan n f).wear = s.wear := rfl
@[simp] theorem State.modChan_rows (s : State) (n : Fin 8) (f : Chan → Chan) : (s.modChan n f).rows = s.rows := rfl
@[simp] theorem State.modChan_rowErrs (s : State) (n : Fin 8) (f : Chan → Chan) : (s.modChan n f).rowErrs = s.rowErrs := rfl
@[simp] theorem State.modChan_upsets (s : State) (n : Fin 8) (f : Chan → Chan) : (s.modChan n f).upsets = s.upsets := rfl
@[simp] theorem State.modChan_tap (s : State) (n : Fin 8) (f : Chan → Chan) : (s.modChan n f).tap = s.tap := rfl

/-! ## State.modCore -/

@[simp] theorem State.modCore_pending (s : State) (c : CoreId) (f : Core → Core) : (s.modCore c f).pending = s.pending := rfl
@[simp] theorem State.modCore_freeCtr (s : State) (c : CoreId) (f : Core → Core) : (s.modCore c f).freeCtr = s.freeCtr := rfl
@[simp] theorem State.modCore_pwr (s : State) (c : CoreId) (f : Core → Core) : (s.modCore c f).pwr = s.pwr := rfl
@[simp] theorem State.modCore_boot (s : State) (c : CoreId) (f : Core → Core) : (s.modCore c f).boot = s.boot := rfl
@[simp] theorem State.modCore_vlt (s : State) (c : CoreId) (f : Core → Core) : (s.modCore c f).vlt = s.vlt := rfl
@[simp] theorem State.modCore_sl (s : State) (c : CoreId) (f : Core → Core) : (s.modCore c f).sl = s.sl := rfl
@[simp] theorem State.modCore_sr (s : State) (c : CoreId) (f : Core → Core) : (s.modCore c f).sr = s.sr := rfl
@[simp] theorem State.modCore_ports (s : State) (c : CoreId) (f : Core → Core) : (s.modCore c f).ports = s.ports := rfl
@[simp] theorem State.modCore_rqps (s : State) (c : CoreId) (f : Core → Core) : (s.modCore c f).rqps = s.rqps := rfl
@[simp] theorem State.modCore_mps (s : State) (c : CoreId) (f : Core → Core) : (s.modCore c f).mps = s.mps := rfl
@[simp] theorem State.modCore_lanes (s : State) (c : CoreId) (f : Core → Core) : (s.modCore c f).lanes = s.lanes := rfl
@[simp] theorem State.modCore_regions (s : State) (c : CoreId) (f : Core → Core) : (s.modCore c f).regions = s.regions := rfl
@[simp] theorem State.modCore_cues (s : State) (c : CoreId) (f : Core → Core) : (s.modCore c f).cues = s.cues := rfl
@[simp] theorem State.modCore_chans (s : State) (c : CoreId) (f : Core → Core) : (s.modCore c f).chans = s.chans := rfl
@[simp] theorem State.modCore_sys (s : State) (c : CoreId) (f : Core → Core) : (s.modCore c f).sys = s.sys := rfl
@[simp] theorem State.modCore_cores (s : State) (c : CoreId) (f : Core → Core) : (s.modCore c f).cores = s.cores.set (coreIx c) (f s.cores[coreIx c]) := rfl
@[simp] theorem State.modCore_upd (s : State) (c : CoreId) (f : Core → Core) : (s.modCore c f).upd = s.upd := rfl
@[simp] theorem State.modCore_spill (s : State) (c : CoreId) (f : Core → Core) : (s.modCore c f).spill = s.spill := rfl
@[simp] theorem State.modCore_wear (s : State) (c : CoreId) (f : Core → Core) : (s.modCore c f).wear = s.wear := rfl
@[simp] theorem State.modCore_rows (s : State) (c : CoreId) (f : Core → Core) : (s.modCore c f).rows = s.rows := rfl
@[simp] theorem State.modCore_rowErrs (s : State) (c : CoreId) (f : Core → Core) : (s.modCore c f).rowErrs = s.rowErrs := rfl
@[simp] theorem State.modCore_upsets (s : State) (c : CoreId) (f : Core → Core) : (s.modCore c f).upsets = s.upsets := rfl
@[simp] theorem State.modCore_tap (s : State) (c : CoreId) (f : Core → Core) : (s.modCore c f).tap = s.tap := rfl

/-! ## State.takeFree -/

@[simp] theorem State.takeFree_pending (s : State) : (s.takeFree).pending = s.pending := rfl
@[simp] theorem State.takeFree_freeCtr (s : State) : (s.takeFree).freeCtr = s.freeCtr + 1 := rfl
@[simp] theorem State.takeFree_pwr (s : State) : (s.takeFree).pwr = s.pwr := rfl
@[simp] theorem State.takeFree_boot (s : State) : (s.takeFree).boot = s.boot := rfl
@[simp] theorem State.takeFree_vlt (s : State) : (s.takeFree).vlt = s.vlt := rfl
@[simp] theorem State.takeFree_sl (s : State) : (s.takeFree).sl = s.sl := rfl
@[simp] theorem State.takeFree_sr (s : State) : (s.takeFree).sr = s.sr := rfl
@[simp] theorem State.takeFree_ports (s : State) : (s.takeFree).ports = s.ports := rfl
@[simp] theorem State.takeFree_rqps (s : State) : (s.takeFree).rqps = s.rqps := rfl
@[simp] theorem State.takeFree_mps (s : State) : (s.takeFree).mps = s.mps := rfl
@[simp] theorem State.takeFree_lanes (s : State) : (s.takeFree).lanes = s.lanes := rfl
@[simp] theorem State.takeFree_regions (s : State) : (s.takeFree).regions = s.regions := rfl
@[simp] theorem State.takeFree_cues (s : State) : (s.takeFree).cues = s.cues := rfl
@[simp] theorem State.takeFree_chans (s : State) : (s.takeFree).chans = s.chans := rfl
@[simp] theorem State.takeFree_sys (s : State) : (s.takeFree).sys = s.sys := rfl
@[simp] theorem State.takeFree_cores (s : State) : (s.takeFree).cores = s.cores := rfl
@[simp] theorem State.takeFree_upd (s : State) : (s.takeFree).upd = s.upd := rfl
@[simp] theorem State.takeFree_spill (s : State) : (s.takeFree).spill = s.spill := rfl
@[simp] theorem State.takeFree_wear (s : State) : (s.takeFree).wear = s.wear := rfl
@[simp] theorem State.takeFree_rows (s : State) : (s.takeFree).rows = s.rows := rfl
@[simp] theorem State.takeFree_rowErrs (s : State) : (s.takeFree).rowErrs = s.rowErrs := rfl
@[simp] theorem State.takeFree_upsets (s : State) : (s.takeFree).upsets = s.upsets := rfl
@[simp] theorem State.takeFree_tap (s : State) : (s.takeFree).tap = s.tap := rfl

/-! ## State.modWear -/

@[simp] theorem State.modWear_pending (s : State) (n : Nat) (f : WearRec → WearRec) : (s.modWear n f).pending = s.pending := rfl
@[simp] theorem State.modWear_freeCtr (s : State) (n : Nat) (f : WearRec → WearRec) : (s.modWear n f).freeCtr = s.freeCtr := rfl
@[simp] theorem State.modWear_pwr (s : State) (n : Nat) (f : WearRec → WearRec) : (s.modWear n f).pwr = s.pwr := rfl
@[simp] theorem State.modWear_boot (s : State) (n : Nat) (f : WearRec → WearRec) : (s.modWear n f).boot = s.boot := rfl
@[simp] theorem State.modWear_vlt (s : State) (n : Nat) (f : WearRec → WearRec) : (s.modWear n f).vlt = s.vlt := rfl
@[simp] theorem State.modWear_sl (s : State) (n : Nat) (f : WearRec → WearRec) : (s.modWear n f).sl = s.sl := rfl
@[simp] theorem State.modWear_sr (s : State) (n : Nat) (f : WearRec → WearRec) : (s.modWear n f).sr = s.sr := rfl
@[simp] theorem State.modWear_ports (s : State) (n : Nat) (f : WearRec → WearRec) : (s.modWear n f).ports = s.ports := rfl
@[simp] theorem State.modWear_rqps (s : State) (n : Nat) (f : WearRec → WearRec) : (s.modWear n f).rqps = s.rqps := rfl
@[simp] theorem State.modWear_mps (s : State) (n : Nat) (f : WearRec → WearRec) : (s.modWear n f).mps = s.mps := rfl
@[simp] theorem State.modWear_lanes (s : State) (n : Nat) (f : WearRec → WearRec) : (s.modWear n f).lanes = s.lanes := rfl
@[simp] theorem State.modWear_regions (s : State) (n : Nat) (f : WearRec → WearRec) : (s.modWear n f).regions = s.regions := rfl
@[simp] theorem State.modWear_cues (s : State) (n : Nat) (f : WearRec → WearRec) : (s.modWear n f).cues = s.cues := rfl
@[simp] theorem State.modWear_chans (s : State) (n : Nat) (f : WearRec → WearRec) : (s.modWear n f).chans = s.chans := rfl
@[simp] theorem State.modWear_sys (s : State) (n : Nat) (f : WearRec → WearRec) : (s.modWear n f).sys = s.sys := rfl
@[simp] theorem State.modWear_cores (s : State) (n : Nat) (f : WearRec → WearRec) : (s.modWear n f).cores = s.cores := rfl
@[simp] theorem State.modWear_upd (s : State) (n : Nat) (f : WearRec → WearRec) : (s.modWear n f).upd = s.upd := rfl
@[simp] theorem State.modWear_spill (s : State) (n : Nat) (f : WearRec → WearRec) : (s.modWear n f).spill = s.spill := rfl
@[simp] theorem State.modWear_wear (s : State) (n : Nat) (f : WearRec → WearRec) : (s.modWear n f).wear = tput s.wear n (f ((tget s.wear n).getD {})) := rfl
@[simp] theorem State.modWear_rows (s : State) (n : Nat) (f : WearRec → WearRec) : (s.modWear n f).rows = s.rows := rfl
@[simp] theorem State.modWear_rowErrs (s : State) (n : Nat) (f : WearRec → WearRec) : (s.modWear n f).rowErrs = s.rowErrs := rfl
@[simp] theorem State.modWear_upsets (s : State) (n : Nat) (f : WearRec → WearRec) : (s.modWear n f).upsets = s.upsets := rfl
@[simp] theorem State.modWear_tap (s : State) (n : Nat) (f : WearRec → WearRec) : (s.modWear n f).tap = s.tap := rfl

/-! ## State.fix -/

@[simp] theorem State.fix_pending (s : State) (e : Ent) : (s.fix e).pending = s.pending := rfl
@[simp] theorem State.fix_freeCtr (s : State) (e : Ent) : (s.fix e).freeCtr = s.freeCtr := rfl
@[simp] theorem State.fix_pwr (s : State) (e : Ent) : (s.fix e).pwr = s.pwr := rfl
@[simp] theorem State.fix_boot (s : State) (e : Ent) : (s.fix e).boot = s.boot := rfl
@[simp] theorem State.fix_vlt (s : State) (e : Ent) : (s.fix e).vlt = s.vlt := rfl
@[simp] theorem State.fix_sl (s : State) (e : Ent) : (s.fix e).sl = s.sl := rfl
@[simp] theorem State.fix_sr (s : State) (e : Ent) : (s.fix e).sr = s.sr := rfl
@[simp] theorem State.fix_ports (s : State) (e : Ent) : (s.fix e).ports = s.ports := rfl
@[simp] theorem State.fix_rqps (s : State) (e : Ent) : (s.fix e).rqps = s.rqps := rfl
@[simp] theorem State.fix_mps (s : State) (e : Ent) : (s.fix e).mps = s.mps := rfl
@[simp] theorem State.fix_lanes (s : State) (e : Ent) : (s.fix e).lanes = s.lanes := rfl
@[simp] theorem State.fix_regions (s : State) (e : Ent) : (s.fix e).regions = s.regions := rfl
@[simp] theorem State.fix_cues (s : State) (e : Ent) : (s.fix e).cues = s.cues := rfl
@[simp] theorem State.fix_chans (s : State) (e : Ent) : (s.fix e).chans = s.chans := rfl
@[simp] theorem State.fix_sys (s : State) (e : Ent) : (s.fix e).sys = s.sys := rfl
@[simp] theorem State.fix_cores (s : State) (e : Ent) : (s.fix e).cores = s.cores := rfl
@[simp] theorem State.fix_upd (s : State) (e : Ent) : (s.fix e).upd = s.upd := rfl
@[simp] theorem State.fix_spill (s : State) (e : Ent) : (s.fix e).spill = s.spill := rfl
@[simp] theorem State.fix_wear (s : State) (e : Ent) : (s.fix e).wear = s.wear := rfl
@[simp] theorem State.fix_rows (s : State) (e : Ent) : (s.fix e).rows = s.rows := rfl
@[simp] theorem State.fix_rowErrs (s : State) (e : Ent) : (s.fix e).rowErrs = s.rowErrs := rfl
@[simp] theorem State.fix_upsets (s : State) (e : Ent) : (s.fix e).upsets = s.upsets.filter (· ≠ e) := rfl
@[simp] theorem State.fix_tap (s : State) (e : Ent) : (s.fix e).tap = s.tap := rfl

/-! ## State.modWing -/

@[simp] theorem State.modWing_pending (s : State) (w : Wing) (f : WingSt → WingSt) : (s.modWing w f).pending = s.pending := by
  cases w <;> rfl
@[simp] theorem State.modWing_freeCtr (s : State) (w : Wing) (f : WingSt → WingSt) : (s.modWing w f).freeCtr = s.freeCtr := by
  cases w <;> rfl
@[simp] theorem State.modWing_pwr (s : State) (w : Wing) (f : WingSt → WingSt) : (s.modWing w f).pwr = s.pwr := by
  cases w <;> rfl
@[simp] theorem State.modWing_boot (s : State) (w : Wing) (f : WingSt → WingSt) : (s.modWing w f).boot = s.boot := by
  cases w <;> rfl
@[simp] theorem State.modWing_vlt (s : State) (w : Wing) (f : WingSt → WingSt) : (s.modWing w f).vlt = s.vlt := by
  cases w <;> rfl
@[simp] theorem State.modWing_ports (s : State) (w : Wing) (f : WingSt → WingSt) : (s.modWing w f).ports = s.ports := by
  cases w <;> rfl
@[simp] theorem State.modWing_rqps (s : State) (w : Wing) (f : WingSt → WingSt) : (s.modWing w f).rqps = s.rqps := by
  cases w <;> rfl
@[simp] theorem State.modWing_mps (s : State) (w : Wing) (f : WingSt → WingSt) : (s.modWing w f).mps = s.mps := by
  cases w <;> rfl
@[simp] theorem State.modWing_lanes (s : State) (w : Wing) (f : WingSt → WingSt) : (s.modWing w f).lanes = s.lanes := by
  cases w <;> rfl
@[simp] theorem State.modWing_regions (s : State) (w : Wing) (f : WingSt → WingSt) : (s.modWing w f).regions = s.regions := by
  cases w <;> rfl
@[simp] theorem State.modWing_cues (s : State) (w : Wing) (f : WingSt → WingSt) : (s.modWing w f).cues = s.cues := by
  cases w <;> rfl
@[simp] theorem State.modWing_chans (s : State) (w : Wing) (f : WingSt → WingSt) : (s.modWing w f).chans = s.chans := by
  cases w <;> rfl
@[simp] theorem State.modWing_sys (s : State) (w : Wing) (f : WingSt → WingSt) : (s.modWing w f).sys = s.sys := by
  cases w <;> rfl
@[simp] theorem State.modWing_cores (s : State) (w : Wing) (f : WingSt → WingSt) : (s.modWing w f).cores = s.cores := by
  cases w <;> rfl
@[simp] theorem State.modWing_upd (s : State) (w : Wing) (f : WingSt → WingSt) : (s.modWing w f).upd = s.upd := by
  cases w <;> rfl
@[simp] theorem State.modWing_spill (s : State) (w : Wing) (f : WingSt → WingSt) : (s.modWing w f).spill = s.spill := by
  cases w <;> rfl
@[simp] theorem State.modWing_wear (s : State) (w : Wing) (f : WingSt → WingSt) : (s.modWing w f).wear = s.wear := by
  cases w <;> rfl
@[simp] theorem State.modWing_rows (s : State) (w : Wing) (f : WingSt → WingSt) : (s.modWing w f).rows = s.rows := by
  cases w <;> rfl
@[simp] theorem State.modWing_rowErrs (s : State) (w : Wing) (f : WingSt → WingSt) : (s.modWing w f).rowErrs = s.rowErrs := by
  cases w <;> rfl
@[simp] theorem State.modWing_upsets (s : State) (w : Wing) (f : WingSt → WingSt) : (s.modWing w f).upsets = s.upsets := by
  cases w <;> rfl
@[simp] theorem State.modWing_tap (s : State) (w : Wing) (f : WingSt → WingSt) : (s.modWing w f).tap = s.tap := by
  cases w <;> rfl
@[simp] theorem State.modWing_sl_sl (s : State) (f : WingSt → WingSt) : (s.modWing .sl f).sl = f s.sl := rfl
@[simp] theorem State.modWing_sl_sr (s : State) (f : WingSt → WingSt) : (s.modWing .sl f).sr = s.sr := rfl
@[simp] theorem State.modWing_sr_sl (s : State) (f : WingSt → WingSt) : (s.modWing .sr f).sl = s.sl := rfl
@[simp] theorem State.modWing_sr_sr (s : State) (f : WingSt → WingSt) : (s.modWing .sr f).sr = f s.sr := rfl
@[simp] theorem State.modWing_wing (s : State) (w : Wing) (f : WingSt → WingSt) : (s.modWing w f).wing w = f (s.wing w) := by
  cases w <;> rfl
@[simp] theorem State.modWing_wing_other (s : State) (w : Wing) (f : WingSt → WingSt) :
    (s.modWing w f).wing (otherWing w) = s.wing (otherWing w) := by
  cases w <;> rfl

/-! ## A unit changed, and the others as they were -/

theorem State.modPort_self (s : State) (i : Fin 64) (f : Port → Port) : (s.modPort i f).ports[i] = f s.ports[i] := by
  simp
theorem State.modPort_ne (s : State) (i j : Fin 64) (f : Port → Port) (h : i ≠ j) : (s.modPort i f).ports[j] = s.ports[j] := by
  have : i.val ≠ j.val := fun e => h (Fin.ext e)
  simp [this]
theorem State.modRqp_self (s : State) (i : Fin 4) (f : RqPort → RqPort) : (s.modRqp i f).rqps[i] = f s.rqps[i] := by
  simp
theorem State.modRqp_ne (s : State) (i j : Fin 4) (f : RqPort → RqPort) (h : i ≠ j) : (s.modRqp i f).rqps[j] = s.rqps[j] := by
  have : i.val ≠ j.val := fun e => h (Fin.ext e)
  simp [this]
theorem State.modMp_self (s : State) (i : Fin 4) (f : MPort → MPort) : (s.modMp i f).mps[i] = f s.mps[i] := by
  simp
theorem State.modMp_ne (s : State) (i j : Fin 4) (f : MPort → MPort) (h : i ≠ j) : (s.modMp i f).mps[j] = s.mps[j] := by
  have : i.val ≠ j.val := fun e => h (Fin.ext e)
  simp [this]
theorem State.modLane_self (s : State) (i : Fin 28) (f : LaneRec → LaneRec) : (s.modLane i f).lanes[i] = f s.lanes[i] := by
  simp
theorem State.modLane_ne (s : State) (i j : Fin 28) (f : LaneRec → LaneRec) (h : i ≠ j) : (s.modLane i f).lanes[j] = s.lanes[j] := by
  have : i.val ≠ j.val := fun e => h (Fin.ext e)
  simp [this]
theorem State.modRegion_self (s : State) (i : Fin 64) (f : Region → Region) : (s.modRegion i f).regions[i] = f s.regions[i] := by
  simp
theorem State.modRegion_ne (s : State) (i j : Fin 64) (f : Region → Region) (h : i ≠ j) : (s.modRegion i f).regions[j] = s.regions[j] := by
  have : i.val ≠ j.val := fun e => h (Fin.ext e)
  simp [this]
theorem State.modCue_self (s : State) (i : Fin 16) (f : Cue → Cue) : (s.modCue i f).cues[i] = f s.cues[i] := by
  simp
theorem State.modCue_ne (s : State) (i j : Fin 16) (f : Cue → Cue) (h : i ≠ j) : (s.modCue i f).cues[j] = s.cues[j] := by
  have : i.val ≠ j.val := fun e => h (Fin.ext e)
  simp [this]
theorem State.modChan_self (s : State) (i : Fin 8) (f : Chan → Chan) : (s.modChan i f).chans[i] = f s.chans[i] := by
  simp
theorem State.modChan_ne (s : State) (i j : Fin 8) (f : Chan → Chan) (h : i ≠ j) : (s.modChan i f).chans[j] = s.chans[j] := by
  have : i.val ≠ j.val := fun e => h (Fin.ext e)
  simp [this]
theorem State.modCore_core (s : State) (c : CoreId) (f : Core → Core) : (s.modCore c f).core c = f (s.core c) := by
  simp [State.core]

/-! ## Events and records change a wing and the free values alone -/

/-- What no step of a fold changes, the fold does not change. -/
theorem foldl_keeps {β γ : Type} (g : State → γ) (f : State → β → State) (h : ∀ s e, g (f s e) = g s) (l : List β) (s : State) :
    g (l.foldl f s) = g s := by
  induction l generalizing s with
  | nil => rfl
  | cons e t ih => rw [List.foldl_cons, ih, h]

@[simp] theorem State.logWords_pending (s : State) (w : Wing) (e : List Word) : (s.logWords w e).pending = s.pending := by
  simp [State.logWords]
@[simp] theorem State.log_pending (s : State) (w : Wing) (e : Ev) (u a b c : Nat) : (s.log w e u a b c).pending = s.pending := by
  simp [State.log]
@[simp] theorem State.logBoth_pending (s : State) (e : Ev) (u a b c : Nat) : (s.logBoth e u a b c).pending = s.pending := by
  simp [State.logBoth, State.eachWing]
@[simp] theorem State.countWing_pending (s : State) (w : Wing) (c : WCnt) : (s.countWing w c).pending = s.pending := by
  simp [State.countWing]
@[simp] theorem State.rhlStop_pending (s : State) (w : Wing) (a b : Nat) : (s.rhlStop w a b).pending = s.pending := by
  simp [State.rhlStop]
@[simp] theorem State.rhlPut1_pending (s : State) (w : Wing) (t : Nat) (c b : Bytes) (n : Nat) :
    (s.rhlPut1 w t c b n).pending = s.pending := by
  unfold State.rhlPut1
  dsimp only
  repeat' split
  all_goals simp
@[simp] theorem State.rhlPut_pending (s : State) (w : Wing) (t : Nat) (c b : Bytes) (n : Nat) :
    (s.rhlPut w t c b n).pending = s.pending := by
  unfold State.rhlPut
  dsimp only
  repeat' split
  all_goals simp
@[simp] theorem State.rhlRec_pending (s : State) (w : Wing) (t : Nat) (c b : Bytes) (n : Nat) :
    (s.rhlRec w t c b n).pending = s.pending := by
  unfold State.rhlRec
  dsimp only
  repeat' split
  all_goals simp [foldl_keeps State.pending]
@[simp] theorem State.rhlFault_pending (s : State) (w : Wing) (k u : Nat) : (s.rhlFault w k u).pending = s.pending := by
  simp [State.rhlFault]
@[simp] theorem State.rhlFreeze_pending (s : State) (w : Wing) (c b : Nat) : (s.rhlFreeze w c b).pending = s.pending := by
  unfold State.rhlFreeze
  dsimp only
  repeat' split
  all_goals simp
@[simp] theorem State.raiseAlarm_pending (s : State) (a : Alarm) : (s.raiseAlarm a).pending = s.pending := by
  unfold State.raiseAlarm State.eachWing
  dsimp only
  repeat' split
  all_goals simp
@[simp] theorem State.logWords_freeCtr (s : State) (w : Wing) (e : List Word) : (s.logWords w e).freeCtr = s.freeCtr := by
  simp [State.logWords]
@[simp] theorem State.log_freeCtr (s : State) (w : Wing) (e : Ev) (u a b c : Nat) : (s.log w e u a b c).freeCtr = s.freeCtr := by
  simp [State.log]
@[simp] theorem State.logBoth_freeCtr (s : State) (e : Ev) (u a b c : Nat) : (s.logBoth e u a b c).freeCtr = s.freeCtr := by
  simp [State.logBoth, State.eachWing]
@[simp] theorem State.countWing_freeCtr (s : State) (w : Wing) (c : WCnt) : (s.countWing w c).freeCtr = s.freeCtr := by
  simp [State.countWing]
@[simp] theorem State.rhlStop_freeCtr (s : State) (w : Wing) (a b : Nat) : (s.rhlStop w a b).freeCtr = s.freeCtr := by
  simp [State.rhlStop]
@[simp] theorem State.logWords_pwr (s : State) (w : Wing) (e : List Word) : (s.logWords w e).pwr = s.pwr := by
  simp [State.logWords]
@[simp] theorem State.log_pwr (s : State) (w : Wing) (e : Ev) (u a b c : Nat) : (s.log w e u a b c).pwr = s.pwr := by
  simp [State.log]
@[simp] theorem State.logBoth_pwr (s : State) (e : Ev) (u a b c : Nat) : (s.logBoth e u a b c).pwr = s.pwr := by
  simp [State.logBoth, State.eachWing]
@[simp] theorem State.countWing_pwr (s : State) (w : Wing) (c : WCnt) : (s.countWing w c).pwr = s.pwr := by
  simp [State.countWing]
@[simp] theorem State.rhlStop_pwr (s : State) (w : Wing) (a b : Nat) : (s.rhlStop w a b).pwr = s.pwr := by
  simp [State.rhlStop]
@[simp] theorem State.rhlPut1_pwr (s : State) (w : Wing) (t : Nat) (c b : Bytes) (n : Nat) :
    (s.rhlPut1 w t c b n).pwr = s.pwr := by
  unfold State.rhlPut1
  dsimp only
  repeat' split
  all_goals simp
@[simp] theorem State.rhlPut_pwr (s : State) (w : Wing) (t : Nat) (c b : Bytes) (n : Nat) :
    (s.rhlPut w t c b n).pwr = s.pwr := by
  unfold State.rhlPut
  dsimp only
  repeat' split
  all_goals simp
@[simp] theorem State.rhlRec_pwr (s : State) (w : Wing) (t : Nat) (c b : Bytes) (n : Nat) :
    (s.rhlRec w t c b n).pwr = s.pwr := by
  unfold State.rhlRec
  dsimp only
  repeat' split
  all_goals simp [foldl_keeps State.pwr]
@[simp] theorem State.rhlFault_pwr (s : State) (w : Wing) (k u : Nat) : (s.rhlFault w k u).pwr = s.pwr := by
  simp [State.rhlFault]
@[simp] theorem State.rhlFreeze_pwr (s : State) (w : Wing) (c b : Nat) : (s.rhlFreeze w c b).pwr = s.pwr := by
  unfold State.rhlFreeze
  dsimp only
  repeat' split
  all_goals simp
@[simp] theorem State.raiseAlarm_pwr (s : State) (a : Alarm) : (s.raiseAlarm a).pwr = s.pwr := by
  unfold State.raiseAlarm State.eachWing
  dsimp only
  repeat' split
  all_goals simp
@[simp] theorem State.logWords_boot (s : State) (w : Wing) (e : List Word) : (s.logWords w e).boot = s.boot := by
  simp [State.logWords]
@[simp] theorem State.log_boot (s : State) (w : Wing) (e : Ev) (u a b c : Nat) : (s.log w e u a b c).boot = s.boot := by
  simp [State.log]
@[simp] theorem State.logBoth_boot (s : State) (e : Ev) (u a b c : Nat) : (s.logBoth e u a b c).boot = s.boot := by
  simp [State.logBoth, State.eachWing]
@[simp] theorem State.countWing_boot (s : State) (w : Wing) (c : WCnt) : (s.countWing w c).boot = s.boot := by
  simp [State.countWing]
@[simp] theorem State.rhlStop_boot (s : State) (w : Wing) (a b : Nat) : (s.rhlStop w a b).boot = s.boot := by
  simp [State.rhlStop]
@[simp] theorem State.rhlPut1_boot (s : State) (w : Wing) (t : Nat) (c b : Bytes) (n : Nat) :
    (s.rhlPut1 w t c b n).boot = s.boot := by
  unfold State.rhlPut1
  dsimp only
  repeat' split
  all_goals simp
@[simp] theorem State.rhlPut_boot (s : State) (w : Wing) (t : Nat) (c b : Bytes) (n : Nat) :
    (s.rhlPut w t c b n).boot = s.boot := by
  unfold State.rhlPut
  dsimp only
  repeat' split
  all_goals simp
@[simp] theorem State.rhlRec_boot (s : State) (w : Wing) (t : Nat) (c b : Bytes) (n : Nat) :
    (s.rhlRec w t c b n).boot = s.boot := by
  unfold State.rhlRec
  dsimp only
  repeat' split
  all_goals simp [foldl_keeps State.boot]
@[simp] theorem State.rhlFault_boot (s : State) (w : Wing) (k u : Nat) : (s.rhlFault w k u).boot = s.boot := by
  simp [State.rhlFault]
@[simp] theorem State.rhlFreeze_boot (s : State) (w : Wing) (c b : Nat) : (s.rhlFreeze w c b).boot = s.boot := by
  unfold State.rhlFreeze
  dsimp only
  repeat' split
  all_goals simp
@[simp] theorem State.raiseAlarm_boot (s : State) (a : Alarm) : (s.raiseAlarm a).boot = s.boot := by
  unfold State.raiseAlarm State.eachWing
  dsimp only
  repeat' split
  all_goals simp
@[simp] theorem State.logWords_vlt (s : State) (w : Wing) (e : List Word) : (s.logWords w e).vlt = s.vlt := by
  simp [State.logWords]
@[simp] theorem State.log_vlt (s : State) (w : Wing) (e : Ev) (u a b c : Nat) : (s.log w e u a b c).vlt = s.vlt := by
  simp [State.log]
@[simp] theorem State.logBoth_vlt (s : State) (e : Ev) (u a b c : Nat) : (s.logBoth e u a b c).vlt = s.vlt := by
  simp [State.logBoth, State.eachWing]
@[simp] theorem State.countWing_vlt (s : State) (w : Wing) (c : WCnt) : (s.countWing w c).vlt = s.vlt := by
  simp [State.countWing]
@[simp] theorem State.rhlStop_vlt (s : State) (w : Wing) (a b : Nat) : (s.rhlStop w a b).vlt = s.vlt := by
  simp [State.rhlStop]
@[simp] theorem State.rhlPut1_vlt (s : State) (w : Wing) (t : Nat) (c b : Bytes) (n : Nat) :
    (s.rhlPut1 w t c b n).vlt = s.vlt := by
  unfold State.rhlPut1
  dsimp only
  repeat' split
  all_goals simp
@[simp] theorem State.rhlPut_vlt (s : State) (w : Wing) (t : Nat) (c b : Bytes) (n : Nat) :
    (s.rhlPut w t c b n).vlt = s.vlt := by
  unfold State.rhlPut
  dsimp only
  repeat' split
  all_goals simp
@[simp] theorem State.rhlRec_vlt (s : State) (w : Wing) (t : Nat) (c b : Bytes) (n : Nat) :
    (s.rhlRec w t c b n).vlt = s.vlt := by
  unfold State.rhlRec
  dsimp only
  repeat' split
  all_goals simp [foldl_keeps State.vlt]
@[simp] theorem State.rhlFault_vlt (s : State) (w : Wing) (k u : Nat) : (s.rhlFault w k u).vlt = s.vlt := by
  simp [State.rhlFault]
@[simp] theorem State.rhlFreeze_vlt (s : State) (w : Wing) (c b : Nat) : (s.rhlFreeze w c b).vlt = s.vlt := by
  unfold State.rhlFreeze
  dsimp only
  repeat' split
  all_goals simp
@[simp] theorem State.raiseAlarm_vlt (s : State) (a : Alarm) : (s.raiseAlarm a).vlt = s.vlt := by
  unfold State.raiseAlarm State.eachWing
  dsimp only
  repeat' split
  all_goals simp
@[simp] theorem State.logWords_ports (s : State) (w : Wing) (e : List Word) : (s.logWords w e).ports = s.ports := by
  simp [State.logWords]
@[simp] theorem State.log_ports (s : State) (w : Wing) (e : Ev) (u a b c : Nat) : (s.log w e u a b c).ports = s.ports := by
  simp [State.log]
@[simp] theorem State.logBoth_ports (s : State) (e : Ev) (u a b c : Nat) : (s.logBoth e u a b c).ports = s.ports := by
  simp [State.logBoth, State.eachWing]
@[simp] theorem State.countWing_ports (s : State) (w : Wing) (c : WCnt) : (s.countWing w c).ports = s.ports := by
  simp [State.countWing]
@[simp] theorem State.rhlStop_ports (s : State) (w : Wing) (a b : Nat) : (s.rhlStop w a b).ports = s.ports := by
  simp [State.rhlStop]
@[simp] theorem State.rhlPut1_ports (s : State) (w : Wing) (t : Nat) (c b : Bytes) (n : Nat) :
    (s.rhlPut1 w t c b n).ports = s.ports := by
  unfold State.rhlPut1
  dsimp only
  repeat' split
  all_goals simp
@[simp] theorem State.rhlPut_ports (s : State) (w : Wing) (t : Nat) (c b : Bytes) (n : Nat) :
    (s.rhlPut w t c b n).ports = s.ports := by
  unfold State.rhlPut
  dsimp only
  repeat' split
  all_goals simp
@[simp] theorem State.rhlRec_ports (s : State) (w : Wing) (t : Nat) (c b : Bytes) (n : Nat) :
    (s.rhlRec w t c b n).ports = s.ports := by
  unfold State.rhlRec
  dsimp only
  repeat' split
  all_goals simp [foldl_keeps State.ports]
@[simp] theorem State.rhlFault_ports (s : State) (w : Wing) (k u : Nat) : (s.rhlFault w k u).ports = s.ports := by
  simp [State.rhlFault]
@[simp] theorem State.rhlFreeze_ports (s : State) (w : Wing) (c b : Nat) : (s.rhlFreeze w c b).ports = s.ports := by
  unfold State.rhlFreeze
  dsimp only
  repeat' split
  all_goals simp
@[simp] theorem State.raiseAlarm_ports (s : State) (a : Alarm) : (s.raiseAlarm a).ports = s.ports := by
  unfold State.raiseAlarm State.eachWing
  dsimp only
  repeat' split
  all_goals simp
@[simp] theorem State.logWords_rqps (s : State) (w : Wing) (e : List Word) : (s.logWords w e).rqps = s.rqps := by
  simp [State.logWords]
@[simp] theorem State.log_rqps (s : State) (w : Wing) (e : Ev) (u a b c : Nat) : (s.log w e u a b c).rqps = s.rqps := by
  simp [State.log]
@[simp] theorem State.logBoth_rqps (s : State) (e : Ev) (u a b c : Nat) : (s.logBoth e u a b c).rqps = s.rqps := by
  simp [State.logBoth, State.eachWing]
@[simp] theorem State.countWing_rqps (s : State) (w : Wing) (c : WCnt) : (s.countWing w c).rqps = s.rqps := by
  simp [State.countWing]
@[simp] theorem State.rhlStop_rqps (s : State) (w : Wing) (a b : Nat) : (s.rhlStop w a b).rqps = s.rqps := by
  simp [State.rhlStop]
@[simp] theorem State.rhlPut1_rqps (s : State) (w : Wing) (t : Nat) (c b : Bytes) (n : Nat) :
    (s.rhlPut1 w t c b n).rqps = s.rqps := by
  unfold State.rhlPut1
  dsimp only
  repeat' split
  all_goals simp
@[simp] theorem State.rhlPut_rqps (s : State) (w : Wing) (t : Nat) (c b : Bytes) (n : Nat) :
    (s.rhlPut w t c b n).rqps = s.rqps := by
  unfold State.rhlPut
  dsimp only
  repeat' split
  all_goals simp
@[simp] theorem State.rhlRec_rqps (s : State) (w : Wing) (t : Nat) (c b : Bytes) (n : Nat) :
    (s.rhlRec w t c b n).rqps = s.rqps := by
  unfold State.rhlRec
  dsimp only
  repeat' split
  all_goals simp [foldl_keeps State.rqps]
@[simp] theorem State.rhlFault_rqps (s : State) (w : Wing) (k u : Nat) : (s.rhlFault w k u).rqps = s.rqps := by
  simp [State.rhlFault]
@[simp] theorem State.rhlFreeze_rqps (s : State) (w : Wing) (c b : Nat) : (s.rhlFreeze w c b).rqps = s.rqps := by
  unfold State.rhlFreeze
  dsimp only
  repeat' split
  all_goals simp
@[simp] theorem State.raiseAlarm_rqps (s : State) (a : Alarm) : (s.raiseAlarm a).rqps = s.rqps := by
  unfold State.raiseAlarm State.eachWing
  dsimp only
  repeat' split
  all_goals simp
@[simp] theorem State.logWords_mps (s : State) (w : Wing) (e : List Word) : (s.logWords w e).mps = s.mps := by
  simp [State.logWords]
@[simp] theorem State.log_mps (s : State) (w : Wing) (e : Ev) (u a b c : Nat) : (s.log w e u a b c).mps = s.mps := by
  simp [State.log]
@[simp] theorem State.logBoth_mps (s : State) (e : Ev) (u a b c : Nat) : (s.logBoth e u a b c).mps = s.mps := by
  simp [State.logBoth, State.eachWing]
@[simp] theorem State.countWing_mps (s : State) (w : Wing) (c : WCnt) : (s.countWing w c).mps = s.mps := by
  simp [State.countWing]
@[simp] theorem State.rhlStop_mps (s : State) (w : Wing) (a b : Nat) : (s.rhlStop w a b).mps = s.mps := by
  simp [State.rhlStop]
@[simp] theorem State.rhlPut1_mps (s : State) (w : Wing) (t : Nat) (c b : Bytes) (n : Nat) :
    (s.rhlPut1 w t c b n).mps = s.mps := by
  unfold State.rhlPut1
  dsimp only
  repeat' split
  all_goals simp
@[simp] theorem State.rhlPut_mps (s : State) (w : Wing) (t : Nat) (c b : Bytes) (n : Nat) :
    (s.rhlPut w t c b n).mps = s.mps := by
  unfold State.rhlPut
  dsimp only
  repeat' split
  all_goals simp
@[simp] theorem State.rhlRec_mps (s : State) (w : Wing) (t : Nat) (c b : Bytes) (n : Nat) :
    (s.rhlRec w t c b n).mps = s.mps := by
  unfold State.rhlRec
  dsimp only
  repeat' split
  all_goals simp [foldl_keeps State.mps]
@[simp] theorem State.rhlFault_mps (s : State) (w : Wing) (k u : Nat) : (s.rhlFault w k u).mps = s.mps := by
  simp [State.rhlFault]
@[simp] theorem State.rhlFreeze_mps (s : State) (w : Wing) (c b : Nat) : (s.rhlFreeze w c b).mps = s.mps := by
  unfold State.rhlFreeze
  dsimp only
  repeat' split
  all_goals simp
@[simp] theorem State.raiseAlarm_mps (s : State) (a : Alarm) : (s.raiseAlarm a).mps = s.mps := by
  unfold State.raiseAlarm State.eachWing
  dsimp only
  repeat' split
  all_goals simp
@[simp] theorem State.logWords_lanes (s : State) (w : Wing) (e : List Word) : (s.logWords w e).lanes = s.lanes := by
  simp [State.logWords]
@[simp] theorem State.log_lanes (s : State) (w : Wing) (e : Ev) (u a b c : Nat) : (s.log w e u a b c).lanes = s.lanes := by
  simp [State.log]
@[simp] theorem State.logBoth_lanes (s : State) (e : Ev) (u a b c : Nat) : (s.logBoth e u a b c).lanes = s.lanes := by
  simp [State.logBoth, State.eachWing]
@[simp] theorem State.countWing_lanes (s : State) (w : Wing) (c : WCnt) : (s.countWing w c).lanes = s.lanes := by
  simp [State.countWing]
@[simp] theorem State.rhlStop_lanes (s : State) (w : Wing) (a b : Nat) : (s.rhlStop w a b).lanes = s.lanes := by
  simp [State.rhlStop]
@[simp] theorem State.rhlPut1_lanes (s : State) (w : Wing) (t : Nat) (c b : Bytes) (n : Nat) :
    (s.rhlPut1 w t c b n).lanes = s.lanes := by
  unfold State.rhlPut1
  dsimp only
  repeat' split
  all_goals simp
@[simp] theorem State.rhlPut_lanes (s : State) (w : Wing) (t : Nat) (c b : Bytes) (n : Nat) :
    (s.rhlPut w t c b n).lanes = s.lanes := by
  unfold State.rhlPut
  dsimp only
  repeat' split
  all_goals simp
@[simp] theorem State.rhlRec_lanes (s : State) (w : Wing) (t : Nat) (c b : Bytes) (n : Nat) :
    (s.rhlRec w t c b n).lanes = s.lanes := by
  unfold State.rhlRec
  dsimp only
  repeat' split
  all_goals simp [foldl_keeps State.lanes]
@[simp] theorem State.rhlFault_lanes (s : State) (w : Wing) (k u : Nat) : (s.rhlFault w k u).lanes = s.lanes := by
  simp [State.rhlFault]
@[simp] theorem State.rhlFreeze_lanes (s : State) (w : Wing) (c b : Nat) : (s.rhlFreeze w c b).lanes = s.lanes := by
  unfold State.rhlFreeze
  dsimp only
  repeat' split
  all_goals simp
@[simp] theorem State.raiseAlarm_lanes (s : State) (a : Alarm) : (s.raiseAlarm a).lanes = s.lanes := by
  unfold State.raiseAlarm State.eachWing
  dsimp only
  repeat' split
  all_goals simp
@[simp] theorem State.logWords_regions (s : State) (w : Wing) (e : List Word) : (s.logWords w e).regions = s.regions := by
  simp [State.logWords]
@[simp] theorem State.log_regions (s : State) (w : Wing) (e : Ev) (u a b c : Nat) : (s.log w e u a b c).regions = s.regions := by
  simp [State.log]
@[simp] theorem State.logBoth_regions (s : State) (e : Ev) (u a b c : Nat) : (s.logBoth e u a b c).regions = s.regions := by
  simp [State.logBoth, State.eachWing]
@[simp] theorem State.countWing_regions (s : State) (w : Wing) (c : WCnt) : (s.countWing w c).regions = s.regions := by
  simp [State.countWing]
@[simp] theorem State.rhlStop_regions (s : State) (w : Wing) (a b : Nat) : (s.rhlStop w a b).regions = s.regions := by
  simp [State.rhlStop]
@[simp] theorem State.rhlPut1_regions (s : State) (w : Wing) (t : Nat) (c b : Bytes) (n : Nat) :
    (s.rhlPut1 w t c b n).regions = s.regions := by
  unfold State.rhlPut1
  dsimp only
  repeat' split
  all_goals simp
@[simp] theorem State.rhlPut_regions (s : State) (w : Wing) (t : Nat) (c b : Bytes) (n : Nat) :
    (s.rhlPut w t c b n).regions = s.regions := by
  unfold State.rhlPut
  dsimp only
  repeat' split
  all_goals simp
@[simp] theorem State.rhlRec_regions (s : State) (w : Wing) (t : Nat) (c b : Bytes) (n : Nat) :
    (s.rhlRec w t c b n).regions = s.regions := by
  unfold State.rhlRec
  dsimp only
  repeat' split
  all_goals simp [foldl_keeps State.regions]
@[simp] theorem State.rhlFault_regions (s : State) (w : Wing) (k u : Nat) : (s.rhlFault w k u).regions = s.regions := by
  simp [State.rhlFault]
@[simp] theorem State.rhlFreeze_regions (s : State) (w : Wing) (c b : Nat) : (s.rhlFreeze w c b).regions = s.regions := by
  unfold State.rhlFreeze
  dsimp only
  repeat' split
  all_goals simp
@[simp] theorem State.raiseAlarm_regions (s : State) (a : Alarm) : (s.raiseAlarm a).regions = s.regions := by
  unfold State.raiseAlarm State.eachWing
  dsimp only
  repeat' split
  all_goals simp
@[simp] theorem State.logWords_cues (s : State) (w : Wing) (e : List Word) : (s.logWords w e).cues = s.cues := by
  simp [State.logWords]
@[simp] theorem State.log_cues (s : State) (w : Wing) (e : Ev) (u a b c : Nat) : (s.log w e u a b c).cues = s.cues := by
  simp [State.log]
@[simp] theorem State.logBoth_cues (s : State) (e : Ev) (u a b c : Nat) : (s.logBoth e u a b c).cues = s.cues := by
  simp [State.logBoth, State.eachWing]
@[simp] theorem State.countWing_cues (s : State) (w : Wing) (c : WCnt) : (s.countWing w c).cues = s.cues := by
  simp [State.countWing]
@[simp] theorem State.rhlStop_cues (s : State) (w : Wing) (a b : Nat) : (s.rhlStop w a b).cues = s.cues := by
  simp [State.rhlStop]
@[simp] theorem State.rhlPut1_cues (s : State) (w : Wing) (t : Nat) (c b : Bytes) (n : Nat) :
    (s.rhlPut1 w t c b n).cues = s.cues := by
  unfold State.rhlPut1
  dsimp only
  repeat' split
  all_goals simp
@[simp] theorem State.rhlPut_cues (s : State) (w : Wing) (t : Nat) (c b : Bytes) (n : Nat) :
    (s.rhlPut w t c b n).cues = s.cues := by
  unfold State.rhlPut
  dsimp only
  repeat' split
  all_goals simp
@[simp] theorem State.rhlRec_cues (s : State) (w : Wing) (t : Nat) (c b : Bytes) (n : Nat) :
    (s.rhlRec w t c b n).cues = s.cues := by
  unfold State.rhlRec
  dsimp only
  repeat' split
  all_goals simp [foldl_keeps State.cues]
@[simp] theorem State.rhlFault_cues (s : State) (w : Wing) (k u : Nat) : (s.rhlFault w k u).cues = s.cues := by
  simp [State.rhlFault]
@[simp] theorem State.rhlFreeze_cues (s : State) (w : Wing) (c b : Nat) : (s.rhlFreeze w c b).cues = s.cues := by
  unfold State.rhlFreeze
  dsimp only
  repeat' split
  all_goals simp
@[simp] theorem State.raiseAlarm_cues (s : State) (a : Alarm) : (s.raiseAlarm a).cues = s.cues := by
  unfold State.raiseAlarm State.eachWing
  dsimp only
  repeat' split
  all_goals simp
@[simp] theorem State.logWords_chans (s : State) (w : Wing) (e : List Word) : (s.logWords w e).chans = s.chans := by
  simp [State.logWords]
@[simp] theorem State.log_chans (s : State) (w : Wing) (e : Ev) (u a b c : Nat) : (s.log w e u a b c).chans = s.chans := by
  simp [State.log]
@[simp] theorem State.logBoth_chans (s : State) (e : Ev) (u a b c : Nat) : (s.logBoth e u a b c).chans = s.chans := by
  simp [State.logBoth, State.eachWing]
@[simp] theorem State.countWing_chans (s : State) (w : Wing) (c : WCnt) : (s.countWing w c).chans = s.chans := by
  simp [State.countWing]
@[simp] theorem State.rhlStop_chans (s : State) (w : Wing) (a b : Nat) : (s.rhlStop w a b).chans = s.chans := by
  simp [State.rhlStop]
@[simp] theorem State.rhlPut1_chans (s : State) (w : Wing) (t : Nat) (c b : Bytes) (n : Nat) :
    (s.rhlPut1 w t c b n).chans = s.chans := by
  unfold State.rhlPut1
  dsimp only
  repeat' split
  all_goals simp
@[simp] theorem State.rhlPut_chans (s : State) (w : Wing) (t : Nat) (c b : Bytes) (n : Nat) :
    (s.rhlPut w t c b n).chans = s.chans := by
  unfold State.rhlPut
  dsimp only
  repeat' split
  all_goals simp
@[simp] theorem State.rhlRec_chans (s : State) (w : Wing) (t : Nat) (c b : Bytes) (n : Nat) :
    (s.rhlRec w t c b n).chans = s.chans := by
  unfold State.rhlRec
  dsimp only
  repeat' split
  all_goals simp [foldl_keeps State.chans]
@[simp] theorem State.rhlFault_chans (s : State) (w : Wing) (k u : Nat) : (s.rhlFault w k u).chans = s.chans := by
  simp [State.rhlFault]
@[simp] theorem State.rhlFreeze_chans (s : State) (w : Wing) (c b : Nat) : (s.rhlFreeze w c b).chans = s.chans := by
  unfold State.rhlFreeze
  dsimp only
  repeat' split
  all_goals simp
@[simp] theorem State.raiseAlarm_chans (s : State) (a : Alarm) : (s.raiseAlarm a).chans = s.chans := by
  unfold State.raiseAlarm State.eachWing
  dsimp only
  repeat' split
  all_goals simp
@[simp] theorem State.logWords_sys (s : State) (w : Wing) (e : List Word) : (s.logWords w e).sys = s.sys := by
  simp [State.logWords]
@[simp] theorem State.log_sys (s : State) (w : Wing) (e : Ev) (u a b c : Nat) : (s.log w e u a b c).sys = s.sys := by
  simp [State.log]
@[simp] theorem State.logBoth_sys (s : State) (e : Ev) (u a b c : Nat) : (s.logBoth e u a b c).sys = s.sys := by
  simp [State.logBoth, State.eachWing]
@[simp] theorem State.countWing_sys (s : State) (w : Wing) (c : WCnt) : (s.countWing w c).sys = s.sys := by
  simp [State.countWing]
@[simp] theorem State.rhlStop_sys (s : State) (w : Wing) (a b : Nat) : (s.rhlStop w a b).sys = s.sys := by
  simp [State.rhlStop]
@[simp] theorem State.rhlPut1_sys (s : State) (w : Wing) (t : Nat) (c b : Bytes) (n : Nat) :
    (s.rhlPut1 w t c b n).sys = s.sys := by
  unfold State.rhlPut1
  dsimp only
  repeat' split
  all_goals simp
@[simp] theorem State.rhlPut_sys (s : State) (w : Wing) (t : Nat) (c b : Bytes) (n : Nat) :
    (s.rhlPut w t c b n).sys = s.sys := by
  unfold State.rhlPut
  dsimp only
  repeat' split
  all_goals simp
@[simp] theorem State.rhlRec_sys (s : State) (w : Wing) (t : Nat) (c b : Bytes) (n : Nat) :
    (s.rhlRec w t c b n).sys = s.sys := by
  unfold State.rhlRec
  dsimp only
  repeat' split
  all_goals simp [foldl_keeps State.sys]
@[simp] theorem State.rhlFault_sys (s : State) (w : Wing) (k u : Nat) : (s.rhlFault w k u).sys = s.sys := by
  simp [State.rhlFault]
@[simp] theorem State.rhlFreeze_sys (s : State) (w : Wing) (c b : Nat) : (s.rhlFreeze w c b).sys = s.sys := by
  unfold State.rhlFreeze
  dsimp only
  repeat' split
  all_goals simp
@[simp] theorem State.logWords_cores (s : State) (w : Wing) (e : List Word) : (s.logWords w e).cores = s.cores := by
  simp [State.logWords]
@[simp] theorem State.log_cores (s : State) (w : Wing) (e : Ev) (u a b c : Nat) : (s.log w e u a b c).cores = s.cores := by
  simp [State.log]
@[simp] theorem State.logBoth_cores (s : State) (e : Ev) (u a b c : Nat) : (s.logBoth e u a b c).cores = s.cores := by
  simp [State.logBoth, State.eachWing]
@[simp] theorem State.countWing_cores (s : State) (w : Wing) (c : WCnt) : (s.countWing w c).cores = s.cores := by
  simp [State.countWing]
@[simp] theorem State.rhlStop_cores (s : State) (w : Wing) (a b : Nat) : (s.rhlStop w a b).cores = s.cores := by
  simp [State.rhlStop]
@[simp] theorem State.rhlPut1_cores (s : State) (w : Wing) (t : Nat) (c b : Bytes) (n : Nat) :
    (s.rhlPut1 w t c b n).cores = s.cores := by
  unfold State.rhlPut1
  dsimp only
  repeat' split
  all_goals simp
@[simp] theorem State.rhlPut_cores (s : State) (w : Wing) (t : Nat) (c b : Bytes) (n : Nat) :
    (s.rhlPut w t c b n).cores = s.cores := by
  unfold State.rhlPut
  dsimp only
  repeat' split
  all_goals simp
@[simp] theorem State.rhlRec_cores (s : State) (w : Wing) (t : Nat) (c b : Bytes) (n : Nat) :
    (s.rhlRec w t c b n).cores = s.cores := by
  unfold State.rhlRec
  dsimp only
  repeat' split
  all_goals simp [foldl_keeps State.cores]
@[simp] theorem State.rhlFault_cores (s : State) (w : Wing) (k u : Nat) : (s.rhlFault w k u).cores = s.cores := by
  simp [State.rhlFault]
@[simp] theorem State.rhlFreeze_cores (s : State) (w : Wing) (c b : Nat) : (s.rhlFreeze w c b).cores = s.cores := by
  unfold State.rhlFreeze
  dsimp only
  repeat' split
  all_goals simp
@[simp] theorem State.raiseAlarm_cores (s : State) (a : Alarm) : (s.raiseAlarm a).cores = s.cores := by
  unfold State.raiseAlarm State.eachWing
  dsimp only
  repeat' split
  all_goals simp
@[simp] theorem State.logWords_upd (s : State) (w : Wing) (e : List Word) : (s.logWords w e).upd = s.upd := by
  simp [State.logWords]
@[simp] theorem State.log_upd (s : State) (w : Wing) (e : Ev) (u a b c : Nat) : (s.log w e u a b c).upd = s.upd := by
  simp [State.log]
@[simp] theorem State.logBoth_upd (s : State) (e : Ev) (u a b c : Nat) : (s.logBoth e u a b c).upd = s.upd := by
  simp [State.logBoth, State.eachWing]
@[simp] theorem State.countWing_upd (s : State) (w : Wing) (c : WCnt) : (s.countWing w c).upd = s.upd := by
  simp [State.countWing]
@[simp] theorem State.rhlStop_upd (s : State) (w : Wing) (a b : Nat) : (s.rhlStop w a b).upd = s.upd := by
  simp [State.rhlStop]
@[simp] theorem State.rhlPut1_upd (s : State) (w : Wing) (t : Nat) (c b : Bytes) (n : Nat) :
    (s.rhlPut1 w t c b n).upd = s.upd := by
  unfold State.rhlPut1
  dsimp only
  repeat' split
  all_goals simp
@[simp] theorem State.rhlPut_upd (s : State) (w : Wing) (t : Nat) (c b : Bytes) (n : Nat) :
    (s.rhlPut w t c b n).upd = s.upd := by
  unfold State.rhlPut
  dsimp only
  repeat' split
  all_goals simp
@[simp] theorem State.rhlRec_upd (s : State) (w : Wing) (t : Nat) (c b : Bytes) (n : Nat) :
    (s.rhlRec w t c b n).upd = s.upd := by
  unfold State.rhlRec
  dsimp only
  repeat' split
  all_goals simp [foldl_keeps State.upd]
@[simp] theorem State.rhlFault_upd (s : State) (w : Wing) (k u : Nat) : (s.rhlFault w k u).upd = s.upd := by
  simp [State.rhlFault]
@[simp] theorem State.rhlFreeze_upd (s : State) (w : Wing) (c b : Nat) : (s.rhlFreeze w c b).upd = s.upd := by
  unfold State.rhlFreeze
  dsimp only
  repeat' split
  all_goals simp
@[simp] theorem State.raiseAlarm_upd (s : State) (a : Alarm) : (s.raiseAlarm a).upd = s.upd := by
  unfold State.raiseAlarm State.eachWing
  dsimp only
  repeat' split
  all_goals simp
@[simp] theorem State.logWords_spill (s : State) (w : Wing) (e : List Word) : (s.logWords w e).spill = s.spill := by
  simp [State.logWords]
@[simp] theorem State.log_spill (s : State) (w : Wing) (e : Ev) (u a b c : Nat) : (s.log w e u a b c).spill = s.spill := by
  simp [State.log]
@[simp] theorem State.logBoth_spill (s : State) (e : Ev) (u a b c : Nat) : (s.logBoth e u a b c).spill = s.spill := by
  simp [State.logBoth, State.eachWing]
@[simp] theorem State.countWing_spill (s : State) (w : Wing) (c : WCnt) : (s.countWing w c).spill = s.spill := by
  simp [State.countWing]
@[simp] theorem State.rhlStop_spill (s : State) (w : Wing) (a b : Nat) : (s.rhlStop w a b).spill = s.spill := by
  simp [State.rhlStop]
@[simp] theorem State.rhlPut1_spill (s : State) (w : Wing) (t : Nat) (c b : Bytes) (n : Nat) :
    (s.rhlPut1 w t c b n).spill = s.spill := by
  unfold State.rhlPut1
  dsimp only
  repeat' split
  all_goals simp
@[simp] theorem State.rhlPut_spill (s : State) (w : Wing) (t : Nat) (c b : Bytes) (n : Nat) :
    (s.rhlPut w t c b n).spill = s.spill := by
  unfold State.rhlPut
  dsimp only
  repeat' split
  all_goals simp
@[simp] theorem State.rhlRec_spill (s : State) (w : Wing) (t : Nat) (c b : Bytes) (n : Nat) :
    (s.rhlRec w t c b n).spill = s.spill := by
  unfold State.rhlRec
  dsimp only
  repeat' split
  all_goals simp [foldl_keeps State.spill]
@[simp] theorem State.rhlFault_spill (s : State) (w : Wing) (k u : Nat) : (s.rhlFault w k u).spill = s.spill := by
  simp [State.rhlFault]
@[simp] theorem State.rhlFreeze_spill (s : State) (w : Wing) (c b : Nat) : (s.rhlFreeze w c b).spill = s.spill := by
  unfold State.rhlFreeze
  dsimp only
  repeat' split
  all_goals simp
@[simp] theorem State.raiseAlarm_spill (s : State) (a : Alarm) : (s.raiseAlarm a).spill = s.spill := by
  unfold State.raiseAlarm State.eachWing
  dsimp only
  repeat' split
  all_goals simp
@[simp] theorem State.logWords_wear (s : State) (w : Wing) (e : List Word) : (s.logWords w e).wear = s.wear := by
  simp [State.logWords]
@[simp] theorem State.log_wear (s : State) (w : Wing) (e : Ev) (u a b c : Nat) : (s.log w e u a b c).wear = s.wear := by
  simp [State.log]
@[simp] theorem State.logBoth_wear (s : State) (e : Ev) (u a b c : Nat) : (s.logBoth e u a b c).wear = s.wear := by
  simp [State.logBoth, State.eachWing]
@[simp] theorem State.countWing_wear (s : State) (w : Wing) (c : WCnt) : (s.countWing w c).wear = s.wear := by
  simp [State.countWing]
@[simp] theorem State.rhlStop_wear (s : State) (w : Wing) (a b : Nat) : (s.rhlStop w a b).wear = s.wear := by
  simp [State.rhlStop]
@[simp] theorem State.rhlPut1_wear (s : State) (w : Wing) (t : Nat) (c b : Bytes) (n : Nat) :
    (s.rhlPut1 w t c b n).wear = s.wear := by
  unfold State.rhlPut1
  dsimp only
  repeat' split
  all_goals simp
@[simp] theorem State.rhlPut_wear (s : State) (w : Wing) (t : Nat) (c b : Bytes) (n : Nat) :
    (s.rhlPut w t c b n).wear = s.wear := by
  unfold State.rhlPut
  dsimp only
  repeat' split
  all_goals simp
@[simp] theorem State.rhlRec_wear (s : State) (w : Wing) (t : Nat) (c b : Bytes) (n : Nat) :
    (s.rhlRec w t c b n).wear = s.wear := by
  unfold State.rhlRec
  dsimp only
  repeat' split
  all_goals simp [foldl_keeps State.wear]
@[simp] theorem State.rhlFault_wear (s : State) (w : Wing) (k u : Nat) : (s.rhlFault w k u).wear = s.wear := by
  simp [State.rhlFault]
@[simp] theorem State.rhlFreeze_wear (s : State) (w : Wing) (c b : Nat) : (s.rhlFreeze w c b).wear = s.wear := by
  unfold State.rhlFreeze
  dsimp only
  repeat' split
  all_goals simp
@[simp] theorem State.raiseAlarm_wear (s : State) (a : Alarm) : (s.raiseAlarm a).wear = s.wear := by
  unfold State.raiseAlarm State.eachWing
  dsimp only
  repeat' split
  all_goals simp
@[simp] theorem State.logWords_rows (s : State) (w : Wing) (e : List Word) : (s.logWords w e).rows = s.rows := by
  simp [State.logWords]
@[simp] theorem State.log_rows (s : State) (w : Wing) (e : Ev) (u a b c : Nat) : (s.log w e u a b c).rows = s.rows := by
  simp [State.log]
@[simp] theorem State.logBoth_rows (s : State) (e : Ev) (u a b c : Nat) : (s.logBoth e u a b c).rows = s.rows := by
  simp [State.logBoth, State.eachWing]
@[simp] theorem State.countWing_rows (s : State) (w : Wing) (c : WCnt) : (s.countWing w c).rows = s.rows := by
  simp [State.countWing]
@[simp] theorem State.rhlStop_rows (s : State) (w : Wing) (a b : Nat) : (s.rhlStop w a b).rows = s.rows := by
  simp [State.rhlStop]
@[simp] theorem State.rhlPut1_rows (s : State) (w : Wing) (t : Nat) (c b : Bytes) (n : Nat) :
    (s.rhlPut1 w t c b n).rows = s.rows := by
  unfold State.rhlPut1
  dsimp only
  repeat' split
  all_goals simp
@[simp] theorem State.rhlPut_rows (s : State) (w : Wing) (t : Nat) (c b : Bytes) (n : Nat) :
    (s.rhlPut w t c b n).rows = s.rows := by
  unfold State.rhlPut
  dsimp only
  repeat' split
  all_goals simp
@[simp] theorem State.rhlRec_rows (s : State) (w : Wing) (t : Nat) (c b : Bytes) (n : Nat) :
    (s.rhlRec w t c b n).rows = s.rows := by
  unfold State.rhlRec
  dsimp only
  repeat' split
  all_goals simp [foldl_keeps State.rows]
@[simp] theorem State.rhlFault_rows (s : State) (w : Wing) (k u : Nat) : (s.rhlFault w k u).rows = s.rows := by
  simp [State.rhlFault]
@[simp] theorem State.rhlFreeze_rows (s : State) (w : Wing) (c b : Nat) : (s.rhlFreeze w c b).rows = s.rows := by
  unfold State.rhlFreeze
  dsimp only
  repeat' split
  all_goals simp
@[simp] theorem State.raiseAlarm_rows (s : State) (a : Alarm) : (s.raiseAlarm a).rows = s.rows := by
  unfold State.raiseAlarm State.eachWing
  dsimp only
  repeat' split
  all_goals simp
@[simp] theorem State.logWords_rowErrs (s : State) (w : Wing) (e : List Word) : (s.logWords w e).rowErrs = s.rowErrs := by
  simp [State.logWords]
@[simp] theorem State.log_rowErrs (s : State) (w : Wing) (e : Ev) (u a b c : Nat) : (s.log w e u a b c).rowErrs = s.rowErrs := by
  simp [State.log]
@[simp] theorem State.logBoth_rowErrs (s : State) (e : Ev) (u a b c : Nat) : (s.logBoth e u a b c).rowErrs = s.rowErrs := by
  simp [State.logBoth, State.eachWing]
@[simp] theorem State.countWing_rowErrs (s : State) (w : Wing) (c : WCnt) : (s.countWing w c).rowErrs = s.rowErrs := by
  simp [State.countWing]
@[simp] theorem State.rhlStop_rowErrs (s : State) (w : Wing) (a b : Nat) : (s.rhlStop w a b).rowErrs = s.rowErrs := by
  simp [State.rhlStop]
@[simp] theorem State.rhlPut1_rowErrs (s : State) (w : Wing) (t : Nat) (c b : Bytes) (n : Nat) :
    (s.rhlPut1 w t c b n).rowErrs = s.rowErrs := by
  unfold State.rhlPut1
  dsimp only
  repeat' split
  all_goals simp
@[simp] theorem State.rhlPut_rowErrs (s : State) (w : Wing) (t : Nat) (c b : Bytes) (n : Nat) :
    (s.rhlPut w t c b n).rowErrs = s.rowErrs := by
  unfold State.rhlPut
  dsimp only
  repeat' split
  all_goals simp
@[simp] theorem State.rhlRec_rowErrs (s : State) (w : Wing) (t : Nat) (c b : Bytes) (n : Nat) :
    (s.rhlRec w t c b n).rowErrs = s.rowErrs := by
  unfold State.rhlRec
  dsimp only
  repeat' split
  all_goals simp [foldl_keeps State.rowErrs]
@[simp] theorem State.rhlFault_rowErrs (s : State) (w : Wing) (k u : Nat) : (s.rhlFault w k u).rowErrs = s.rowErrs := by
  simp [State.rhlFault]
@[simp] theorem State.rhlFreeze_rowErrs (s : State) (w : Wing) (c b : Nat) : (s.rhlFreeze w c b).rowErrs = s.rowErrs := by
  unfold State.rhlFreeze
  dsimp only
  repeat' split
  all_goals simp
@[simp] theorem State.raiseAlarm_rowErrs (s : State) (a : Alarm) : (s.raiseAlarm a).rowErrs = s.rowErrs := by
  unfold State.raiseAlarm State.eachWing
  dsimp only
  repeat' split
  all_goals simp
@[simp] theorem State.logWords_upsets (s : State) (w : Wing) (e : List Word) : (s.logWords w e).upsets = s.upsets := by
  simp [State.logWords]
@[simp] theorem State.log_upsets (s : State) (w : Wing) (e : Ev) (u a b c : Nat) : (s.log w e u a b c).upsets = s.upsets := by
  simp [State.log]
@[simp] theorem State.logBoth_upsets (s : State) (e : Ev) (u a b c : Nat) : (s.logBoth e u a b c).upsets = s.upsets := by
  simp [State.logBoth, State.eachWing]
@[simp] theorem State.countWing_upsets (s : State) (w : Wing) (c : WCnt) : (s.countWing w c).upsets = s.upsets := by
  simp [State.countWing]
@[simp] theorem State.rhlStop_upsets (s : State) (w : Wing) (a b : Nat) : (s.rhlStop w a b).upsets = s.upsets := by
  simp [State.rhlStop]
@[simp] theorem State.rhlPut1_upsets (s : State) (w : Wing) (t : Nat) (c b : Bytes) (n : Nat) :
    (s.rhlPut1 w t c b n).upsets = s.upsets := by
  unfold State.rhlPut1
  dsimp only
  repeat' split
  all_goals simp
@[simp] theorem State.rhlPut_upsets (s : State) (w : Wing) (t : Nat) (c b : Bytes) (n : Nat) :
    (s.rhlPut w t c b n).upsets = s.upsets := by
  unfold State.rhlPut
  dsimp only
  repeat' split
  all_goals simp
@[simp] theorem State.rhlRec_upsets (s : State) (w : Wing) (t : Nat) (c b : Bytes) (n : Nat) :
    (s.rhlRec w t c b n).upsets = s.upsets := by
  unfold State.rhlRec
  dsimp only
  repeat' split
  all_goals simp [foldl_keeps State.upsets]
@[simp] theorem State.rhlFault_upsets (s : State) (w : Wing) (k u : Nat) : (s.rhlFault w k u).upsets = s.upsets := by
  simp [State.rhlFault]
@[simp] theorem State.rhlFreeze_upsets (s : State) (w : Wing) (c b : Nat) : (s.rhlFreeze w c b).upsets = s.upsets := by
  unfold State.rhlFreeze
  dsimp only
  repeat' split
  all_goals simp
@[simp] theorem State.raiseAlarm_upsets (s : State) (a : Alarm) : (s.raiseAlarm a).upsets = s.upsets := by
  unfold State.raiseAlarm State.eachWing
  dsimp only
  repeat' split
  all_goals simp
@[simp] theorem State.logWords_tap (s : State) (w : Wing) (e : List Word) : (s.logWords w e).tap = s.tap := by
  simp [State.logWords]
@[simp] theorem State.log_tap (s : State) (w : Wing) (e : Ev) (u a b c : Nat) : (s.log w e u a b c).tap = s.tap := by
  simp [State.log]
@[simp] theorem State.logBoth_tap (s : State) (e : Ev) (u a b c : Nat) : (s.logBoth e u a b c).tap = s.tap := by
  simp [State.logBoth, State.eachWing]
@[simp] theorem State.countWing_tap (s : State) (w : Wing) (c : WCnt) : (s.countWing w c).tap = s.tap := by
  simp [State.countWing]
@[simp] theorem State.rhlStop_tap (s : State) (w : Wing) (a b : Nat) : (s.rhlStop w a b).tap = s.tap := by
  simp [State.rhlStop]
@[simp] theorem State.rhlPut1_tap (s : State) (w : Wing) (t : Nat) (c b : Bytes) (n : Nat) :
    (s.rhlPut1 w t c b n).tap = s.tap := by
  unfold State.rhlPut1
  dsimp only
  repeat' split
  all_goals simp
@[simp] theorem State.rhlPut_tap (s : State) (w : Wing) (t : Nat) (c b : Bytes) (n : Nat) :
    (s.rhlPut w t c b n).tap = s.tap := by
  unfold State.rhlPut
  dsimp only
  repeat' split
  all_goals simp
@[simp] theorem State.rhlRec_tap (s : State) (w : Wing) (t : Nat) (c b : Bytes) (n : Nat) :
    (s.rhlRec w t c b n).tap = s.tap := by
  unfold State.rhlRec
  dsimp only
  repeat' split
  all_goals simp [foldl_keeps State.tap]
@[simp] theorem State.rhlFault_tap (s : State) (w : Wing) (k u : Nat) : (s.rhlFault w k u).tap = s.tap := by
  simp [State.rhlFault]
@[simp] theorem State.rhlFreeze_tap (s : State) (w : Wing) (c b : Nat) : (s.rhlFreeze w c b).tap = s.tap := by
  unfold State.rhlFreeze
  dsimp only
  repeat' split
  all_goals simp
@[simp] theorem State.raiseAlarm_tap (s : State) (a : Alarm) : (s.raiseAlarm a).tap = s.tap := by
  unfold State.raiseAlarm State.eachWing
  dsimp only
  repeat' split
  all_goals simp

end Sys2Proof.Machine
end

