-- ==== Sys2Proof/Laws/Wing.lean ====
section
/-! SUPPORT. What events, counts and records leave of a wing. -/

namespace Sys2Proof.Machine

/-- What a wing holds beside its Call Board, its logger and its counts. -/
def Apart {γ : Type} (g : WingSt → γ) : Prop :=
  (∀ x c, g { x with cbd := c } = g x) ∧ (∀ x r, g { x with rhl := r } = g x) ∧ ∀ x c, g { x with cnt := c } = g x

theorem State.modWing_keeps {γ : Type} {g : WingSt → γ} (s : State) (w v : Wing) (f : WingSt → WingSt) (h : ∀ x, g (f x) = g x) :
    g ((s.modWing w f).wing v) = g (s.wing v) := by
  cases w <;> cases v <;> first | rfl | exact h _

theorem State.logWords_keeps {γ : Type} {g : WingSt → γ} (h : Apart g) (s : State) (w v : Wing) (e : List Word) :
    g ((s.logWords w e).wing v) = g (s.wing v) := s.modWing_keeps w v _ fun _ => h.1 _ _

theorem State.log_keeps {γ : Type} {g : WingSt → γ} (h : Apart g) (s : State) (w v : Wing) (e : Ev) (u a b c : Nat) :
    g ((s.log w e u a b c).wing v) = g (s.wing v) := s.logWords_keeps h w v _

theorem State.logBoth_keeps {γ : Type} {g : WingSt → γ} (h : Apart g) (s : State) (v : Wing) (e : Ev) (u a b c : Nat) :
    g ((s.logBoth e u a b c).wing v) = g (s.wing v) := by
  rw [State.logBoth, State.eachWing, State.log_keeps h, State.log_keeps h]

theorem State.countWing_keeps {γ : Type} {g : WingSt → γ} (h : Apart g) (s : State) (w v : Wing) (c : WCnt) :
    g ((s.countWing w c).wing v) = g (s.wing v) := s.modWing_keeps w v _ fun _ => h.2.2 _ _

theorem State.modRhl_keeps {γ : Type} {g : WingSt → γ} (h : Apart g) (s : State) (w v : Wing) (f : Rhl → Rhl) :
    g ((s.modRhl w f).wing v) = g (s.wing v) := s.modWing_keeps w v _ fun _ => h.2.1 _ _

theorem State.rhlStop_keeps {γ : Type} {g : WingSt → γ} (h : Apart g) (s : State) (w v : Wing) (a b : Nat) :
    g ((s.rhlStop w a b).wing v) = g (s.wing v) := by
  rw [State.rhlStop, State.log_keeps h]
  exact s.modWing_keeps w v _ fun _ => h.2.1 _ _

theorem State.rhlPut1_keeps {γ : Type} {g : WingSt → γ} (h : Apart g) (s : State) (w v : Wing) (t : Nat) (c b : Bytes)
    (n : Nat) : g ((s.rhlPut1 w t c b n).wing v) = g (s.wing v) := by
  unfold State.rhlPut1
  dsimp only
  repeat' split
  all_goals first
    | rfl
    | exact s.modWing_keeps w v _ fun _ => h.2.1 _ _
    | exact (State.rhlStop_keeps h _ _ _ _ _).trans (s.modWing_keeps w v _ fun _ => h.2.1 _ _)

theorem State.rhlPut_keeps {γ : Type} {g : WingSt → γ} (h : Apart g) (s : State) (w v : Wing) (t : Nat) (c b : Bytes)
    (n : Nat) : g ((s.rhlPut w t c b n).wing v) = g (s.wing v) := by
  unfold State.rhlPut
  dsimp only
  split
  · rw [State.rhlPut1_keeps h, State.rhlPut1_keeps h]
  · exact s.rhlPut1_keeps h w v t c b n

theorem State.rhlRec_keeps {γ : Type} {g : WingSt → γ} (h : Apart g) (s : State) (w v : Wing) (t : Nat) (c b : Bytes)
    (n : Nat) : g ((s.rhlRec w t c b n).wing v) = g (s.wing v) := by
  unfold State.rhlRec
  dsimp only
  split
  · rw [State.rhlPut_keeps h, State.modWing_keeps _ _ _ _ fun _ => h.2.1 _ _,
      foldl_keeps (fun s => g (s.wing v)) _ fun s e => s.rhlPut_keeps h w v 14 _ _ _]
  · rfl

theorem State.rhlFault_keeps {γ : Type} {g : WingSt → γ} (h : Apart g) (s : State) (w v : Wing) (k u : Nat) :
    g ((s.rhlFault w k u).wing v) = g (s.wing v) := s.rhlRec_keeps h w v _ _ _ _

theorem State.rhlFreeze_keeps {γ : Type} {g : WingSt → γ} (h : Apart g) (s : State) (w v : Wing) (a b : Nat) :
    g ((s.rhlFreeze w a b).wing v) = g (s.wing v) := by
  unfold State.rhlFreeze
  dsimp only
  repeat' split
  all_goals simp only [State.modWing_keeps (g := g) _ _ _ _ fun _ => h.2.1 _ _, State.rhlRec_keeps h, State.rhlStop_keeps h]

theorem State.raiseAlarm_keeps {γ : Type} {g : WingSt → γ} (h : Apart g) (s : State) (v : Wing) (a : Alarm) :
    g ((s.raiseAlarm a).wing v) = g (s.wing v) := by
  have e : ∀ t : State, t = { s with sys := { s.sys with alarm := s.sys.alarm ||| 2 ^ a.bit } } → g (t.wing v) = g (s.wing v) := by
    rintro _ rfl
    cases v <;> rfl
  unfold State.raiseAlarm State.eachWing
  dsimp only
  repeat' split
  all_goals simp only [State.rhlFreeze_keeps h, e]

/-! ## What changes the wings alone -/

/-- Two states that differ in their wings at most. -/
def OnlyWings (s t : State) : Prop := t = { s with sl := t.sl, sr := t.sr }

theorem OnlyWings.refl (s : State) : OnlyWings s s := rfl

theorem OnlyWings.trans {s t u : State} (h : OnlyWings s t) (k : OnlyWings t u) : OnlyWings s u := by
  unfold OnlyWings at *
  rw [h] at k
  exact k

theorem OnlyWings.vlt {s t : State} (h : OnlyWings s t) : t.vlt = s.vlt := by rw [h]
theorem OnlyWings.chans {s t : State} (h : OnlyWings s t) : t.chans = s.chans := by rw [h]
theorem OnlyWings.upsets {s t : State} (h : OnlyWings s t) : t.upsets = s.upsets := by rw [h]
theorem OnlyWings.ports {s t : State} (h : OnlyWings s t) : t.ports = s.ports := by rw [h]
theorem OnlyWings.regions {s t : State} (h : OnlyWings s t) : t.regions = s.regions := by rw [h]
theorem OnlyWings.boot {s t : State} (h : OnlyWings s t) : t.boot = s.boot := by rw [h]
theorem OnlyWings.pwr {s t : State} (h : OnlyWings s t) : t.pwr = s.pwr := by rw [h]

theorem State.modWing_only (s : State) (w : Wing) (f : WingSt → WingSt) : OnlyWings s (s.modWing w f) := by cases w <;> rfl

theorem State.eachWing_only (s : State) (f : State → Wing → State) (h : ∀ s w, OnlyWings s (f s w)) : OnlyWings s (s.eachWing f) :=
  (h s .sl).trans (h _ .sr)

theorem State.modSa_only (s : State) (w : Wing) (sai : Nat) (f : Sa → Sa) : OnlyWings s (s.modSa w sai f) := s.modWing_only w _

theorem State.log_only (s : State) (w : Wing) (e : Ev) (u a b c : Nat) : OnlyWings s (s.log w e u a b c) := by
  cases w <;> rfl

theorem State.countWing_only (s : State) (w : Wing) (c : WCnt) : OnlyWings s (s.countWing w c) := s.modWing_only w _

theorem State.askOwn_only (s : State) (w : Wing) (u : OwnUse) (c : Nat) : OnlyWings s (s.askOwn w u c) := by
  unfold State.askOwn
  split
  · exact .refl s
  · exact s.modWing_only w _

theorem State.dropSa_only (s : State) (w : Wing) (sai c : Nat) : OnlyWings s (s.dropSa w sai c) :=
  ((s.modSa_only w sai _).trans (State.askOwn_only _ w _ c)).trans (State.askOwn_only _ w _ 3)

theorem State.cacheKey_only (s : State) (w : Wing) (j : Nat) : OnlyWings s (s.cacheKey w j) := by
  unfold State.cacheKey
  dsimp only
  repeat' split
  · exact .refl s
  · exact s.modWing_only w _
  · exact ((s.modWing_only w _).trans (State.modWing_only _ w _)).trans (State.askOwn_only _ w _ 3)
  · exact (((s.dropSa_only w _ 3).trans (State.modWing_only _ w _)).trans (State.modWing_only _ w _)).trans (State.askOwn_only _ w _ 3)
  · exact (s.modWing_only w _).trans (State.askOwn_only _ w _ 3)

/-- What a wing holds beside its SAs, its own accesses and its key cache. -/
def KeyApart {γ : Type} (g : WingSt → γ) : Prop := ∀ x a b c d, g { x with sas := a, ownq := b, kcache := c, kspill := d } = g x

theorem State.askOwn_keeps {γ : Type} {g : WingSt → γ} (h : KeyApart g) (s : State) (w v : Wing) (u : OwnUse) (c : Nat) :
    g ((s.askOwn w u c).wing v) = g (s.wing v) := by
  unfold State.askOwn
  split
  · rfl
  · exact s.modWing_keeps w v _ fun x => h x _ _ _ _

theorem State.dropSa_keeps {γ : Type} {g : WingSt → γ} (h : KeyApart g) (s : State) (w v : Wing) (sai c : Nat) :
    g ((s.dropSa w sai c).wing v) = g (s.wing v) := by
  unfold State.dropSa
  dsimp only
  rw [State.askOwn_keeps h, State.askOwn_keeps h]
  exact s.modWing_keeps w v _ fun x => h x _ _ _ _

theorem State.cacheKey_keeps {γ : Type} {g : WingSt → γ} (h : KeyApart g) (s : State) (w v : Wing) (j : Nat) :
    g ((s.cacheKey w j).wing v) = g (s.wing v) := by
  have m : ∀ (t : State) (f : WingSt → WingSt), (∀ x, ∃ a b c d, f x = { x with sas := a, ownq := b, kcache := c, kspill := d }) →
      g ((t.modWing w f).wing v) = g (t.wing v) := fun t f e =>
    t.modWing_keeps w v f fun x => by obtain ⟨a, b, c, d, e⟩ := e x; rw [e]; exact h x a b c d
  unfold State.cacheKey
  dsimp only
  repeat' split
  · rfl
  · exact m _ _ fun x => ⟨_, _, _, _, rfl⟩
  · rw [State.askOwn_keeps h, m _ _ fun x => ⟨_, _, _, _, rfl⟩, m _ _ fun x => ⟨_, _, _, _, rfl⟩]
  · rw [State.askOwn_keeps h, m _ _ fun x => ⟨_, _, _, _, rfl⟩, m _ _ fun x => ⟨_, _, _, _, rfl⟩, State.dropSa_keeps h]
  · rw [State.askOwn_keeps h, m _ _ fun x => ⟨_, _, _, _, rfl⟩]

theorem State.needKey_keeps {γ : Type} {g : WingSt → γ} (h : KeyApart g) (s : State) (w v : Wing) (l : KLoc) :
    g ((s.needKey w l).wing v) = g (s.wing v) := by
  unfold State.needKey
  repeat' split
  · rfl
  · exact s.askOwn_keeps h w v _ 3
  · exact s.cacheKey_keeps h w v _
  · rfl

theorem State.freshKey_only (s : State) (w : Wing) (j : Nat) : OnlyWings s (s.freshKey w j) :=
  (s.eachWing_only _ fun s w => s.modWing_only w _).trans (State.cacheKey_only _ w j)

theorem State.needKey_only (s : State) (w : Wing) (l : KLoc) : OnlyWings s (s.needKey w l) := by
  unfold State.needKey
  repeat' split
  · exact .refl s
  · exact s.askOwn_only w _ 3
  · exact s.cacheKey_only w _
  · exact .refl s

theorem State.closeUnder_only (s : State) (l : KLoc) : OnlyWings s (s.closeUnder l) := by
  cases l with
  | sess j => exact s.eachWing_only _ fun s w => s.modWing_only w _
  | slot _ => exact .refl s
  | classA _ => exact .refl s

end Sys2Proof.Machine
end

