-- ==== Sys2Proof/Laws/Vault.lean ====
section
/-! SUPPORT. What the vault's shared operations can do. -/

namespace Sys2Proof.Machine

/-- Without a burn nothing is cut. -/
theorem State.cutBurn_none (s : State) (h : s.vlt.burn = none) : s.cutBurn = s := by simp [State.cutBurn, h]

/-- A burn that is cut ends; at most the copy that was being burnt is added (R439). -/
theorem State.cutBurn_eq (s : State) : ∃ n v, s.cutBurn = { s with freeCtr := n, vlt := v } ∧ v = { s.vlt with burn := none, lc := v.lc }
    ∧ (v.lc = s.vlt.lc ∨ ∃ b, s.vlt.burn = some b ∧ v.lc = burnCopy s.vlt.lc (Fin.ofNat 20 b.bit) b.copy) := by
  unfold State.cutBurn
  split
  · rename_i h
    exact ⟨s.freeCtr, s.vlt, rfl, by rw [← h], .inl rfl⟩
  · rename_i b hb
    refine ⟨s.freeCtr + 1, _, rfl, rfl, ?_⟩
    simp only [State.takeFree_vlt]
    split
    · exact .inr ⟨b, hb, rfl⟩
    · exact .inl rfl

/-- A key that reaches its end is marked in the vault once, its wing has the event and the count, and its inbound SAs close
(R255). -/
theorem State.spend_eq (s : State) (w : Wing) (l : KLoc) : s.spend w l = s ∨ s.spend w l = s.closeUnder l ∨
    s.spend w l = (((s.closeUnder l).modVlt fun v => v.modKey l fun k => { k with spent := true }).log w .keySpent 0 l.ref
      0 0).countWing w .keySpent := by
  unfold State.spend
  split
  · dsimp only
    split
    · exact .inr (.inl rfl)
    · exact .inr (.inr rfl)
  · exact .inl rfl

/-- Reading one key cell gives the key given for it or nothing (R251). -/
theorem State.readCell_fst (s : State) (w : Wing) (l : KLoc) (k : Option Key) : (s.readCell w l k).1 = none ∨ (s.readCell w l k).1 = k := by
  unfold State.readCell
  split
  · exact .inl rfl
  · exact .inr rfl

/-- Reading a key gives the key that stands there or nothing (R251). -/
theorem State.readKey_fst (s : State) (w : Wing) (l : KLoc) : (s.readKey w l).1 = none ∨ (s.readKey w l).1 = s.vlt.keyAt l := by
  unfold State.readKey
  split
  · split
    · exact .inl rfl
    · rename_i k e h
      split
      · exact .inl rfl
      · split
        · exact s.readCell_fst ..
        · split
          · exact s.readCell_fst ..
          · rename_i hr
            right
            simp [Vault.keyAt, h, hr]
  · split
    · exact .inl rfl
    · exact s.readCell_fst ..
  · exact s.readCell_fst ..

/-- Changing the key at a location leaves everything but the cells. -/
theorem Vault.modKey_sram (v : Vault) (l : KLoc) (f : Key → Key) : (v.modKey l f).sram = v.sram := by
  unfold Vault.modKey
  dsimp only
  repeat' split
  all_goals rfl

/-- A commit record that is not cut is prepared, committed and applied (R265). -/
theorem State.commitRecord_none (s : State) (t c u : Nat) (d b : Bytes) (apply : State → State) :
    s.commitRecord t c u d b .none apply = apply ((s.modVlt fun v => v.prepare t c u d b).modVlt Vault.commit) := rfl

/-- What decides whether an entry of a wing reads, and which session keys the wing has lost. -/
def SameReads (s t : State) : Prop := t.upsets = s.upsets ∧ ∀ v, (t.wing v).struck = (s.wing v).struck ∧ (t.wing v).klost = (s.wing v).klost

theorem SameReads.bad {s t : State} (h : SameReads s t) (e : Ent) : t.bad e = s.bad e := by
  simp [State.bad, State.bankOut, h.1, h.2]

/-- A key that a read gives, the state staying as it is, is given in every state of the same vault and entries. -/
theorem State.readCell_same {s t : State} {w l k} {x : Option Key} (hu : SameReads s t) (h : s.readCell w l x = (some k, s)) :
    t.readCell w l x = (some k, t) := by
  unfold State.readCell at *
  rw [hu.bad]
  split at h
  · simp at h
  · rename_i g; rw [if_neg g]; simp at h; simp [h]

theorem State.readKey_same {s t : State} {w l k} (hv : t.vlt = s.vlt) (hu : SameReads s t) (h : s.readKey w l = (some k, s)) : t.readKey w l = (some k, t) := by
  unfold State.readKey at *
  cases l with
  | slot n =>
    simp only [hv] at *
    cases hx : tget s.vlt.slots n with
    | none => simp [hx] at h
    | some x =>
      simp only [hx] at *
      rw [hu.bad]
      by_cases g : (!x.inWing w) = true
      · rw [if_pos g] at h; simp at h
      · rw [if_neg g] at h ⊢
        by_cases g2 : s.bad (KLoc.ent w (.slot n)) = true
        · rw [if_pos g2] at h ⊢; exact State.readCell_same hu h
        · rw [if_neg g2] at h ⊢
          cases hr : x.ref with
          | some r => simp only [hr] at h ⊢; exact State.readCell_same hu h
          | none => simp only [hr] at h ⊢; simp at h; simp [h]
  | sess j =>
    simp only [hv, (hu.2 w).2] at *
    split at h
    · simp at h
    · rename_i g; rw [if_neg g]; exact State.readCell_same hu h
  | classA _ => simp only [hv] at *; exact State.readCell_same hu h

/-- A use of a key changes no channel, and not RT. -/
theorem State.useKey_chans (s : State) (w l n) : (s.useKey w l n).chans = s.chans ∧ (s.useKey w l n).vlt.rt = s.vlt.rt := by
  unfold State.useKey
  dsimp only
  have hm : ∀ v : Vault, ∀ f, (v.modKey l f).rt = v.rt := by intro v f; cases l <;> first | rfl | (unfold Vault.modKey; dsimp only; repeat' split) <;> rfl
  split
  · split
    · have q : ∀ a : State, (a.spend w l).chans = a.chans ∧ (a.spend w l).vlt.rt = a.vlt.rt := by
        intro a
        rcases a.spend_eq w l with e | e | e <;> rw [e]
        · exact ⟨rfl, rfl⟩
        · exact ⟨(a.closeUnder_only l).chans, by rw [(a.closeUnder_only l).vlt]⟩
        · constructor
          · simp [(a.closeUnder_only l).chans]
          · simp [hm, (a.closeUnder_only l).vlt]
      refine ⟨(q _).1, ?_⟩
      rw [(q _).2]; simp [hm]
    · exact ⟨rfl, by simp [hm]⟩
  · exact ⟨rfl, by simp [hm]⟩

end Sys2Proof.Machine
end

