-- ==== Sys2Proof/Laws/Mbox.lean ====
section
/-! SUPPORT. What running a mailbox command comes to (R365, R369, R370). -/

namespace Sys2Proof.Laws

open Sys2Proof.Machine Sys2Proof.Safety

theorem took_mapWing (s : State) (ch : Fin 8) : (took s ch).chans[ch].mapWing = s.chans[ch].mapWing := by
  simp [took, State.modChan]

/-- A served command runs its body and is answered or waits. -/
theorem runSel_served {s : State} {ch : Fin 8} {o : OpSpec} {p : Place} (sel : Place → Bool) (body : State → Ctx → Res)
    (h : Served s ch o p) (hs : sel p = true) :
    s.runSel ch o sel body =
      (if o.wing = 3 then
          body (took s ch) (ctxOf ch p (p.wings o (home s ch)) ((p.wings o (home s ch)).headD (home s ch)))
        else runWings body (ctxOf ch p (p.wings o (home s ch)) ((p.wings o (home s ch)).headD (home s ch)))
          (p.wings o (home s ch)) (took s ch)).settle ch s.chans[ch].expect := by
  obtain ⟨h1, h2, h3, h4, h5, h6⟩ := h
  have hn : s.isNext ch o.op sel = some p := by
    simp only [State.isNext, h1, h2, h3, h4, hs, and_self, if_true]
  simp only [State.runSel, hn, h5, ne_eq, not_true_eq_false, if_false]
  simp only [took] at h6
  simp only [h6, took, home, ctxOf]
  rfl

theorem runCmd_served {s : State} {ch : Fin 8} {o : OpSpec} {p : Place} (body : State → Ctx → Res) (h : Served s ch o p) :
    s.runCmd ch o body =
      (if o.wing = 3 then
          body (took s ch) (ctxOf ch p (p.wings o (home s ch)) ((p.wings o (home s ch)).headD (home s ch)))
        else runWings body (ctxOf ch p (p.wings o (home s ch)) ((p.wings o (home s ch)).headD (home s ch)))
          (p.wings o (home s ch)) (took s ch)).settle ch s.chans[ch].expect :=
  runSel_served (fun _ => true) body h rfl

/-- A command that names no wing runs once, for its channel's wing. -/
theorem runCmd_once {s : State} {ch : Fin 8} {o : OpSpec} {p : Place} (body : State → Ctx → Res) (h : Served s ch o p)
    (hw : o.wing = 0) :
    s.runCmd ch o body =
      (body (took s ch) (ctxOf ch p [home s ch] (home s ch))).settle ch s.chans[ch].expect := by
  rw [runCmd_served body h]
  simp [Place.wings, hw, runWings, ctxOf]

/-- A body that succeeds on every wing it is run for does its work on each in turn. -/
theorem runWings_good (body : State → Ctx → Res) (c : Ctx) (E : State → Wing → State) (ws : List Wing) (s : State)
    (h : ∀ t w, w ∈ ws → body t { c with wing := w } = good (E t w)) : runWings body c ws s = good (ws.foldl E s) := by
  induction ws generalizing s with
  | nil => rfl
  | cons w r ih =>
    cases r with
    | nil => simp [runWings, h s w]
    | cons w' r' =>
      simp only [runWings, h s w List.mem_cons_self, good, List.foldl_cons]
      simpa [good] using ih (E s w) (fun t v hv => h t v (List.mem_cons_of_mem _ hv))

/-- A command marked with a wing whose body succeeds on every wing it names. -/
theorem runSel_wings {s : State} {ch : Fin 8} {o : OpSpec} {p : Place} (sel : Place → Bool) (body : State → Ctx → Res)
    (h : Served s ch o p) (hs : sel p = true) (hw : o.wing ≠ 3) (E : State → Wing → State)
    (hb : ∀ t w, w ∈ p.wings o (home s ch) → body t (ctxOf ch p (p.wings o (home s ch)) w) = good (E t w)) :
    s.runSel ch o sel body = ((p.wings o (home s ch)).foldl E (took s ch)).finish ch .ok [] := by
  rw [runSel_served sel body h hs, if_neg hw, runWings_good body _ E _ _ (fun t w hw => hb t w hw)]
  rfl

theorem runCmd_wings {s : State} {ch : Fin 8} {o : OpSpec} {p : Place} (body : State → Ctx → Res) (h : Served s ch o p)
    (hw : o.wing ≠ 3) (E : State → Wing → State)
    (hb : ∀ t w, body t (ctxOf ch p (p.wings o (home s ch)) w) = good (E t w)) :
    s.runCmd ch o body = ((p.wings o (home s ch)).foldl E (took s ch)).finish ch .ok [] :=
  runSel_wings _ body h rfl hw E fun t w _ => hb t w

/-- A command of one wing that runs its body once. -/
theorem runCmd_single {s : State} {ch : Fin 8} {o : OpSpec} {p : Place} {w : Wing} (body : State → Ctx → Res) (h : Served s ch o p)
    (h3 : o.wing = 3) (hw : p.wings o (home s ch) = [w]) :
    s.runCmd ch o body = (body (took s ch) (ctxOf ch p [w] w)).settle ch s.chans[ch].expect := by
  rw [runCmd_served body h, if_pos h3, hw]; rfl

/-- A command gets a key that it may use. -/
theorem usable_command {s : State} {ch p l u k} (h : Usable s ch p l u k) :
    (took s ch).commandKey (ctx0 s ch p) l u = (.ok k, keyed s ch l) := by
  obtain ⟨h1, h2, h3, h4, _⟩ := h
  have hm := took_mapWing s ch
  have ow := State.needKey_only (took s ch) (home s ch) l
  have hv : ((took s ch).needKey (home s ch) l).vlt = s.vlt := ow.vlt
  have hk := State.readKey_same hv ⟨ow.upsets, fun v => ⟨(State.needKey_keeps (g := WingSt.struck) (fun _ _ _ _ _ => rfl) _ _ v l), State.needKey_keeps (g := WingSt.klost) (fun _ _ _ _ _ => rfl) _ _ v l⟩⟩ h1
  have hr : ((took s ch).needKey (home s ch) l).rt = s.rt := by show Vault.rt _ = _; rw [hv]; rfl
  simp only [State.commandKey, ctx0, ctxOf, hm, keyed]
  rw [show s.chans[ch].mapWing = home s ch from rfl, hk]
  simp only [hv, hr, h2, h3, h4]
  simp

end Sys2Proof.Laws
end

