-- ==== Sys2Proof/Laws/Memory.lean ====
section
/-! SUPPORT. Every operation that writes the retention SRAM keeps its canonical form (R238). -/

namespace Sys2Proof.Machine

/-- Whether a memory is canonical and lists nothing at or below an address. -/
theorem Memory.wf_cons {a : Nat} {b : Byte} {m : List Host.Cell} :
    Memory.wf ((a, b) :: m) = true ↔ b ≠ 0 ∧ (∀ c ∈ m.head?, a < c.1) ∧ Memory.wf m = true := by
  cases m with
  | nil => simp [Memory.wf]
  | cons c m => obtain ⟨a', b'⟩ := c; simp [Memory.wf, and_assoc]

theorem memWrite_head (m : List Host.Cell) (a x : Nat) (b : Byte) (hx : x < a) (h : ∀ c ∈ m.head?, x < c.1)
    (hm : Memory.wf m = true) : ∀ c ∈ (memWrite m a b).head?, x < c.1 := by
  cases m with
  | nil =>
    simp only [memWrite]
    split <;> simp [hx]
  | cons c m =>
    obtain ⟨a', b'⟩ := c
    have h' : x < a' := h (a', b') rfl
    obtain ⟨-, h2, -⟩ := Memory.wf_cons.1 hm
    simp only [memWrite]
    split
    · split <;> simp [h', hx]
    · split
      · split
        · intro c hc
          have := h2 c hc
          omega
        · simp [hx]
      · simp [h']

/-- Writing a byte. -/
theorem memWrite_wf (m : List Host.Cell) (a : Nat) (b : Byte) (h : Memory.wf m = true) : Memory.wf (memWrite m a b) = true := by
  induction m with
  | nil =>
    simp only [memWrite]
    split <;> simp_all [Memory.wf]
  | cons c m ih =>
    obtain ⟨a', b'⟩ := c
    obtain ⟨h1, h2, h3⟩ := Memory.wf_cons.1 h
    simp only [memWrite]
    split
    · split
      · exact h
      · exact Memory.wf_cons.2 ⟨‹_›, by simpa using ‹a < a'›, h⟩
    · split
      · split
        · exact h3
        · rename_i e _
          exact Memory.wf_cons.2 ⟨‹_›, by rw [e]; exact h2, h3⟩
      · exact Memory.wf_cons.2 ⟨h1, memWrite_head m a a' b (by omega) h2 h3, ih h3⟩

/-- Writing bytes. -/
theorem memPut_wf (m : List Host.Cell) (a : Nat) (bs : Bytes) (h : Memory.wf m = true) : Memory.wf (memPut m a bs) = true := by
  induction bs generalizing m a with
  | nil => exact h
  | cons b bs ih => exact ih _ _ (memWrite_wf m a b h)

theorem memWr32_wf (m : List Host.Cell) (a x : Nat) (h : Memory.wf m = true) : Memory.wf (memWr32 m a x) = true := memPut_wf _ _ _ h

theorem memWr64_wf (m : List Host.Cell) (a x : Nat) (h : Memory.wf m = true) : Memory.wf (memWr64 m a x) = true := memPut_wf _ _ _ h

/-! ## The vault's writes -/

theorem Vault.macHeader_wf (v : Vault) (h : Memory.wf v.sram = true) : Memory.wf v.macHeader.sram = true := by
  unfold Vault.macHeader
  split
  · exact memPut_wf _ _ _ h
  · exact h

theorem Vault.newHeader_wf (v : Vault) (p : Nat) (i : Bool) (h : Memory.wf v.sram = true) :
    Memory.wf (v.newHeader p i).sram = true := by
  unfold Vault.newHeader
  dsimp only
  apply Vault.macHeader_wf
  apply memPut_wf
  exact h

theorem Vault.setIron_wf (v : Vault) (x : Bool) (h : Memory.wf v.sram = true) : Memory.wf (v.setIron x).sram = true := by
  unfold Vault.setIron
  apply Vault.macHeader_wf
  apply memWr32_wf
  exact h

theorem Vault.setVersion_wf (v : Vault) (i x : Nat) (h : Memory.wf v.sram = true) : Memory.wf (v.setVersion i x).sram = true := by
  unfold Vault.setVersion
  exact memWr64_wf _ _ _ h

theorem Vault.setLease_wf (v : Vault) (i n : Nat) (p : Bool) (x : Nat) (h : Memory.wf v.sram = true) :
    Memory.wf (v.setLease i n p x).sram = true := by
  unfold Vault.setLease
  dsimp only
  apply memWr64_wf
  apply memWr32_wf
  exact memWr32_wf _ _ _ h

theorem Vault.clearLease_wf (v : Vault) (n : Nat) (h : Memory.wf v.sram = true) : Memory.wf (v.clearLease n).sram = true := by
  unfold Vault.clearLease
  split
  · exact memPut_wf _ _ _ h
  · exact h

theorem Vault.setRegionRec_wf (v : Vault) (r : Nat) (b : Bytes) (h : Memory.wf v.sram = true) :
    Memory.wf (v.setRegionRec r b).sram = true := by
  unfold Vault.setRegionRec
  dsimp only
  exact memPut_wf _ _ _ h

theorem Vault.applyRoots_wf (n : Nat) (v : Vault) (b : Bytes) (h : Memory.wf v.sram = true) :
    Memory.wf (Vault.applyRoots n v b).sram = true := by
  induction n generalizing v b with
  | zero => exact h
  | succ n ih => exact ih _ _ (v.setRegionRec_wf _ _ h)

theorem Vault.applySlot_wf (v : Vault) (i : Nat) (h : Memory.wf v.sram = true) : Memory.wf (v.applySlot i).sram = true := by
  unfold Vault.applySlot
  dsimp only
  repeat' split
  · exact v.setVersion_wf _ _ h
  · exact h
  · exact v.setLease_wf _ _ _ _ h
  · exact h
  · exact Vault.applyRoots_wf _ _ _ h
  · exact h

theorem Vault.prepare_wf (v : Vault) (t c u : Nat) (d b : Bytes) (h : Memory.wf v.sram = true) :
    Memory.wf (v.prepare t c u d b).sram = true := by
  unfold Vault.prepare
  dsimp only
  exact memPut_wf _ _ _ h

theorem Vault.commit_wf (v : Vault) (h : Memory.wf v.sram = true) : Memory.wf v.commit.sram = true := by
  unfold Vault.commit
  dsimp only
  exact memWr32_wf _ _ _ h

theorem Vault.rcbPush_wf (v : Vault) (ws : List Word) (h : Memory.wf v.sram = true) : Memory.wf (v.rcbPush ws).sram = true := by
  unfold Vault.rcbPush
  split <;> exact memPut_wf _ _ _ h

theorem Vault.setMac_wf (v : Vault) (h : Memory.wf v.sram = true) : Memory.wf v.setMac.sram = true := by
  unfold Vault.setMac
  generalize cmac _ _ = b
  exact memPut_wf _ _ _ h

theorem Vault.defaultSettings_wf (v : Vault) (h : Memory.wf v.sram = true) : Memory.wf v.defaultSettings.sram = true := by
  unfold Vault.defaultSettings
  dsimp only
  apply Vault.setMac_wf
  generalize padTo 240 _ = b
  exact memPut_wf _ _ _ h

theorem Vault.iron_wf (v : Vault) (h : Memory.wf v.sram = true) : Memory.wf v.iron.sram = true := by
  unfold Vault.iron
  generalize List.replicate 192 (0 : Byte) = b
  dsimp only
  apply Vault.setIron_wf
  exact memPut_wf _ _ _ h

theorem Vault.recover_wf (v : Vault) (i : Nat) (h : Memory.wf v.sram = true) : Memory.wf (v.recover i).sram = true := by
  unfold Vault.recover
  apply Vault.applySlot_wf
  exact memWr32_wf _ _ _ h

theorem Vault.applyKum_wf (v : Vault) (h : Memory.wf v.sram = true) : Memory.wf v.applyKum.sram = true := by
  unfold Vault.applyKum Vault.unload
  dsimp only
  repeat' split
  · exact v.setVersion_wf _ _ h
  · exact v.setVersion_wf _ _ h
  · exact v.setVersion_wf _ _ h
  · exact v.setIron_wf _ h
  · exact h
  · exact h

theorem Vault.restoreOff_wf (v : Vault) (x : Nat) (h : Memory.wf v.sram = true) :
    Memory.wf (if v.lcCode = 4 then { v with sram := memWr32 v.sram 0xF28 x } else v).sram = true := by
  generalize 0xF28 = a
  split
  · exact memWr32_wf _ _ _ h
  · exact h

theorem Vault.settled_wf (v : Vault) (o : Nat) (i : Bool) (h : Memory.wf v.sram = true) :
    Memory.wf (({ v with setLost := false } : Vault).newHeader o i).sram = true := Vault.newHeader_wf _ _ _ h

theorem Vault.moveContext_wf (v : Vault) (held : Bool) (h : Memory.wf v.sram = true) :
    Memory.wf (v.moveContext held).sram = true := by
  have key : ∀ (u : Vault) (o x : Nat) (i : Bool), Memory.wf u.sram = true →
      Memory.wf (({ (if u.lcCode = 4 then { u with sram := memWr32 u.sram 0xF28 x } else u).setMac with setLost := false } :
        Vault).newHeader o i).sram = true := by
    intro u o x i hu
    have h1 := Vault.setMac_wf _ (u.restoreOff_wf x hu)
    generalize Vault.setMac _ = y at h1 ⊢
    exact y.settled_wf o i h1
  unfold Vault.moveContext
  generalize List.replicate 0xC00 (0 : Byte) = b
  have hb : Memory.wf (memPut v.sram 0x200 b) = true := memPut_wf _ _ _ h
  dsimp only
  split
  · exact key _ _ _ _ (Vault.commit_wf _ (Vault.prepare_wf _ _ _ _ _ _ hb))
  · split
    · exact key _ _ _ _ (Vault.commit_wf _ (Vault.prepare_wf _ _ _ _ _ _ hb))
    · exact key _ _ _ _ (Vault.commit_wf _ (Vault.prepare_wf _ _ _ _ _ _ hb))

/-- The state right after reset. -/
theorem State.reset_wf : Memory.wf State.reset.vlt.sram = true := rfl

end Sys2Proof.Machine
end

