-- ==== Sys2Proof/Tests/Slice0.lean ====
section
/-! SUPPORT. The row's own tests: ill-formed commands, values that the manual states, and for each statement states that meet its
hypotheses. -/

namespace Sys2Proof.Tests

set_option Elab.async false

open Sys2Proof.Machine Sys2Proof.Safety

/-! ## Well-formedness: one ill-formed term for each check -/

def hsF : HsFrame := { len := 64, data := List.replicate 64 0, eof := true, sai := 0xFFFFF, cls := 0, curtain := false, ltime := none }

theorem test_wf_frames : (Instr.outboundFrame 0 hsF).wf = true ∧ (Instr.outboundFrame 0 { hsF with data := [] }).wf = false
    ∧ (Instr.inboundFrame 0 { len := 64, data := [], eof := true, err := false }).wf = false
    ∧ (Instr.inboundFrame 0 { len := 64, data := [0], eof := false, err := true }).wf = false := by decide

theorem test_wf_registers : (Instr.registerWrite { mid := 0, world := false } 4#16 0).wf = true
    ∧ (Instr.registerWrite { mid := 0, world := false } 2#16 0).wf = false := by decide

theorem test_wf_numbers : (Instr.saFetch .sl (2 ^ 20) true true).wf = false ∧ (Instr.saFetch .sl (2 ^ 20 - 1) true true).wf = true
    ∧ (Instr.rekeyOverlap .sl (2 ^ 20)).wf = false
    ∧ (Instr.leaseGrant .sl (2 ^ 20) .none).wf = false ∧ (Instr.leaseRefreshRetry .sl (2 ^ 20)).wf = false
    ∧ (Instr.unkeyedTtl .sl 131088).wf = false ∧ (Instr.grqHoldTimeout .sl 65536).wf = false
    ∧ (Instr.partialWrite 0 0 4).wf = false ∧ (Instr.lineVerify 0 0 4).wf = false ∧ (Instr.tagRepair 0 0 4).wf = false
    ∧ (Instr.pageReencrypted .sl 64).wf = false := by decide

theorem test_wf_pins : (Instr.startUp { conds := [], entropyOk := true, drbgOk := true, katOk := true }).wf = false
    ∧ (Instr.todPps .sl { sec := 0, ns := 1000000000, valid := true, stable := true, lock := true }).wf = false
    ∧ (Instr.tamperChip []).wf = false ∧ (Instr.bridgeToken .sl (.beacon 4) true).wf = false := by decide

theorem test_wf_units : (Instr.stuckHandshake (.trieBank .sl true 3) 0).wf = false ∧ (Instr.marginSample (.lane 0) 65536).wf = false
    ∧ (Instr.marchTest .sl 4096 0 true).wf = false ∧ (Instr.unitClosed (.slot 4096)).wf = false
    ∧ (Instr.forcedClose (.classA 128)).wf = false ∧ (Instr.unitClosed (.sramBank .sl 4096)).wf = false
    ∧ (Instr.unitClosed (.trieStage .sl 15)).wf = false ∧ (Instr.unitClosed (.sa .sl (2 ^ 20))).wf = false
    ∧ (Instr.rhlReplayRecord .sl (.rcd 256 0 [] [])).wf = false := by decide

/-- The table gives no row bits. -/
theorem test_decode : decodeTableWord 32 0 = none ∧ (State.reset.withFetchWord 32 0).pending = [] := by decide

/-! ## Small states -/

/-- A block whose Script is ready, every supply present. -/
def rd : State := { State.reset with
  pwr := { coreRst := false }
  boot := { phase := .ready }
  cores := Vector.replicate 2 { running := true } }

/-- A request of an opcode with its payload, as MBX0 holds it first. -/
def rq (op : Nat) (ws : List Nat) (wing : Nat := 0) (force : Nat := 0) : Place :=
  { words := [wd (op + force * 2 ^ 11 + ws.length * 2 ^ 16 + wing * 2 ^ 22), 0] ++ ws.map wd, group := 0, world := false }

/-- A request that comes next on a channel. -/
def onCh (s : State) (ch : Fin 8) (p : Place) : State := s.modChan ch fun c => { c with queue := [p] }

/-- A request that comes next on MBX0. -/
def on (s : State) (p : Place) : State := onCh s 0 p

/-- A ready block with a request that comes next on MBX0. -/
def rdOn (p : Place) : State := on rd p

/-- A catalogue row. -/
abbrev row (op lenMin lenMax : Nat) (wing : Nat := 0) (close : Bool := false) (hold : Bool := false) (iron : Bool := false) :
    OpSpec := { op := op, lenMin := lenMin, lenMax := lenMax, wing := wing, close := close, hold := hold, iron := iron }

/-! ## Values that the manual states -/

/-- The worked example of R390: 300 events on a board of 3,900. -/
theorem test_call_board : (let c : Cbd := { head := 0x2057, tail := 0x1057, lost := true, lostCount := 103 }
    ((c.push []).head, (c.push []).tail, (c.push []).fill, (c.push []).lostCount)) = (0x2058, 0x1058, 4096, 104) := by decide

/-- The commands of R370: an unexpected SEQ is answered with the expected one. -/
theorem test_seq_error : (match exec (.nop 0) (on { rd with chans := rd.chans.map fun c => { c with expect := 5 } } (rq 0 [])) with
    | .next t => (t.chans[(0 : Fin 8)].expect, t.chans[(0 : Fin 8)].queue.map (·.phase))
    | _ => (0, [])) = (5, [.answered .seqError [5]]) := by decide +kernel

/-- The defaults of R296 for SERVICE and DEV: TLP0 IRON and ALARM, SHIELD IRON. -/
theorem test_tamper_defaults : respLevel (respWord (respDefault 0)) 4 = 3 ∧ respLevel (respWord (respDefault 0)) 3 = 1
    ∧ respLevel (respWord (respDefault 4)) 5 = 3 ∧ respLevel (respWord (respDefault 5)) 4 = 1
    ∧ respLevel (respWord (respDefault 6)) 4 = 2 ∧ respLevel (respWord (respDefault 8)) 3 = 0 := by decide


/-! ## States that meet the statements' hypotheses -/

/-- `Served` as a test. -/
def sv (s : State) (ch : Fin 8) (o : OpSpec) (p : Place) : Bool :=
  decide (s.chans[ch].head = some p) && decide (p.phase = .queued) && decide (p.op = o.op) && s.canServe ch
    && decide (p.seq = s.chans[ch].expect.toNat) && decide ((took s ch).refuses ch p o = none)

theorem sv_iff (s : State) (ch : Fin 8) (o : OpSpec) (p : Place) : sv s ch o p = true ↔ Served s ch o p := by
  simp [sv, Served, and_assoc]

/-- A request of a ready block that is served, and what else its clause asks. -/
def ok (o : OpSpec) (ws : List Nat) (wing : Nat := 0) (s : State := rd) (f : Place → State → Bool := fun _ _ => true)
    (force : Nat := 0) : Bool :=
  let p := rq o.op ws wing force
  sv (on s p) 0 o p && f p (on s p)

/-- What holds in every wing that a request on MBX0 names. -/
def allW (o : OpSpec) (p : Place) (s : State) (f : Wing → Bool) : Bool := (p.wings o (home s 0)).all f

theorem witness_StepRunsFront : [decide (({ rd with pending := [.nop 0] } : State).pending = [.nop 0])].all id = true := by decide +kernel

/-- A block whose boot ROM waits for an image. -/
def rom : State := { rd with boot := { phase := .rom } }

theorem witness_SystemCommands : [
    ok (row 0x000 0 0) [], ok (row 0x001 0 0) [], ok (row 0x002 0 0) [] 0 rd fun _ s => decide (s.boot.phase = .ready),
    ok (row 0x002 0 0) [] 0 rom fun _ s => decide (s.boot.phase = .rom), ok (row 0x1E0 0 62) [7, 8],
    ok (row 0x006 1 1 1) [0xFFFFF] 2 rd fun p _ => decide (wordAt p.words 2 < 2 ^ 20), ok (row 0x1E1 3 3 1) [1, 2, 3] 2,
    ok (row 0x008 2 2) [0, 63] 0 rd fun _ s => s.reach (home s 0) (portWing 63),
    ok (row 0x008 2 2) [1, 9] 0 { rd with sl := { rd.sl with sas := [(9, { r := {} })] } } fun _ s => (s.sa .sl 9).isSome,
    ok (row 0x008 2 2) [3, 63] 0 (rd.modRegion 63 fun x => { x with st := .active }) fun _ s =>
      decide (s.regions[(63 : Fin 64)].st ≠ .notInstalled) && s.reach (home s 0) s.regions[(63 : Fin 64)].d.owner,
    ok (row 0x008 2 2) [4, 3] 0 rd fun _ s => s.reach (home s 0) (rqpWing 3),
    ok (row 0x008 2 2) [5, 1] 0 rd fun _ s => s.reach (home s 0) .sr,
    ok (row 0x008 2 2) [0, 64]].all id = true := by decide +kernel

/-- A block whose wings do not see each other. -/
def parted : State := { rd with sl := { rd.sl with link := .partitioned }, sr := { rd.sr with link := .partitioned } }

theorem witness_Channels : [
    ok (row 0x003 1 1) [0xFF] 0 rd fun _ s => !s.chans[(7 : Fin 8)].locked,
    ok (row 0x003 1 1) [7] 0 (rd.modChan 7 fun c => { c with locked := true }) fun _ s => s.chans[(7 : Fin 8)].locked,
    ok (row 0x004 1 1) [0xFF],
    sv (onCh rd 7 (rq 3 [0])) 7 (row 0x003 1 1) (rq 3 [0]), sv (onCh rd 1 (rq 4 [0])) 1 (row 0x004 1 1) (rq 4 [0]),
    ok (row 0x005 1 1) [0xFF] 0 rd fun _ s => decide (s.sl.link = .joined ∧ s.sr.link = .joined),
    ok (row 0x005 1 1) [0] 0 parted fun _ s => decide (s.sl.link ≠ .joined)].all id = true := by decide +kernel

theorem witness_StagedSettings : [
    ok (row 0x022 5 5) [63, 0, 0, 0, 0] 0 rd fun p s => portClsOk p.words 3 && s.reach (home s 0) (portWing 63),
    ok (row 0x023 4 4) [0, 9600, 1000, 1000] 0 rd fun p _ => portSpOk p.words 3,
    ok (row 0x165 5 5) [0, 0, 0, 0, 0] 0 rd fun p _ => ptpCfgOk p.words 3,
    ok (row 0x027 2 2) [3, 1000] 0 rd fun _ s => s.reach (home s 0) (mpWing 3),
    ok (row 0x028 2 2 1) [1, 10] 2, ok (row 0x028 2 2 1) [0, 1000000] 0, ok (row 0x068 1 1 1) [0xFFFF] 1, ok (row 0x085 1 1 1) [600] 2,
    ok (row 0x0A4 2 2 1) [2, 100] 2,
    ok (row 0x0C0 1 1 1) [6 + 2 ^ 8 + 255 * 2 ^ 16 + 2 ^ 24] 0 rd fun p _ => (ClassCfg.ofWord (wordAt p.words 2)).ok,
    ok (row 0x160 4 4 1) [0, 2000, 1000000, 1] 0 rd fun p _ => prmCfgOk p.words 2,
    ok (row 0x180 3 3 1) [1000 + 400 * 2 ^ 16, 600, 3] 0 rd fun p s => wearCfgOk p.words 2 && decide (s.vlt.lcCode ≠ 4)].all id
      = true := by decide +kernel

/-- A Prompt that is locked in epoch 1. -/
def lk : State := { rd with
  sl := { rd.sl with prm := { st := .locked, t := 10 ^ 9 * 2 ^ 32 } }
  sr := { rd.sr with prm := { st := .locked, t := 10 ^ 9 * 2 ^ 32 } } }

/-- A block in FIELD_SERVICE whose log region of SL may take a record log. -/
def fieldSvc : State := { (rd.modRegion 0 fun x => { x with st := .active }) with
  vlt := { rd.vlt with lcCode := 5, drbgOk := true }, spill := some 0 }

/-- RHL_CFG words of an action. -/
def rhlWs (action : Nat) : List Nat := action :: List.replicate 30 0

theorem witness_ModeSettings : (let o := row 0x162 4 4 1; let t := row 0x163 8 8 2; let r := row 0x1A0 31 31 1; [
    ok o [1, 0, 0x80000000, 0xFFFF] 2 lk fun p s => allW o p s fun w => decide ((s.wing w).prm.st ≠ .unset),
    ok o [0, 0, 0, 0] 1 lk fun p s => allW o p s fun w => decide ((s.wing w).prm.st ≠ .unset),
    ok t [7 + 16 + 128, 10, 0, 0, 0, 2, 0, 1] 0 lk fun p s => cueClean p.words 2 && allW t p s fun w =>
        decide (((took s 0).view 0).cueStatus w (cueOfWords p.words 2).1 (cueOfWords p.words 2).2 = .ok),
    ok r (rhlWs 0) 2 rd fun p _ => rhlCfgClean p.words 2 && decide (p.rhlAction = 0),
    ok r (rhlWs 1) 0 fieldSvc fun p s => rhlCfgClean p.words 2 && decide (p.rhlAction = 1 ∧ s.vlt.lcCode = 5) && s.vlt.drbgOk
      && allW r p s fun w => !(s.wing w).rhl.busy,
    ok r (rhlWs 2) 0 fieldSvc fun p s => rhlCfgClean p.words 2 && decide (p.rhlAction = 2 ∧ s.vlt.lcCode = 5) && s.vlt.drbgOk
      && allW r p s fun w => !(s.wing w).rhl.busy && (took s 0).recordOk w,
    ok r ([3, 0, 0] ++ List.replicate 28 0xFFFFFFFF) 0 rd fun p s => rhlCfgClean p.words 2 && decide (p.rhlAction = 3)
      && allW r p s fun w => !(s.wing w).rhl.busy]).all id
      = true := by decide +kernel

/-- A block whose MBX0 has an effect of each wing staged. -/
def staged : State := parted.modChan 0 fun c => { c with staged := [(.sl, .boxTtl .sl 5), (.sr, .boxTtl .sr 5)] }

theorem witness_CurtainApplies : [decide ((rd.wing (home rd 0)).link = .joined), decide ((staged.wing (home staged 0)).link ≠ .joined),
    (rd.sa .sl 9).isNone, (({ rd with sl := { rd.sl with sas := [(9, { r := {} })] } } : State).sa .sl 9).any fun x => x.st ≠ .closing,
    (({ rd with sl := { rd.sl with sas := [(9, { r := {}, st := .closing })] } } : State).sa .sl 9).any fun x => x.st = .closing].all id
      = true := by decide +kernel

/-- A port of a ready block in a state. -/
def portSt (p : Fin 64) (st : PState) : State := rd.modPort p fun x => { x with st := st, hsRst := false, lsRst := false }

theorem witness_PortCommands : (let o := row 0x020 1 1; let c := row 0x021 1 1 (close := true)
    let g (s : State) : Bool := !s.vlt.ironHeld && decide (s.vlt.lcCode ≠ 6 ∧ (s.wing (portWing 63)).rhl.st ≠ .snapshot
      ∧ (s.wing (portWing 63)).rhl.st ≠ .replaying) && !s.ports[(63 : Fin 64)].absent && s.reach (home s 0) (portWing 63)
    let shut (f : State → State) : Bool := ok o [63] 0 (f (portSt 63 .closed)) fun _ s => g s && decide (s.ports[(63 : Fin 64)].st = .closed)
    let up (s : State) : State := { s with sr := { s.sr with ready := true } }
    let entering (s : State) : State := { s with pwr := { s.pwr with entering := true } }; [
    shut fun s => s.modPort 63 fun x => { x with hsIFail := true }, shut up, shut entering,
    (up rd).taking .sr && !rd.taking .sr && !(entering (up rd)).taking .sr && !(entering rd).vlt.ironHeld && (entering rd).pwr.entering,
    decide ((portSt 63 .opened).ports[(63 : Fin 64)].st = .opened ∧ (rd.modRqp 3 fun x => { x with st := .opened }).rqps[(3 : Fin 4)].st = .opened),
    ok o [63] 0 (portSt 63 .closed) fun _ s => g s && decide (s.ports[(63 : Fin 64)].st = .closed)
      && !s.ports[(63 : Fin 64)].hsIFail && !s.ports[(63 : Fin 64)].lsIFail,
    ok o [63] 0 (portSt 63 .opened) fun _ s => g s && decide (s.ports[(63 : Fin 64)].st = .opened),
    ok o [63] 0 (portSt 63 .closing) fun _ s => g s && decide (s.ports[(63 : Fin 64)].st = .closing),
    ok c [0] 0 (portSt 0 .closed) fun _ s => decide (s.ports[(0 : Fin 64)].st = .closed),
    ok c [0] 0 (portSt 0 .opened) fun p s => decide (s.ports[(0 : Fin 64)].st = .opened) && !p.force,
    ok c [0] 0 (portSt 0 .opened) (fun p s => decide (s.ports[(0 : Fin 64)].st ≠ .closed) && p.force) 1,
    ok (row 0x024 1 1) [63]]).all id = true := by decide +kernel

/-- A request port of a ready block in a state. -/
def rqpSt (st : PState) : State := rd.modRqp 3 fun x => { x with st := st, rst := false }

/-- A block that holds its Iron. -/
def ironed (s : State) : State := { s with vlt := { s.vlt with sram := [(12, 1)] } }

theorem witness_PortCommands_rqp : (let o := row 0x025 1 1; let c := row 0x026 1 1 (close := true)
    let g (s : State) : Bool := !s.vlt.ironHeld && decide ((s.wing (rqpWing 3)).rhl.st ≠ .snapshot
      ∧ (s.wing (rqpWing 3)).rhl.st ≠ .replaying) && !s.rqps[(3 : Fin 4)].rst && !s.rqps[(3 : Fin 4)].struck
      && s.reach (home s 0) (rqpWing 3); [
    ok o [3] 0 (rqpSt .closed) fun _ s => g s && decide (s.rqps[(3 : Fin 4)].st = .closed),
    ok o [3] 0 { rqpSt .closed with pwr := { rd.pwr with entering := true } } fun _ s => g s && s.pwr.entering
      && decide (s.rqps[(3 : Fin 4)].st = .closed),
    ok o [3] 0 (rqpSt .opened) fun _ s => g s && decide (s.rqps[(3 : Fin 4)].st = .opened),
    ok o [3] 0 (ironed rd) fun _ s => s.vlt.ironHeld,
    ok c [3] 0 (rqpSt .closed) fun _ s => decide (s.rqps[(3 : Fin 4)].st = .closed),
    ok c [3] 0 (rqpSt .opened) fun p s => decide (s.rqps[(3 : Fin 4)].st = .opened) && !p.force,
    ok c [3] 0 (rqpSt .closing) (fun p s => decide (s.rqps[(3 : Fin 4)].st ≠ .closed) && p.force) 1]).all id = true := by
  decide +kernel

/-- A key of a type that its attributes let every use have in every state, without an end. -/
def ky (ktype : Nat) (world : Bool := true) (b : Bool := true) : Key :=
  { attr := { ktype := ktype, clsB := b, lcAllowed := 63, usage := 63, groups := 0xFFFF, world0 := world, world1 := true },
    key := List.replicate 32 0, salt := List.replicate 12 0 }

/-- A ready block with SA stores and a session key of GCM-AES-128. -/
def saRd : State := { rd with
  sl := { rd.sl with store := some 0 }, sr := { rd.sr with store := some 1 }
  vlt := { rd.vlt with sess := [(7, ky 1)] } }

/-- The words of an outbound SA record of SL that names session key 7. -/
def saWs : List Nat := [0, 1, 7, 0, 1, 0] ++ List.replicate 26 0

/-- The same block with SAs of SL: each is (number, copy). -/
def saHas (l : Tbl Sa) : State := { saRd with sl := { saRd.sl with sas := l } }

/-- An active outbound copy that names SA 8 next. -/
def saOut : Sa := { r := { portEn := 1, keyRef := 7, nextSai := 8, nextValid := true } }

/-- What the SA store checks of a request's copies ask. -/
def saSeen (s : State) (sai : Nat) : Bool :=
  let xs := ((took s 0).view 0).saCopies sai
  !xs.isEmpty && xs.all fun x => s.reach (home s 0) x.1

theorem witness_SaRecords : [
    ok (row 0x040 33 33) ((2 ^ 20 - 1) :: saWs) 0 saRd fun p s =>
      let x := SaRec.ofWords (wordsAt p.words 3 32)
      saClean (wordsAt p.words 3 32) && saRecOk (2 ^ 20 - 1) x.1 x.2 && (x.1.wings.all fun w => s.reach (home s 0) w
          && (s.wing w).store.isSome && (!x.1.pin || (took s 0).pinRoom 0 w (2 ^ 20 - 1)))
        && (((took s 0).view 0).saCopies (2 ^ 20 - 1)).isEmpty && decide (kLoc x.1.keyRef = some (.sess 7))
        && (s.vlt.keyAt (.sess 7)).any (fun k => saSuiteOk x.1 k.attr && k.allows .stream s.vlt.lcCode none && !k.ended s.rt)
        && !s.bad (.key (home s 0) 1 7) && !s.isSpilled (home s 0) (.sess 7) && !(s.wing (home s 0)).klost.contains 7 && !(took s 0).keyNamed (2 ^ 20 - 1) x.1.keyRef,
    ok (row 0x041 34 34) ([9, 1] ++ saWs) 0 (saHas [(9, saOut)]) fun p s =>
      let x := SaRec.ofWords (wordsAt p.words 4 32)
      saClean (wordsAt p.words 4 32) && saSeen s 9 && (((took s 0).view 0).saCopies 9).all fun y =>
        y.2.modifyOk 9 1 x.1 x.2 && (took s 0).pinRoom 0 y.1 9,
    ok (row 0x042 1 1) [9] 0 (saHas [(9, saOut)]) fun _ s => (((took s 0).view 0).sa (home s 0) 9).isSome].all id = true := by
  decide +kernel

theorem witness_SaSwitchClose : (let c := row 0x044 1 1 (close := true); let r := row 0x045 1 1
    let act := saHas [(8, { saOut with r := { saOut.r with nextValid := false } }), (9, saOut)]
    let shut := saHas [(9, { saOut with st := .closed })]; [
    ok (row 0x043 1 1) [9] 0 act fun _ s => saSeen s 9 && (s.saCopies 9).all fun x => decide (x.2.st = .active) && !x.2.switched
      && !x.2.r.inb && x.2.r.nextValid && (took s 0).nextOk x.1 x.2.r.nextSai none,
    ok c [9] 0 shut fun _ s => saSeen s 9 && (s.saCopies 9).all fun x => decide (x.2.st = .closed),
    ok c [9] 0 act fun p s => saSeen s 9 && !p.force && (s.saCopies 9).any fun x => decide (x.2.st ≠ .closed),
    ok c [9] 0 act (fun p s => saSeen s 9 && p.force && (s.saCopies 9).any fun x => decide (x.2.st ≠ .closed)) 1,
    ok r [9] 0 shut fun _ s => saSeen s 9 && (s.saCopies 9).all fun x => decide (x.2.st = .closed),
    ok r [9] 0 act fun _ s => saSeen s 9 && (s.saCopies 9).any fun x => decide (x.2.st ≠ .closed)]).all id = true := by
  decide +kernel

theorem witness_TrieStagesAndReads : (let o := row 0x060 7 7 1
    let few (p : Place) (s : State) : Bool := allW o p s fun w => decide ((s.wing w).trie.staged.length < 4096); [
    ok o [128 * 256, 0, 0, 0, 0, 0, 0] 2 rd fun p s => few p s && policyOk p.words 7
      && keyClean (fld (wordAt p.words 2) 15 8) (beNat (wordsToBytes (wordsAt p.words 3 4))),
    ok o [1, 0, 0, 0, 0, 0, 0] 0 rd fun p s => few p s && bitOf (wordAt p.words 2) 0 && policyOk p.words 7
      && keyClean (fld (wordAt p.words 2) 15 8) (beNat (wordsToBytes (wordsAt p.words 3 4))),
    ok (row 0x061 33 33 1) (4095 :: List.replicate 32 0xFFFFF) 1 rd fun p s => few p s
      && (wordsAt p.words 3 32).all fun m => decide (m.toNat < 2 ^ 20),
    ok (row 0x063 0 0 1) [] 2 rd few]).all id = true := by decide +kernel

/-- SL's trie in a state. -/
def trieIs (t : Trie) : State := { rd with sl := { rd.sl with trie := t } }

theorem witness_TrieCommits : (let o := row 0x062 0 0 3
    let done : State := onCh (trieIs { other := some {}, commit := some true, commitCh := some 0 }) 0
      { rq 0x062 [] with phase := .running (.ptCommit .sl false []) }; [
    ok o [] 0 (trieIs { staged := [.add 1 0 {}] }) fun p s => decide (p.wings o (home s 0) = [.sl])
      && decide ((s.wing .sl).trie.commit = none) && (s.wing .sl).trie.copying.isEmpty
      && decide (buildStatus (s.wing .sl).trie.cur ((s.wing .sl).trie.cur.build (s.wing .sl).trie.staged) = .ok),
    (let t := (trieIs { other := some {}, commit := some false }).sl.trie; decide (t.commit = some false) && t.other.isSome && t.copying.isEmpty),
    decide (done.sl.trie.commit = some true) && decide (done.sl.trie.commitCh = some 0)
      && decide (done.chans[(0 : Fin 8)].waiting = some (.ptCommit .sl false []))]).all id = true := by decide +kernel

theorem witness_TrieStagesAndReads_reads : (let t : State := trieIs { cur := { names := [(14, 0, 16383)], pfxs := [⟨0, 0, 131071⟩], policies := [(131071, {})] } }
    let one (o : OpSpec) (p : Place) (s : State) : Bool := decide (p.wings o (home s 0) = [.sl]); [
    ok (row 0x064 2 2 2) [14 + 16383 * 16, 226 + 30 * 256] 0 t fun p s => one (row 0x064 2 2 2) p s
      && decide ((s.wing .sl).trie.cur.find 14 16383 = some 0),
    ok (row 0x064 2 2 2) [255 * 16, 255 + 256] 0 t fun _ s => ((s.wing .sl).trie.cur.find 0 255).isSome,
    ok (row 0x065 4 4 2) [14 + 16383 * 16, 255, 0, 0] 0 t fun p s => tentOk p.words 4 && ((s.wing .sl).trie.cur.find 14 16383).isSome,
    ok (row 0x066 1 1 2) [131071] 0 t fun _ s => ((s.wing .sl).trie.cur.policyAt 131071).isSome,
    ok (row 0x067 0 0 2) [] 0 t]).all id = true := by decide +kernel

/-- The words of a KEYED entry of a port's key, SAI 4. -/
def boxWs : List Nat := [1 + 2 * 8, 4, 5, 0, 0, 0, 0, 0]

theorem witness_BoxOffice : (let e := BoxEnt.ofWords (boxWs.map wd) 0
    let slot := (rd.sl.box.places e.ktype e.key).headD 0
    let has : State := { rd with sl := { rd.sl with box := { rd.sl.box with slots := [(slot, e)] } } }
    let one (o : OpSpec) (p : Place) (s : State) : Bool := decide (p.wings o (home s 0) = [.sl]); [
    ok (row 0x080 8 8 2) boxWs 0 rd fun p s => boxEntOk p.words 2 && one (row 0x080 8 8 2) p s,
    ok (row 0x080 8 8 2) (List.replicate 8 0) 0 rd fun p _ => !boxEntOk p.words 2,
    ok (row 0x081 8 8 1) boxWs 0 has fun p s => boxEntOk p.words 2 && one (row 0x081 8 8 1) p s
      && ((took s 0).boxFind .sl (boxGiven p.words 2).ktype (boxGiven p.words 2).key).isSome,
    ok (row 0x082 8 8 1) boxWs 0 has fun p s => boxNamed p.words 2 && one (row 0x082 8 8 1) p s
      && ((took s 0).boxFind .sl e.ktype e.key).isSome,
    ok (row 0x081 8 8 1) boxWs 0 rd fun p s => boxEntOk p.words 2 && ((took s 0).boxFind .sl (boxGiven p.words 2).ktype (boxGiven p.words 2).key).isNone,
    ok (row 0x082 8 8 1) boxWs 0 rd fun p s => boxNamed p.words 2 && ((took s 0).boxFind .sl e.ktype e.key).isNone,
    ok (row 0x083 8 8 2) boxWs 0 has fun p s => boxNamed p.words 2 && ((took s 0).boxFind .sl e.ktype e.key).isSome,
    ok (row 0x083 8 8 2) boxWs 0 rd fun p s => boxNamed p.words 2 && ((took s 0).boxFind .sl e.ktype e.key).isNone,
    ok (row 0x084 1 1 2) [0x2000F] 0 rd fun p _ => (ofLocator (wordAt p.words 2)).isSome,
    ok (row 0x084 1 1 2) [0x1FFFF] 0 rd fun p _ => (ofLocator (wordAt p.words 2)).isSome]).all id = true := by decide +kernel

/-- SL's Green Room holds frame 65535 for port 0. -/
def grqHas (inb : Bool) : State :=
  let s := portSt 0 .opened
  let f : GFrame := { handle := 65535, reason := 1, inb := inb, port := 0, cls := 0, bytes := List.replicate 64 0, sai := 0xFFFFF,
                      tag := 0, arr := {}, queue := 0 }
  { s with sl := { s.sl with grq := { s.sl.grq with frames := [f] } } }

theorem witness_GreenRoom : (let one (o : OpSpec) (p : Place) (s : State) : Bool := decide (p.wings o (home s 0) = [.sl])
    let rel := row 0x0A3 2 2 2
    let may (s : State) (inb : Bool) (fits : Bool := true) : Bool := ((s.wing .sl).grq.held 65535).any fun f => f.inb = inb && !s.ports[f.port].absent
      && decide (s.ports[f.port].st = .opened) && !s.vlt.hold && s.ports[f.port].readmit.isEmpty && s.readmitFits f = fits
    let full (b : Bool) : State := (grqHas b).modPort 0 fun x => { x with lsIHeld := 384, hsIHeld := 640 }; [
    ok (row 0x0A0 2 2 2) [2, 0] 0 (grqHas true) (one (row 0x0A0 2 2 2)),
    ok (row 0x0A1 2 2 2) [65535, 16383] 0 (grqHas true) fun _ s => ((s.wing .sl).grq.held 65535).isSome,
    ok (row 0x0A2 1 1 2) [65535] 0 (grqHas true) fun _ s => ((s.wing .sl).grq.held 65535).isSome,
    ok (row 0x0A2 1 1 2) [65535] 0 rd fun _ s => ((s.wing .sl).grq.held 65535).isNone,
    ok rel [65535, 0] 0 (grqHas true) fun _ s => may s true,
    ok rel [65535, 0] 0 (full true) fun _ s => may s true false, ok rel [65535, 0] 0 (full false) fun _ s => may s false false,
    ok rel [65535, 2 ^ 20 + 9] 0 (grqHas false) fun p s => may s false && bitOf (wordAt p.words 3) 20,
    ok rel [65535, 0] 0 (grqHas false) fun p s => may s false && !bitOf (wordAt p.words 3) 20,
    ok rel [65535, 0] 0 rd fun p s => one rel p s && ((s.wing .sl).grq.held 65535).isNone]).all id = true := by decide +kernel

/-- REGION_INSTALL words: region 63 in a mode, one page, its counters, tree and tags elsewhere, TREE_KEY slot 5. -/
def regWs (mode extra : Nat) : List Nat :=
  if mode = 0 then [63, 0, 0, 4095, 0] ++ List.replicate 11 0
  else [63 + mode * 64 + extra, 0, 0, 4095, 0, 0x10000, 0, 0x20000, 0, 0x30000, 0, 2 ^ 22 + 5, 0, 0, 0, 0]

/-- STORE_SET words of 272 MiB. -/
def storeWs (spill : Nat) : List Nat :=
  [63 + 2 * 64, 0, 0, 272 * 2 ^ 20 - 1, 0, 0x20000000, 0, 0x30000000, 0, 0x40000000, 0, 0, 0, 0, 0, 0, spill]

/-- A block whose slot 5 holds an AES-128 memory key of its own, and whose retention key is zeros. -/
def memRd : State := { rd with
  vlt := { rd.vlt with slots := [(5, { ref := none, key := some (ky 1) })], keys := { ret := some (List.replicate 16 0) } } }

/-- The same block with a retained record of region 63 that agrees. -/
def memResume : State :=
  { memRd with vlt := memRd.vlt.setRegionRec 63 (List.replicate 8 1 ++ memRd.descCheck 63 (rdescOfWords ((regWs 2 0).map wd) 0).2) }

/-- What every install asks. -/
def regMay (s : State) (d : RDesc) : Bool :=
  !s.vlt.ironHeld && decide (s.vlt.lcCode ≠ 6) && s.reach (home s 0) d.owner
    && decide (s.regions[(63 : Fin 64)].st = .notInstalled) && (took s 0).rdescOk d && !areasClash ((took s 0).areas d)
    && (((took s 0).areas d).all fun a => s.installed.all fun x => ((took s 0).areas x.d).all fun b => !areasMeet a b)
    && decide (d.mode ≠ 0 → s.protectedBytes + (d.last + 1 - d.base) ≤ 2 ^ 36)
    && decide (d.mode ≠ 0 → d.pin = true → s.pinnedBytes d.owner + (d.last + 1 - d.base) ≤ 2 ^ 28)

/-- What the key of a keyed install asks. -/
def regKeyed (s : State) (d : RDesc) : Bool :=
  decide (fld d.treeKey 23 22 = 1 ∧ fld d.treeKey 21 12 = 0)
    && match (took s 0).slotKey d.owner (fld d.treeKey 11 0) with
      | (some k, t) => decide (t = took s 0) && k.allows .memory s.vlt.lcCode none && !k.ended s.rt
      | _ => false

theorem witness_RegionInstalls : (let o := row 0x0E0 16 16; let q := row 0x007 17 17
    let d (p : Place) : RDesc := (rdescOfWords p.words 2).2; [
    ok o (regWs 0 0) 0 rd fun p s => regMay s (d p) && rdescClean p.words 2 && !(d p).resume,
    ok o (regWs 2 0) 0 memRd fun p s => regMay s (d p) && rdescClean p.words 2 && regKeyed s (d p) && !(d p).resume,
    ok o (regWs 2 (2 ^ 13)) 0 memResume fun p s => regMay s (d p) && rdescClean p.words 2 && regKeyed s (d p) && (d p).resume
      && decide ((s.vlt.regionRec 63).drop 8 = s.descCheck 63 (d p)),
    ok q (storeWs 0) 0 rd fun p s => regMay s { d p with treeKey := 0 } && rdescClean p.words 2
      && decide (272 * 2 ^ 20 ≤ (d p).last + 1 - (d p).base) && (s.wing (d p).owner).store.isNone,
    ok q (storeWs 1) 0 rd fun p s => regMay s { d p with treeKey := 0 } && rdescClean p.words 2
      && decide (272 * 2 ^ 20 ≤ (d p).last + 1 - (d p).base) && s.spill.isNone]).all id = true := by decide +kernel

/-- Region 63 of SL, CONFIDENTIAL, in a state. -/
def regSt (st : RState) : State := rd.modRegion 63 fun _ => { st := st, d := { mode := 1, last := 4095, ctrBase := 0x10000, treeBase := 0x20000 } }

theorem witness_RegionCommands : (let c := row 0x0E2 1 1 (close := true); let pin := row 0x0E4 1 1
    let st (s : State) : RState := s.regions[(63 : Fin 64)].st
    let may (s : State) : Bool := decide (st s ≠ .notInstalled) && s.reach (home s 0) s.regions[(63 : Fin 64)].d.owner
      && decide (s.pinnedBytes s.regions[(63 : Fin 64)].d.owner + (s.regions[(63 : Fin 64)].d.last + 1) ≤ 2 ^ 28); [
    ok (row 0x0C1 0 0) [] 0 parted fun _ s => !s.reach (home s 0) (laneWing 27),
    ok (row 0x0E1 1 1) [63] 0 (regSt .active) fun _ s => may s,
    ok (row 0x0E3 1 1) [63] 0 (regSt .closed) fun _ s => may s && decide (st s = .closed),
    ok (row 0x0E3 1 1) [63] 0 (regSt .active) fun _ s => may s && decide (st s ≠ .closed),
    ok c [63] 0 (regSt .closed) fun _ s => may s && decide (st s = .closed),
    ok c [63] 0 (regSt .init) fun p s => may s && decide (st s ≠ .closed) && !p.force,
    ok c [63] 0 (regSt .active) (fun p s => may s && decide (st s ≠ .closed) && p.force) 1,
    ok pin [127] 0 (regSt .active) fun _ s => may s && decide (st s = .active ∧ s.regions[(63 : Fin 64)].fillIx = none),
    ok pin [63] 0 (regSt .active) fun _ s => may s && decide (st s = .active),
    ok pin [127] 0 (regSt .init) fun _ s => may s && decide (st s = .init)]).all id = true := by decide +kernel

theorem witness_UsherStages : (let m := row 0x102 2 61 1
    let free (s : State) : Bool := s.sl.ush.hold.isNone && s.sr.ush.hold.isNone; [
    ok (row 0x100 6 6 1) [127 + 128, 0xFFFF, 0, 0, 63, 0] 2 rd fun p s => free s && uruleOk p.words 2,
    ok (row 0x101 5 5 1) [7 + 8, 0, 0, 63, 0] 2 rd fun p s => free s && udefOk p.words 2,
    ok (row 0x103 1 1 1) [1] 2 rd fun _ s => free s, ok (row 0x106 0 0 1) [] 2 rd fun _ s => free s,
    ok m [63 + 256, 0x7F7F7F7F] 2 rd fun p s => free s && (wordsAt p.words 3 1).all fun x => x &&& 0x80808080 = 0,
    ok m ((4 + 60 * 256) :: List.replicate 60 0) 0 rd fun p s => free s && (wordsAt p.words 3 60).all fun x => x &&& 0x80808080 = 0,
    ok (row 0x105 1 1 2) [4 + 127 * 8] 0 rd fun p s => decide (p.wings (row 0x105 1 1 2) (home s 0) = [.sl])]).all id = true := by
  decide +kernel

/-- SL's Usher in a state. -/
def ushIs (u : Usher) (lc : Nat := 2) : State := { rd with sl := { rd.sl with ush := u }, vlt := { rd.vlt with lcCode := lc } }

theorem witness_UsherCommits : (let o := row 0x104 0 0 3
    let st (s : State) : USet := (s.wing .sl).ush.staged
    let r : URule := { valid := true, groups := 1, last := 63 }
    let held (both : Bool) : State := onCh (ushIs { hold := some 0, commitCh := some 0 }) 0 { rq 0x104 [] with phase := .running (.ushCommit .sl both) }
    let put (s : State) : State := (s.usherSwitch .sl).mgCompare .sl
    let good (s : State) : List (Nat × URule) := (st s).rules.filter fun e => !(s.stagedBad .sl).any (·.1 = e.1)
    let bad : State := { ushIs { stMode := some true, stRules := [(0, r), (127, r)] } with upsets := [.rule .sl true 127] }; [
    ok o [] 0 bad fun _ s => (s.wing .sl).ush.hold.isNone && (st s).service && (s.stagedBad .sl).length = 1 && (overlapPair (good s)).isNone,
    ok o [] 0 (ushIs { stMode := some true, stRules := [(0, r)] } 4) fun p s =>
      decide (p.wings o (home s 0) = [.sl]) && (s.wing .sl).ush.hold.isNone && (st s).service && (overlapPair (good s)).isNone,
    ok o [] 0 (ushIs { stMode := some true, stRules := [(0, r), (127, r)] }) fun _ s => (s.wing .sl).ush.hold.isNone && (st s).service
      && decide (overlapPair (good s) = some (0, 127)),
    ok o [] 0 (ushIs {}) fun _ s => !(st s).service && !(s.wing .sl).ush.force.service,
    ok o [] 0 (ushIs { hold := some 0 }) fun _ s => (s.wing .sl).ush.hold.isSome,
    ok o [] 0 (ushIs { force := { service := true }, stMode := some false } 4) fun _ s => !(st s).service && (s.wing .sl).ush.force.service
      && decide (s.vlt.lcCode = 4),
    (let s := ushIs { hold := some 0 }; (s.wing .sl).ush.hold.isSome && (s.undrained .sl).isEmpty && (s.wing .sl).ush.commitCh.isNone),
    decide ((held false).sl.ush.commitCh = some 0 ∧ (held false).chans[(0 : Fin 8)].waiting = some (.ushCommit .sl false)),
    decide ((held true).chans[(0 : Fin 8)].waiting = some (.ushCommit .sl true)) && match (put (held true)).ushStart .sr 0 false with
      | .wait _ _ => true
      | .done .. => false
      | .later _ => false]).all id
      = true := by decide +kernel

/-- A block with wrapping keys: session keys 3 and 4 and the Class A keys 1 and 127; its CTR_DRBG is healthy. -/
def keyRd : State := { rd with vlt := { rd.vlt with
  drbgOk := true
  sess := [(3, { ky 1 with key := (List.range 16).map (BitVec.ofNat 8) ++ List.replicate 16 0 }), (4, ky 2)]
  slots := [(9, { ref := none, key := some (ky 1) })]
  classA := (rd.vlt.classA.set 0 (some (1, ky 1 true false))).set 63 (some (127, ky 1 true false)) } }

/-- A key check of a command passes; for a Class A key it leaves the state as it is. -/
def keyOk (s : State) (p : Place) (l : KLoc) (u : Usage) : Bool :=
  !s.isSpilled (home s 0) l && match (took s 0).commandKey (ctx0 s 0 p) l u with
  | (.ok _, t) => decide (t = took s 0) || l.isTarget
  | _ => false

/-- `Usable` as a test. -/
def usable (s : State) (p : Place) (l : KLoc) (u : Usage) : Bool :=
  match s.readKey (home s 0) l with
  | (some k, t) => decide (t = s) && decide (k.closeAt = none) && k.allows u s.vlt.lcCode (some (p.group, p.world)) && !k.ended s.rt
      && !s.isSpilled (home s 0) l
  | _ => false

/-- A target is free and fits. -/
def placeOk (s : State) (p : Place) (l : KLoc) (a : KeyAttr) : Bool := decide (((took s 0).placeCheck (ctx0 s 0 p) l a).1 = none)

/-- KEY_ATTR words of a Class B key of 16 bytes for every use. -/
def attrWs (ktype : Nat) : List Nat := [ktype + 16 + 63 * 2 ^ 9 + 63 * 2 ^ 16, 0xFFFF, 0, 0]

/-- The words that AES key wrap makes of 00112233…FF under 000102…0F (its published example). -/
def wrapped : List Nat := [0x0A8BA61F, 0x47B41281, 0xD84BF3AE, 0x827B5AFB, 0x23863E9D, 0xE5CFD271]

theorem witness_KeyIntake : (let g := row 0x126 9 9 (hold := true) (iron := true); let w := row 0x127 20 20 (hold := true) (iron := true)
    let d := row 0x128 13 13 (hold := true) (iron := true)
    let at' (p : Place) (i : Nat) (b : Bool) : KeyAttr := { KeyAttr.ofWords p.words i with generated := b }; [
    !rd.pathLost .sl && !rd.pathLost .sr,
    ok g ([2 ^ 20 - 1] ++ attrWs 2 ++ [0, 0, 0, 0]) 0 keyRd fun p s => keyAttrClean p.words 3 && s.vlt.drbgOk && placeOk s p (.sess (2 ^ 20 - 1)) (at' p 3 true),
    ok g ([2 ^ 22 + 4095] ++ attrWs 1 ++ [0, 0, 0, 0]) 0 keyRd fun p s => keyAttrClean p.words 3 && placeOk s p (.slot 4095) (at' p 3 true),
    ok w ([5, 3] ++ attrWs 1 ++ [0, 0, 0, 24] ++ wrapped ++ [0, 0, 0, 0]) 0 keyRd fun p s => keyAttrClean p.words 4 && placeOk s p (.sess 5) (at' p 4 false)
      && keyOk s p (.sess 3) .wrap && (kwUnwrap ((List.range 16).map (BitVec.ofNat 8)) ((wordsToBytes (wordsAt p.words 12 10)).take 24)).isSome,
    ok d ([5, 3] ++ attrWs 6 ++ [0, 0, 0, 0, 0, 0, 0]) 0 keyRd fun p s => keyAttrClean p.words 4 && placeOk s p (.sess 5) (at' p 4 false)
      && keyOk s p (.sess 3) .derive && !s.pathLost (home s 0)]).all id = true := by decide +kernel

theorem witness_KeyAgreement : (let o := row 0x129 12 12 (hold := true) (iron := true); let i := row 0x12A 3 61 (hold := true) (iron := true); [
    ok o ([2 ^ 23 + 127, 5, 6, 32] ++ List.replicate 8 0) 0 keyRd fun p s => usable s p (.classA 127) .mka && !s.pathLost (home s 0)
      && (tget s.vlt.sess 5).isNone && (tget s.vlt.sess 6).isNone,
    ok i ([3, 236 * 256 + 3] ++ List.replicate 59 0) 0 keyRd fun p s => usable s p (.sess 3) .icv,
    ok i [3, 256, 0] 0 keyRd fun p s => usable s p (.sess 3) .icv && decide (p.len = 2 + (1 + 3) / 4)]).all id = true := by decide +kernel

/-- An SA of SL names session key 4. -/
def keyUsed : State := { keyRd with sl := { keyRd.sl with sas := [(9, { r := { keyRef := 4 } })] } }

theorem witness_KeyEnds : (let m := row 0x0E5 2 2 (hold := true) (iron := true); let x := row 0x12B 1 1 (close := true) (hold := true) (iron := true); [
    ok m [4095, 2 ^ 23 + 1] 0 keyRd fun p s => keyOk s p (.classA 1) .memory && (tget s.vlt.slots 4095).isNone && !s.pathLost .sl && !s.pathLost .sr,
    ok x [4] 0 keyRd fun _ s => (tget s.vlt.sess 4).isSome && !(took s 0).keyInUse 4 && (List.finRange 8).all fun c => s.chans[c].waiting.isNone,
    ok x [4] 0 keyUsed fun _ s => (tget s.vlt.sess 4).isSome && (took s 0).keyInUse 4,
    ok x [2 ^ 22 + 9] 0 keyRd fun p s => (tget s.vlt.slots 9).isSome && !p.force,
    ok (row 0x125 1 1 (close := true) (hold := true) (iron := true)) [127] 0 keyRd fun p s => (s.vlt.keyAt (.classA 127)).isSome && !p.force]).all id
      = true := by decide +kernel

/-- A blob of Class A key 127, version 0, as the vault wraps it under a WKR of zeros. -/
def blobRd : State := { rd with vlt := { rd.vlt with
  keys := { ret := some (List.replicate 16 0), wkr := some (List.replicate 32 0), attest := some 1, trans := some 2 } } }

/-- Its words: head, attributes, and the AES key wrap (RFC 3394, computed outside the model) of these with a key of bytes 05 and a
salt of zeros. -/
def blobWs : List Nat :=
  [8323073, 0, 0, 4161409, 65535, 0, 0, 1699980611, 3493966406, 566557106, 4066124039, 2277408834, 1477801394, 3650128301]
    ++ [175900187, 3025922468, 3221391316, 764760989, 3002450781, 1443482648, 115162496, 430226880, 85420695, 224272567, 1762311715]
    ++ [2068164782, 2922525617]

theorem witness_KeyBlobs : (let o := row 0x124 27 27 (hold := true) (iron := true); let i := row 0x12C 1 1
    let had : State := { rd with vlt := { rd.vlt with sram := [(0x200 + 8 * 127, 1)] } }; [
    ok o blobWs 0 blobRd fun p s =>
      let b := wordsAt p.words 2 27
      let a := KeyAttr.ofWords b 3
      (match kwUnwrap (s.vlt.keys.wkr.getD []) (wordsToBytes (wordsAt b 7 20)) with
        | some m => decide (m.take 28 = wordsToBytes (b.take 7))
        | none => false)
      && !a.clsB && decide (wordsNat (wordsAt b 1 2) = s.vlt.version (fld (wordAt b 0) 22 16)) && a.lcAllowed.testBit (s.vlt.lcCode - 1)
      && (s.vlt.cellOf (fld (wordAt b 0) 22 16)).isNone && s.vlt.freeCell.isSome && !s.pathLost (home s 0),
    ok i [2 ^ 23 + 127] 0 keyRd fun _ s => (s.vlt.keyAt (.classA 127)).isSome && !s.bad ((KLoc.classA 127).ent (home s 0)),
    ok i [2 ^ 23 + 127] 0 had fun _ s => (s.vlt.keyAt (.classA 127)).isNone && decide (s.vlt.version 127 ≠ 0),
    ok (row 0x120 0 0) [] 0 blobRd fun _ s => s.vlt.keys.trans.isSome && s.vlt.keys.attest.isSome]).all id = true := by decide +kernel

/-- A block in a life-cycle state, with a rail. -/
def lcRd (lc : Nat) : State := { rd with vlt := { rd.vlt with lcCode := lc } }

/-- The clauses of KUM_PART and OWNER_ENROL. Those of a whole KUM ask for a signature over the device's DID, which the model
leaves free, so no closed term meets them (NOTES.md). -/
theorem witness_KumUpdates : [
    ok (row 0x121 1 62) (43 :: List.replicate 61 7) 0 rd fun p _ => decide (43 + 61 ≤ 104 ∧ p.len = 61 + 1),
    ok (row 0x121 1 62) [104],
    ok (row 0x123 12 12 (hold := true)) (List.replicate 12 7) 0 (lcRd 3) fun _ s => s.vlt.burn.isNone && !s.pathLost (home s 0)
      && decide (s.vlt.lcCode = 3 ∧ s.vlt.owner[(0 : Fin 4)] = none) && s.fuseOk].all id = true := by decide +kernel

/-- A move being burnt. -/
def burning (copy : Nat) : State := { rd with vlt := { rd.vlt with burn := some { bit := 1, copy := copy } } }

theorem witness_LifeCycleMoves : (let o := row 0x145 1 1 (hold := true); let r := row 0x146 0 0 (hold := true)
    let idle (s : State) : Bool := s.vlt.burn.isNone && !s.pathLost (home s 0); [
    ok o [3] 0 rd fun _ s => idle s && decide (s.vlt.moveBit 3 = some (1, false)) && s.fuseOk,
    ok o [3] 0 { rd with pwr := { rd.pwr with fuseVpp := false } } fun _ s => idle s && decide (s.vlt.moveBit 3 = some (1, false)) && !s.fuseOk,
    ok o [255] 0 rd fun _ s => idle s && (s.vlt.moveBit 255).isNone,
    ok r [] 0 (lcRd 3) fun _ s => idle s && s.fuseOk && decide (s.boot.phase = .ready),
    ok r [] 0 { rd with boot := { phase := .held .epochExhausted } } fun _ s => idle s && s.fuseOk,
    decide ((burning 1).fuseOk) && (burning 2).vlt.burn.isSome, !rd.vlt.ironHeld,
    (List.finRange 8).all fun c => (burning 1).chans[c].head.isNone, rd.cutHashes.vlt.burn.isNone, decide ((burning 1).cutHashes.vlt.burn = some { bit := 1, copy := 1 })]).all id = true := by decide +kernel

theorem witness_Attestation : (let o := row 0x12D 6 6 (hold := true) (iron := true)
    let st (lc : Nat) : State := { keyRd with vlt := { keyRd.vlt with lcCode := lc, sram := [(8, 1)] } }
    let may (s : State) : Bool := !s.pathLost (home s 0) && s.vlt.drbgOk; [
    ok o [2, 0, 1, 2, 3, 4] 0 (st 2) fun _ s => may s,
    ok o [1, 2 ^ 23 + 127, 1, 2, 3, 4] 0 (st 2) fun p s => may s && !s.isSpilled (home s 0) (.classA 127) && match (took s 0).attestKey (ctx0 s 0 p) (.classA 127) with
      | (.ok _, u) => u.vlt.drbgOk
      | _ => false,
    ok o [3, 0, 1, 2, 3, 4] 0 (st 4) fun _ s => may s && decide (s.vlt.prev ≠ 0 ∧ s.vlt.prev ≠ s.vlt.ctx),
    ok o [1, 0, 1, 2, 3, 4] 0 (st 6) fun _ s => may s && decide (s.vlt.lcCode = 6),
    ok (row 0x12E 0 0) [] 0 (rd.modChan 0 fun c => { c with stmt := List.replicate 68 0 }) fun _ s => decide (62 < s.chans[(0 : Fin 8)].stmt.length),
    ok (row 0x12E 0 0) [] 0 rd fun _ s => decide (s.chans[(0 : Fin 8)].stmt.length ≤ 62)]).all id = true := by decide +kernel

/-- The clauses of the boot commands but IMAGE_GO of an image that passes, whose public key must have a hash that the model leaves
free (NOTES.md). -/
theorem witness_BootCommands : (let held : State := { rd with boot := { phase := .held .tamperAtBoot } }; [
    ok (row 0x140 0 0) [] 0 held, ok (row 0x140 0 0) [] 0 rom, ok (row 0x140 0 0) [],
    ok (row 0x141 1 1) [0] 0 held fun _ s => !s.pathLost (home s 0), ok (row 0x141 1 1) [1] 0 rom,
    ok (row 0x142 1 62) ((imageMax - 61) :: List.replicate 61 0) 0 rom fun p s => ((ctx0 s 0 p).imagePart s.boot.image).isSome,
    ok (row 0x143 0 0) [] 0 rom fun _ s => !imageOk s.boot.image s.vlt.lcCode,
    ok (row 0x144 0 0) []]).all id = true := by decide +kernel

/-- TAMPER_SET words at their lowest. -/
def setWs (zr : Nat) : List Nat := (2 ^ 8 + 100 * 2 ^ 16 + zr) :: List.replicate 9 0

theorem witness_TamperCommands : (let o := row 0x147 10 10; let r := row 0x149 0 0
    let svc : State := { memRd with vlt := { memRd.vlt with lcCode := 4, sram := [(0xF00, 1)] } }
    let heldBy (c : Nat) : State := { rd with vlt := { rd.vlt with hold := true, rt := 1000000, cond := rd.vlt.cond.set 0 c, setNow := [0, 2 * 85] } }; [
    ok o (setWs 0) 0 memRd fun p s => settingsOk (wordsAt p.words 2 10) && s.vlt.keys.ret.isSome && decide (s.vlt.lcCode ≠ 4),
    ok o (setWs 0) 0 svc fun p s => settingsOk (wordsAt p.words 2 10) && s.vlt.keys.ret.isSome && s.vlt.settingsLocked (wordsAt p.words 2 10),
    ok (row 0x148 0 0) [], ok r [] 0 rd fun _ s => !s.vlt.hold,
    ok r [] 0 (heldBy 0) fun _ s => s.vlt.hold && s.vlt.quiet 1000000,
    ok r [] 0 (heldBy 1) fun _ s => s.vlt.hold && !s.vlt.quiet 1000000]).all id = true := by decide +kernel

theorem witness_TimeReads : (let o := row 0x161 0 0 2; let t := row 0x164 1 1 2
    let off (x : Int) : State := { rd with sl := { rd.sl with prm := { theta := x } } }; [
    ok o [] 0 (off (2 ^ 31 - 1)) fun p s => decide (p.wings o (home s 0) = [.sl]), ok o [] 0 (off (-2 ^ 31)), ok o [] 0 (off (2 ^ 31)),
    ok t [7] 0 rd fun p s => decide (p.wings t (home s 0) = [.sl] ∧ cueWing 7 = .sl), ok t [8] 0 rd fun _ _ => decide (cueWing 8 ≠ .sl),
    ok (row 0x166 0 0 2) [] 1, ok (row 0x1C0 0 0) [] 0 rd fun _ s => s.reach (home s 0) (otherWing (home s 0)),
    ok (row 0x1C0 0 0) [] 0 parted fun _ s => !s.reach (home s 0) (otherWing (home s 0))]).all id = true := by decide +kernel

theorem witness_TimeEvents : (let p : Prompt := { lk.sl.prm with cfg := { clkHz := 10000000 } }
    let s : State := { lk with sl := { lk.sl with prm := p }, vlt := { lk.vlt with rt := 2000000000 } }
    let c (x : Cue) : State := s.modCue 7 fun _ => x; [
    s.todRuns .sl, decide (p.ppsRt = none ∧ p.cfg.clkHz ≠ 0 ∧ p.st = .locked ∧ p.armed = 0 ∧ p.usedRt + p.cfg.holdoverMs * 1000000 ≤ s.rt),
    decide (p.clkLost = false ∧ p.edgeRt + 10000 ≤ s.rt), decide (9999 * 1000 < p.cfg.clkHz ∧ p.cfg.clkHz ≤ 10000 * 1000), !({ p with cfg := { p.cfg with useLock := false } } : Prompt).cfg.useLock,
    decide (rd.sl.prm.st = .unset), p.cfg.useLock,
    (let x := c { mode := 1, next := some 0 }; x.timeRuns (cueWing 7) && decide (x.cues[(7 : Fin 16)].pulse = none ∧ 0 ≤ (x.wing (cueWing 7)).prm.t)),
    (c { mode := 1, pulse := some 0 }).timeRuns (cueWing 7)]).all id = true := by decide +kernel

/-- The clauses of R347 to R360; the count of SRAM banks is free, so kind 1 has no witness of its own. -/
theorem witness_RepairCommands : (let o := row 0x181 2 2 2; let t := row 0x183 1 1; let h := row 0x184 1 1
    let used : State := { rd with lanes := rd.lanes.map fun x => if x.st = .understudy then { x with st := .struck } else x }
    let back : State := { rd with sl := { rd.sl with link := .rejoinReady }, sr := { rd.sr with link := .rejoinReady } }
    let may (s : State) (n : Nat) : Bool := s.joined && decide (s.upd.step = 0 ∧ s.upd.hand = none)
      && (s.handTo n).all fun x => !(s.core x).struck && !(s.core x).lost && !(s.core x).reloading; [
    ok o [9, 0] 1 rd fun p s => decide (p.wings o (home s 0) = [.sr]), ok o [0, 13],
    ok (row 0x182 1 1) [13 * 16 + 2 ^ 16] 0 rd fun _ s => decide (13 < unitCount 0) && s.reach (home s 0) .sr,
    ok (row 0x182 1 1) [8] 0 rd fun _ _ => decide (0 < unitCount 8),
    ok t [27 * 16] 0 rd fun _ s => decide (s.lanes[(27 : Fin 28)].st ≠ .struck) && s.laneSpare 27 && s.reach (home s 0) (laneWing 27),
    ok t [13 * 16] 0 used fun _ s => decide (s.lanes[(13 : Fin 28)].st = .struck),
    ok t [0] 0 used fun _ s => decide (s.lanes[(0 : Fin 28)].st ≠ .struck) && !s.laneSpare 0,
    ok h [0] 0 rd fun _ s => may s 0 && !(took s 0).handIdle 0, ok h [2] 0 rd fun _ s => may s 2 && (took s 0).handIdle 2,
    ok (row 0x187 0 0) [] 0 rd fun _ s => s.joined,
    ok (row 0x187 0 0) [] 0 back fun _ s => decide (s.sl.link = .rejoinReady ∧ s.sr.link = .rejoinReady)]).all id = true := by decide +kernel

/-- A Script update at a step while CC-R loads. -/
def updAt (step : Nat) (rt : Nat) : State := { rd with
  upd := { step := step, hash := List.replicate 48 1 }
  vlt := { rd.vlt with rt := rt }
  cores := #v[{ running := true }, { running := true, reloading := true }] }

/-- An update whose image passes asks for a public key whose hash the model leaves free (NOTES.md); the rest is here. -/
theorem witness_ScriptUpdates : [
    ok (row 0x185 1 62) ((imageMax - 61) :: List.replicate 61 0) 0 rd fun p s => !s.updating && ((ctx0 s 0 p).imagePart s.upd.image).isSome,
    ok (row 0x186 0 0) [] 0 rd fun _ s => !s.updating && s.joined && decide (s.upd.hand = none) && !imageOk s.upd.image s.vlt.lcCode
      && !(s.core .l).struck && !(s.core .l).lost && !(s.core .r).struck && !(s.core .r).lost,
    (updAt 3 0).running && (updAt 3 0).joined && decide ((updAt 3 0).loadingCore = some .r ∧ (updAt 3 0).upd.hash ≠ [])
      && !((updAt 3 0).core .l).struck && !((updAt 3 0).core .l).lost,
    (updAt 5 0).running && decide ((updAt 5 0).loadingCore = some .r),
    decide (((updAt 3 32000000).core .r).reloadAt + 32000000 ≤ (updAt 3 32000000).rt)].all id = true := by decide +kernel

/-- SL's logger in a state, in a life-cycle state. -/
def rhlIs (r : Rhl) (lc : Nat := 5) : State := { fieldSvc with sl := { rd.sl with rhl := r }, vlt := { rd.vlt with lcCode := lc } }

/-- Whether an image in memory holds is a free value: its bytes are. -/
theorem witness_Rehearsal : (let e := row 0x1A2 2 2 2; let r := row 0x1A3 4 4; let m := row 0x1A4 0 0 1
    let byp : State := { rd with vlt := { rd.vlt with lcCode := 5 }, regions := rd.regions.set 0 { st := .active, d := { last := 8191 } } }; [
    ok e [0, 0] 0 (rhlIs { st := .frozen, held := true, targetDid := [1], targetReady := true }) fun _ s => s.sl.rhl.held && s.sl.rhl.targetReady,
    ok e [0, 0] 0 rd fun _ s => decide (s.vlt.lcCode ≠ 5),
    ok r [0, 4096, 0, 4096] 0 byp fun _ s => s.inBypass .sl 4096 4096 && s.reach (home s 0) .sl && !s.wingOpen .sl && !s.sl.rhl.busy,
    ok m [] 0 (rhlIs { st := .frozen, cfg := { record := true } }) fun p s => decide (p.wings m (home s 0) = [.sl]) && (took s 0).recordOk .sl,
    ok m [] 0 rd fun _ s => decide (s.sl.rhl.st ≠ .frozen),
    (let x := (rhlIs { st := .snapshot, spillCap := 12289 }).sl.rhl; x.full.isEmpty && x.afterSnap.isNone),
    decide ((rhlIs { st := .snapshot, afterSnap := some 1 }).sl.rhl.afterSnap = some 1),
    (let full : Rhl := { st := .record, spillCap := 1, full := [{ seq := 0, rt0 := 0, before := 0 }] };
      let got (st : Nat) : State := { rhlIs full with sr := { rd.sr with ownres := [(.block .sl 0, st, [])] }, sl := { rd.sl with rhl := full, ownres := [(.block .sl 0, st, [])] } };
      let x := (rhlIs full).sl.rhl;
      decide (x.spilled.length < x.spillCap) && !x.full.isEmpty && [0, 1].all fun st =>
        decide ((got st).ownGot (got st).regions[((got st).spill.getD 0)].d.owner (.block .sl 0) = some (st, []))),
    (unitOf (27 * 16)).isSome && (unitOf 3).isNone && isOutput 0x0A [1] && isOutput 0x02 [0, 2] && !isOutput 0x02 [0, 0],
    decide ((rhlIs { st := .replaying }).sl.rhl.st = .replaying),
    decide ((rhlIs { st := .trace, post := some 0 }).sl.rhl.post = some 0)]).all id = true := by decide +kernel

/-- A master of group 0 in world 0. -/
def m0 : CpAcc := { mid := 255, world := false }

/-- `Admits` as a test. -/
def adm (s : State) (a : CpAcc) (off : Nat) : Bool := s.cpTakes && !((guardOf off).elim s (fun n => s.ownParity a n)).cpRefused a off

theorem adm_iff (s : State) (a : CpAcc) (off : Nat) :
    adm s a off = true ↔ Admits s ((guardOf off).elim s (fun n => s.ownParity a n)) a off := by
  simp [adm, Admits]

theorem witness_MailboxHandshake : (let busy : State := rd.modChan 7 fun c => { c with reqBusy := true }
    let has (p : Place) (v : Bool) : State := rd.modChan 7 fun c => { c with queue := [p], rspValid := v }
    let done := has { rq 0 [] with phase := .answered .ok [] } false
    let unknown := has (rq 0x3FF []) true; [
    adm rd m0 (chanOff 7 0x200), adm busy m0 (chanOff 7 0x200),
    busy.cpUp && busy.isReady && decide (busy.chans[(7 : Fin 8)].queue.length < 8) && !busy.unserved (busy.chans[(7 : Fin 8)].mapWing),
    (let s : State := { busy with sr := { busy.sr with headless := true } }; s.unserved (s.chans[(7 : Fin 8)].mapWing)),
    done.cpUp && decide (done.chans[(7 : Fin 8)].head = none),
    decide (unknown.chans[(7 : Fin 8)].head = some (rq 0x3FF [])) && !catalogue.contains (rq 0x3FF []).op && unknown.canServe 7,
    adm done m0 (chanOff 7 0x208), adm (has { rq 0 [] with phase := .answered .ok [] } true) m0 (chanOff 7 0x208)]).all id = true := by
  decide +kernel

theorem witness_ControlPort : (let zs (k : Nat) : State := { rd with sys := { rd.sys with zStep := k, zMid := 255 } }
    let shut : State := rd.modChan 0 fun c => { c with ownGroup := 15 }
    let off : State := { rd with sys := { rd.sys with zEn := false } }; [
    adm rd m0 0x40 && !ownRow 0x40, adm rd m0 0x2FFC && !ownRow 0x2FFC,
    shut.cpUp && !adm shut m0 0x40, adm rd m0 (cbdOff .sr 0x04), adm rd m0 (cbdOff .sl 0x20),
    decide ((rd.sr.cbd.head - 0xF000#16).toNat ≤ 4096 ∧ 4096 < (rd.sr.cbd.head - 0xEFFF#16).toNat),
    adm (zs 0) m0 0x104 && (zs 0).zEnabled, adm (zs 1) m0 0x104 && (zs 1).zEnabled, adm (zs 2) m0 0x108 && (zs 2).zEnabled,
    adm (zs 0) m0 0x108, adm (zs 1) m0 0x108 && (zs 1).zEnabled, adm (zs 2) m0 0x104, decide ((zs 2).sys.zMid ≠ 254 ∧ 256 < 257), (zs 1).cpUp && decide ((zs 1).sys.zStep ≠ 0), adm off m0 0x104 && !off.zEnabled,
    rd.sys.lock || decide (rd.vlt.lcCode ≠ 4), ({ rd with sys := { rd.sys with lock := true } } : State).sys.lock,
    (rd.modChan 7 fun c => { c with reqBusy := true }).chans[(7 : Fin 8)].reqBusy]).all id = true := by
  decide +kernel

theorem witness_TestPort : [decide ((lcRd 1).vlt.lcCode = 1) && (lcRd 1).cpUp, decide (rd.vlt.lcCode ≠ 1) && rd.cpUp && !rd.pwr.trst, !State.reset.cpUp,
    ({ rd with pwr := { rd.pwr with trst := true } } : State).pwr.trst].all id = true := by decide +kernel

/-- Port 63 open with credits, in a wing that has started. -/
def flow (f : Port → Port := id) : State :=
  let s := portSt 63 .opened
  { s.modPort 63 fun x => f { x with hsIHeld := 384, lsIHeld := 384, hsOCred := 100, lsOCred := 100 } with
    sl := { s.sl with ready := true }, sr := { s.sr with ready := true } }

/-- A frame of a length with as many bytes. -/
def hsLen (k : Nat) (n : Nat) (eof : Bool) : HsFrame := { hsF with len := BitVec.ofNat _ k, data := List.replicate n 0, eof := eof }

theorem witness_FrameArrivals : (let x := (flow).ports[(63 : Fin 64)]; [
    (flow).cpUp && !x.sideGone false && !x.sideGone true && decide (x.st = .opened ∧ x.sp.mtu = 1522) && (flow).flowing (portWing 63) && !x.hsIFail && !x.lsIFail,
    decide (cells (hsLen 1522 1522 true).len.toNat ≤ x.hsIHeld ∧ ((hsLen 1522 1522 true).data.length + 15) / 16 = (1522 + 15) / 16),
    decide (cells (hsLen 1 1 true).len.toNat ≤ x.hsIHeld), decide (cells (hsLen 1523 1523 true).len.toNat ≤ x.hsIHeld),
    decide (((hsLen 64 48 false).data.length + 15) / 16 < (64 + 15) / 16),
    (let y := (flow fun x => { x with hsIHeld := 0 }).ports[(63 : Fin 64)]; decide (y.hsIHeld < cells 1) && !y.sideGone false),
    rd.ports[(63 : Fin 64)].hsRst && rd.ports[(63 : Fin 64)].lsRst]).all id = true := by
  decide +kernel

/-- Memory port 3 out of reset. -/
def memPort : State := { rd with mps := rd.mps.set 3 { rst := false } }

theorem witness_PortSignals : (let x := (flow).ports[(63 : Fin 64)]; [
    (flow).cpUp && !x.sideGone false && !x.sideGone true && decide (x.hsOCred < 1023 ∧ x.lsOCred < 1023) && !(flow).rhlPort 63,
    (let y := (flow fun x => { x with hsOCred := 1023, lsOCred := 1023, lsOExcess := 1024 }).ports[(63 : Fin 64)];
      decide (1023 ≤ y.hsOCred ∧ 1023 ≤ y.lsOCred ∧ y.lsOExcess % 1024 = 0 ∧ (y.hsOExcess + 1) % 1024 ≠ 0)),
    rd.mps[(3 : Fin 4)].rst, (memPort).cpUp && !(memPort).mps[(3 : Fin 4)].rst && !(memPort).mps[(3 : Fin 4)].clkLost,
    (let x : Power := { rd.pwr with cpRst := true, todRstSl := true, todRstSr := true, trst := true }; x.cpRst && x.todRstSl && x.todRstSr && x.trst),
    (flow).cpUp && (flow).sideRst (.hs 63) = false && (flow).sideRst (.ls 63) = false && (flow).sideOpen (.ls 63) && !(flow).sideOpen (.hs 0),
    (rqpSt .opened).cpUp && decide ((rqpSt .opened).rqps[(3 : Fin 4)].st ≠ .closed), rd.sideRst (.hs 0), !(flow).sideRst (.hs 63), decide ((flow fun x => { x with hsOCred := 1022 }).ports[(63 : Fin 64)].hsOCred < 1023),
    (flow).cpUp && !(flow).sideRst (.hs 63) && decide (x.st ≠ .closed), (portSt 63 .closed).cpUp && !(portSt 63 .closed).sideOpen (.ls 63),
    (portSt 63 .closed).sideRst (.cp) = false && !(portSt 63 .closed).sideOpen (.tod .sr),
    rd.ports[(0 : Fin 64)].hsRst && rd.ports[(0 : Fin 64)].lsRst && rd.rqps[(3 : Fin 4)].rst]).all id = true := by decide +kernel

/-- A session key that fits an SA record and whose reading leaves the state as it is. -/
def saKeyOk (s : State) (w : Wing) (r : SaRec) : Bool :=
  match s.saKey w r with
  | (some k, t) => decide (t = s) && !k.ended s.rt
  | _ => false

/-- An Ethernet frame of 64 zero bytes. -/
def fr : Bytes := List.replicate 64 0

/-- A staged outbound frame of port 0. -/
def outFr (sai : Option Nat) (ks : Option (Nat × Nat)) (ltime : Option Nat := none) : OutFrame :=
  { id := 1, bytes := fr, sai := sai, cls := 0, side := 0, saiIn := 0xFFFFF, curtain := false, ltime := ltime, epoch := 1, arr := {},
    resIn := 0, ks := ks, admRt := 0 }

/-- An inbound frame of port 0. -/
def inFr (b : Bytes) (sai : Option Nat) (held : Bool := false) : InFrame :=
  { id := 1, bytes := b, sai := sai, pn := 1, cls := 0, kind := 0, held := held, arr := {}, resIn := 0, admRt := 0 }

/-- An SA of SL that seals. -/
def saSeal : SaRec := { portEn := 1, keyRef := 7, conf := true }

/-- A frame as the SA seals it under number 1. -/
def sealedFr : Bytes := sealFrame saSeal (ky 1) 1 (macsecOut saSeal 1 fr)

/-- Port 0 open with a staged and an inbound frame, SA 9 of SL in a state. -/
def frames (out : List OutFrame) (inb : List InFrame) (x : Sa := { r := saSeal, pn := 1 }) : State :=
  (saHas [(9, x)]).modPort 0 fun p => { p with st := .opened, hsRst := false, lsRst := false, lsOCred := 100, hsOCred := 100,
                                               staging := out, inbound := inb }

theorem witness_FrameMoves : (
    let rel (s : State) (f : OutFrame) : Bool := decide (s.ports[(0 : Fin 64)].staging.find? (fun f => f.id = 1) = some f)
      && !s.ports[(0 : Fin 64)].absent && s.mayRelease 0 f
      && !(f.ltime.any fun t => decide (t + s.ports[(0 : Fin 64)].sp.launchTol * 2 ^ 32 < (s.wing .sl).prm.t))
      && decide (cells 81 ≤ s.ports[(0 : Fin 64)].lsOCred)
    let chk (s : State) (f : InFrame) : Bool := decide (s.ports[(0 : Fin 64)].inbound.find? (fun f => f.id = 1) = some f) && !f.wait
      && s.itemDone (.inb 0 1) && !s.ports[(0 : Fin 64)].inBehind f && s.ports[(0 : Fin 64)].mayDeliver f f.bytes.length
      && !s.ports[(0 : Fin 64)].absent
    let bound := frames [outFr (some 9) (some (9, 1))] []
    let late : State := { bound with sl := { bound.sl with prm := { t := 2000 * 2 ^ 32 } } }
    let inb (f : InFrame) : State := frames [] [f] { r := { saSeal with inb := true } }
    let got (st : Nat) (f : State → Nat → Bool) : Bool :=
      let s := frames [] [] { r := saSeal, resident := false }
      let s : State := { s with sl := { s.sl with ownres := [(.saRead 9, st, [])] } }
      (s.sa .sl 9).any fun x => !x.resident && !x.gone && decide (s.ownGot .sl (.saRead 9) = some (st, [])) && f s (fld x.r.keyRef 19 0); [
    rel (frames [outFr none none] []) (outFr none none),
    rel bound (outFr (some 9) (some (9, 1))) && (bound.sa .sl 9).any (fun x => x.canBind && !x.gone && x.resident && x.r.portEn.testBit 0 && saKeyOk bound .sl x.r
      && (outForm x.r bound.sl.meshEtype x.pn fr).any fun o => decide (o.length ≤ 16383)) && !bound.bad (.sa .sl 9),
    chk (inb (inFr fr none)) (inFr fr none),
    (let s := inb (inFr sealedFr (some 9)); chk s (inFr sealedFr (some 9)) && (s.sa .sl 9).any fun x => saKeyOk s .sl x.r
      && match openFrame x.r (ky 1) 1 sealedFr with
        | .ok b _ => s.ports[(0 : Fin 64)].mayDeliver (inFr sealedFr (some 9)) b.length
        | _ => false),
    (let s := inb (inFr fr (some 9)); chk s (inFr fr (some 9)) && (s.sa .sl 9).any fun x => saKeyOk s .sl x.r
      && decide (openFrame x.r (ky 1) 1 fr = .badTag)
      && s.ports[(0 : Fin 64)].mayDeliver (inFr fr (some 9)) (openedBytes x.r (ky 1) 1 fr).length),
    (let s := inb (inFr fr (some 9) true); chk s (inFr fr (some 9) true) && (s.sa .sl 9).any fun x => saKeyOk s .sl x.r
      && decide (openFrame x.r (ky 1) 1 fr = .badTag)),
    got 0 fun s j => !((s.takeKey .sl j).sa .sl 9).any Sa.keyGone && !((s.takeKey .sl j).wing .sl).kspill.contains j,
    got 2 fun _ _ => true, got 5 fun _ _ => true,
    decide (0 + late.ports[(0 : Fin 64)].sp.launchTol * 2 ^ 32 < (late.wing .sl).prm.t),
    (let s : State := { (portSt 0 .opened).modPort 0 fun x => { x with hold := true, staging := [outFr none none] } with vlt := { rd.vlt with rt := 1000000 } }
     let x := s.ports[(0 : Fin 64)]
     s.cpUp && x.hold && !x.holdSpent && decide (x.holdSince + x.sp.holdLimit * 1000 ≤ s.rt ∧ x.staging.length = 1))]).all id = true := by decide +kernel

/-- A window of 1,024 whose TOP is 5 and which holds 3. -/
def winSa : Sa := { r := { inb := true, replay := true, window := 1024 }, pn := 5, recv := [3] }

theorem witness_ReplayWindow : [winSa.r.replay, decide (winSa.r.window ≤ 1024 ∧ 3 ≤ winSa.pn), winSa.received 3].all id = true := by decide +kernel

/-- SL's insertion arbiter with a request of MBX0. -/
def boxAsk (r : BoxReq) : State :=
  let s := on rd { rq 0x080 [] with phase := .running .box }
  { s with sl := { s.sl with box := { s.sl.box with reqs := [r] } } }

theorem witness_Timers : (let e : BoxEnt := { ktype := 1, state := 1, port := 0, key := List.replicate 20 0 }
    let f : GFrame := { handle := 1, reason := 1, inb := true, port := 0, cls := 0, bytes := fr, sai := 0xFFFFF, tag := 0, arr := {}, queue := 0 }
    let grq (g : Grq) : State := { rd with sl := { rd.sl with grq := g }, vlt := { rd.vlt with rt := 2000000 } }
    let full : State := boxAsk (.command 0 e)
    let x := (boxAsk (.command 0 e)).modBox .sl fun b => { b with reqs := [] }
    let taken : State := x.modBox .sl fun b =>
      { b with slots := (b.places 1 e.key ++ b.places 1 [1]).foldl (fun t n => tput t n { e with key := [1] }) [] }; [
    (x.boxInstall .sl e).1.isSome, decide ((x.boxInstall .sl e).2.chans[(0 : Fin 8)].waiting = some .box), (taken.boxInstall .sl e).1.isNone, !full.sl.box.reqs.isEmpty,
    !(boxAsk (.learned 1 [] {} f)).sl.box.reqs.isEmpty,
    (let s : State := { rd with sl := { rd.sl with box := { slots := [(131087, e)] } }, vlt := { rd.vlt with rt := 10000000001 } }
     (tget s.sl.box.slots 131087).isSome && decide (e.at' + s.sl.unkeyedTtl * 1000000000 < s.rt)),
    (let s := grq { frames := [f] }; (s.sl.grq.frames.find? (fun f => f.handle = 1)).any fun f => decide (f.admRt + s.sl.grq.timeout[(0 : Fin 3)] * 1000 ≤ s.rt)),
    (let s := grq { sumFull := #v[0, 1, 0] }; decide (s.sl.grq.sumAt = none ∧ s.sl.grq.sumFull[1] + s.sl.grq.sumTo[1] ≠ 0)),
    (let s := grq { sumFull := #v[7, 0, 1], sumAt := some 1000001 }; decide (s.sl.grq.sumAt = some 1000001 ∧ s.rt < 1000001 + 1000000)),
    (let s := grq { sumFull := #v[7, 0, 1], sumAt := some 1000000 }; decide (1000000 + 1000000 ≤ s.rt) && ((List.finRange 3).filter fun q => s.sl.grq.sumFull[q] + s.sl.grq.sumTo[q] ≠ 0).length = 2),
    ((List.finRange 3).filter fun q => (grq {}).sl.grq.sumFull[q] + (grq {}).sl.grq.sumTo[q] ≠ 0).isEmpty, decide (rd.sl.ush.msDropped = 0),
    decide (({ full with chans := rd.chans } : State).chans[(0 : Fin 8)].waiting ≠ some .box),
    (let s : State := { ushIs { msDropped := 1 } with vlt := { rd.vlt with rt := 1000000 } }; decide (s.sl.ush.msDropped ≠ 0 ∧ s.sl.ush.msEnd ≤ s.rt))]).all id
      = true := by decide +kernel

theorem witness_Timers_leases : (let g : Sa := { r := { saSeal with groupPn := true, pn64 := true, overlapMs := 60000 }, leaseAsk := some 0, overlapAt := some 0 }
    let s : State := { saHas [(9, g)] with vlt := { memRd.vlt with rt := 60000000000 } }; [
    (s.sa .sl 9).isSome && !s.pathLost .sl && s.vlt.keys.ret.isSome && (s.vlt.leaseIx 9).isNone && s.vlt.leaseFree.isSome && decide (1 ≤ g.r.lastPn),
    (let v := s.vlt.setLease 63 9 true 65537; decide (v.leaseIx 9 = some 63) && (v.lease 63).isSome),
    decide (0 + 1000000000 ≤ s.rt), decide (g.st = .active ∧ 0 + g.r.overlapMs * 1000000 ≤ s.rt)]).all id = true := by decide +kernel

/-- Request port 0 open over a plain region 0 and an AUTHENTICATED region 1 under slot 5. -/
def memUp (accs : List Access := []) (f : RqPort → RqPort := id) : State :=
  let s : State := { memRd with sl := { memRd.sl with ready := true } }
  { s with
    rqps := s.rqps.set 0 (f { st := .opened, rst := false, accs := accs })
    mps := s.mps.set 0 { rst := false }
    regions := (s.regions.set 0 { st := .active, d := { last := 4095 } }).set 1
      { st := .active, d := { mode := 2, base := 4096, last := 8191, ctrBase := 0x10000, treeBase := 0x20000, tagBase := 0x30000, treeKey := 2 ^ 22 + 5 } } }

/-- A request of an address. -/
def rqA (addr : Nat) (curtain : Nat := 0) (mid : Nat := 0) : AReq :=
  { addr := BitVec.ofNat 40 addr, op := 0, len := 3, mid := BitVec.ofNat 8 mid, world := false, kix := 0, cls := 3,
    curtain := BitVec.ofNat 2 curtain, tid := 127 }

theorem witness_MemoryRequests : (let s := memUp
    let t (s : State) (r : AReq) (op : Nat) : State := requested s 0 r op
    let dec (s : State) (r : AReq) (op : Nat) : List UDec :=
      (t s r op).usherLines .sl r.mid.toNat r.world (decide (op = 1)) r.kix.toNat ((List.range 4).map (r.addr.toNat + 64 * ·))
    let shut : State := { s with sl := { s.sl with ush := { force := { defs := [] , service := true } } } }; [
    s.ready4 0 && reqMalformed (rqA (4096 - 192)) 0, reqMalformed { rqA 0 with op := 3 } 3, !reqMalformed (rqA (4096 - 256)) 0 && !s.rqps[(0 : Fin 4)].tidBusy 127,
    (dec s (rqA 0) 0).all fun d => match d with
      | .grant _ _ => true
      | _ => false,
    (dec s (rqA 0) 1).length = 4, !reqMalformed (rqA 0 1) 2 && ((t s (rqA 0 1) 2).master .sl 0).valid, !s.laneFull .sl false,
    (let x : State := { s with sl := { s.sl with ush := { force := { mg := [(0, { valid := false })], service := true } } } }; !((t x (rqA 0 1) 2).master .sl 0).valid),
    (s.regionAt .sl 0).any fun g => decide (s.regions[g].d.mode = 0) && s.reach .sl s.regions[g].d.owner,
    (let x : State := { s with regions := s.regions.set 0 { st := .active, d := { last := 4095, owner := .sr } }, sl := { s.sl with link := .partitioned } }
     (x.regionAt .sl 0).any fun g => !x.reach .sl x.regions[g].d.owner),
    shut.ready4 0 && (dec shut (rqA 0) 1).all fun d => match d with
      | .grant _ _ => false
      | _ => true,
    (s.regionAt .sl 8192).isNone]).all id = true := by decide +kernel

/-- A read or write of line 0 of region 1. -/
def acc (op : Nat) (l : MLine) (curtain : Nat := 0) (seq : Nat := 0) : Access :=
  { tid := 127, op := op, mid := 0, world := false, kix := 0, cls := 0, clsIn := 0, curtain := curtain, gen := 0, seq := seq, region := some 1,
    lines := [l] }

theorem witness_MemoryPins : (let a := { acc 1 { addr := 4096, slot := some 5 } with alen := 3, wbeats := [(0, 0), (0, 0), (0, 0)] }
    let q (aid : Nat) (write : Bool) (u : MpLine := { use := .mline .sl 4096 }) : MpReq := { aid := aid, addr := 4096, write := write, cls := 0, lines := [u] }
    let d : MpLine := { use := .data 0 127 0 0 }
    let mp (aq out : List MpReq) : State := { memUp with mps := (memUp).mps.set 0 { rst := false, aq := aq, out := out }, vlt := { rd.vlt with rt := 100000 } }; [
    (let s := memUp [a]; !s.rhlMem 0 && decide (s.rqps[(0 : Fin 4)].accs.find? (fun a => a.op = 1 ∧ !a.wdone) = some a ∧ s.access 0 0 = some a
      ∧ a.wbeats.length = a.alen)),
    (memUp [{ a with wdone := true }]).rqps[(0 : Fin 4)].accs.all fun a => a.op ≠ 1 || a.wdone,
    (mp [q 0 false] []).mps[(0 : Fin 4)].alive && decide ((mp [q 0 false] []).sl.rhl.st ≠ .record ∧ (mp [q 0 false] []).sl.rhl.cfg.rqpMask = 0),
    ((mp [] [q 255 false d]).mps[(0 : Fin 4)].out.find? (fun x => x.aid = 255 ∧ x.write = false)).any fun x => decide (x.got = 0 ∧ x.lines = [d]),
    ((mp [] [q 255 true d]).mps[(0 : Fin 4)].out.find? (fun x => x.aid = 255 ∧ x.write = true)).any fun x => decide (x.lines = [d]),
    (mp [] []).cpUp && (mp [] []).mps[(0 : Fin 4)].alive && !rd.mps[(0 : Fin 4)].alive, ((memUp [{ a with tid := 127, lines := [{ addr := 4096, slot := some 5, trig := true }] }]).access 0 0).any fun a => (a.lines[0]?).any (·.trig),
    ((mp [] [q 255 true]).mps[(0 : Fin 4)].out.find? (fun x => x.aid = 255 ∧ x.write = true)).isSome,
    ((mp [] [q 255 true]).mps[(0 : Fin 4)].out.find? (fun x => x.aid = 255 ∧ x.at' + (mp [] []).mps[(0 : Fin 4)].timeout * 1000 ≤ (mp [] []).rt)).isSome]).all id
      = true := by decide +kernel

theorem witness_LineChecks : (let key := List.replicate 16 0
    let good : MLine := { addr := 4096, slot := some 5, phase := .gotData, known := true, metaOk := true, tagged := true, cipher := 7, tag := dataTag key 5 4096 0 0 7 }
    let s (op : Nat) (l : MLine) : State := memUp [acc op l]
    let hasKey (s : State) : Bool := decide ((s.lineKey 1 (some 5)).1 = some key)
    let fix : State := { s 0 { good with tag := 0 } with regions := (memUp).regions.set 1 { (memUp).regions[1] with d := { (memUp).regions[1].d with repair := true } } }
    let at' (s : State) (f : Access → MLine → Bool) : Bool := (s.lineOf 0 127 0 f).isSome && s.itemDone (.mem 0 0 0); [
    at' (s 0 good) fun a l => a.op = 0 ∧ l.phase = .gotData ∧ l.known, ((s 0 good).checkLine 1 good key).2 && hasKey (s 0 good),
    at' (s 0 { good with tagged := false }) fun a l => a.op = 0 ∧ l.phase = .gotData ∧ l.known,
    at' (s 0 { good with metaOk := false }) fun a l => a.op = 0 ∧ l.phase = .gotData ∧ l.known,
    at' (s 0 { good with released := true }) fun a l => a.op = 0 ∧ l.phase = .gotData ∧ l.known,
    !((s 0 good).checkLine 1 { good with tag := 0 } key).2 && !(s 0 good).regions[(1 : Fin 64)].d.repair, fix.regions[(1 : Fin 64)].d.repair,
    at' (s 1 good) fun a l => a.op = 1 ∧ (l.phase = .repaired ∨ (l.phase = .gotData ∧ l.known)),
    at' (s 1 { good with phase := .repaired }) fun a l => a.op = 1 ∧ (l.phase = .repaired ∨ (l.phase = .gotData ∧ l.known)),
    at' (s 0 { good with phase := .repairing }) fun _ l => l.phase = .repairing,
    ((s 0 good).ctrLine 1 4096).isNone]).all id = true := by decide +kernel

theorem witness_MemoryCurtains : (let d : MLine := { addr := 4096, slot := some 5, phase := .done }
    let s (k : Nat) (v : List (Nat × Nat)) : State := memUp [acc 0 d 0 0, acc 1 d k 1] fun x => { x with vfails := v }
    let p : State := memUp [acc 0 d 0 0, { acc 1 d 3 1 with flush := some [] }]
    let late : State := memUp [acc 0 { d with phase := .waiting } 0 0, acc 1 d 1 1]; [
    ((s 1 []).curtainOf 0 127 1).any fun a => (s 1 []).rqps[(0 : Fin 4)].before a = [acc 0 d 0 0] && ((s 1 []).rqps[(0 : Fin 4)].before a).all ((s 1 []).accIssued 0),
    ((s 2 []).curtainOf 0 127 2).any fun a => ((s 2 []).rqps[(0 : Fin 4)].before a).all fun b => b.op ≠ 0 || b.lines.all (·.phase = .done),
    ((s 2 [(0, 0)]).curtainOf 0 127 2).any fun a => (s 2 [(0, 0)]).rqps[(0 : Fin 4)].vfails.any fun e => e.1 = a.mid ∧ e.2 < a.seq,
    ((p).curtainOf 0 127 3).any fun a => p.rqps[(0 : Fin 4)].writesDone a && decide (a.flush = some [] ∧ a.flushErr = false),
    (let lost : State := { memUp [acc 0 d 0 0, { acc 1 d 3 1 with flush := some [], flushErr := true }] with wear := [] };
      (lost.curtainOf 0 127 3).any fun a => a.flushErr && (p.curtainOf 0 127 3).any fun b => !p.flushLost p.rqps[(0 : Fin 4)] b),
    ((late).curtainOf 0 127 1).any fun a => (late.rqps[(0 : Fin 4)].before a).any fun b => !late.accIssued 0 b]).all id
      = true := by decide +kernel

theorem witness_MemoryEvents : (let e : Reenc := { page := 4096, region := 1, q := 0, tid := 127, seq := 0, slot := 5, mid := 3, cls := 0, clsLane := 0, need := [], got := [], draining := true }
    let re : State := { memUp with sl := { (memUp).sl with mpe := { reencs := [e] } } }
    let reg (f : Region → Region) : State := (memUp).modRegion 1 f
    let hold : State := { on (memUp [acc 0 { addr := 4096, slot := some 5 }]) { rq 0x104 [] with phase := .running (.ushCommit .sl false) } with
      sl := { (memUp).sl with ush := { hold := some 0, commitCh := some 0 } }, vlt := { memRd.vlt with rt := 1500 } }; [
    decide (re.reencOf .sl 4096 = some e) && !re.pageOut .sl 4096 && (re.access 0 0).isNone && decide ((re.ctrLine 1 4096).elim 0 majorOf < 2 ^ 64 - 1 ∧ e.writes = []),
    ({ e with failed := true } : Reenc).failed,
    (let s := reg fun x => { x with st := .init, initIx := 99 }; decide (s.initCount 1 ≤ s.regions[(1 : Fin 64)].initIx) && !s.initOut 1 && !s.regions[(1 : Fin 64)].d.pin),
    (let s := reg fun x => { x with st := .init, initIx := 99, d := { x.d with pin := true } }; decide (s.initCount 1 ≤ s.regions[(1 : Fin 64)].initIx) && !s.initOut 1 && s.regions[(1 : Fin 64)].d.pin),
    (let s := reg fun x => { x with fillIx := some 99, readyLate := true, d := { x.d with pin := true } }; decide (s.regions[(1 : Fin 64)].d.mlines ≤ 99) && s.regions[(1 : Fin 64)].readyLate),
    (let s := reg fun x => { x with fillIx := some 99, d := { x.d with pin := true } }; decide (s.regions[(1 : Fin 64)].d.mlines ≤ 99 ∧ s.regions[(1 : Fin 64)].pinWait = none) && !s.regions[(1 : Fin 64)].readyLate),
    (let s := reg fun x => { x with pinned := true }; !s.unflushed 1 && !s.regions[(1 : Fin 64)].d.pin && s.regions[(1 : Fin 64)].fillIx.isNone),
    (oldest (hold.undrained .sl)).isSome && !hold.sl.ush.drained && decide (hold.sl.ush.blocked = none ∧ 0 + 1500 ≤ hold.rt ∧ hold.chans[(0 : Fin 8)].waiting = some (.ushCommit .sl false))]).all id
      = true := by decide +kernel

theorem witness_VaultEvents : (let ends (n : Nat) : Key := { ky 1 with attr := { (ky 1).attr with expiryS := n } }
    let s : State := { memRd with vlt := { memRd.vlt with
      jq := [.roots [0, 1, 2, 3, 4, 5]]
      drbgOk := true
      rt := 1000000000
      sess := [(7, ends 1), (8, ends 2)]
      pathLostSl := true
      pathLostSr := true } }
    let k (n : Nat) (f : Key → Bool) : Bool := decide (kLoc (BitVec.ofNat 24 n).toNat = some (.sess n)) && (s.vlt.keyAt (.sess n)).any fun x => !x.spent && f x; [
    decide (s.vlt.rootsAsked.length ≤ 6) && !s.vlt.rootsAsked.isEmpty && s.pwr.vddv && s.vlt.keys.ret.isSome && s.cpUp && s.vlt.drbgOk,
    k 7 fun x => decide (x.at' + x.attr.expiryS * 1000000000 ≤ s.rt), k 8 fun x => decide (s.rt < x.at' + x.attr.expiryS * 1000000000),
    s.vlt.pathLostSl && s.vlt.pathLostSr && !s.sl.struck.contains (unitName 9 0 .sl),
    !rd.vlt.rtLive, ({ rd with sl := { rd.sl with struck := [unitName 9 0 .sl] } } : State).sl.struck.contains (unitName 9 0 .sl), s.pwr.vddc && decide (s.boot.phase = .ready), !rd.vlt.drbgOk]).all id = true := by decide +kernel

theorem witness_TamperEvents : (let late : State := { rd with vlt := { rd.vlt with vtimer := 1000, setNow := [2 ^ 8] } }
    let soon : State := { late with vlt := { late.vlt with vtimer := 999 } }; [
    rd.pwr.vddv && rd.pwr.vddh && decide (rd.vlt.chipN % 8 = 0), decide (late.vlt.chipAt + late.chipNs ≤ late.vlt.vtimer ∧ soon.vlt.vtimer < soon.vlt.chipAt + soon.chipNs), rd.vlt.lineOn 0 || !rd.vlt.lineOn 0, rd.vlt.lineOn 23,
    decide (rd.vlt.cond[(9 : Fin 10)] = 0) && rd.vlt.burn.isNone, decide ((rd.setCond 0 1).vlt.cond[(0 : Fin 10)] ≠ 0), rd.cpUp,
    Memory.wf rd.vlt.sram]).all id = true := by decide +kernel

theorem witness_PowerEvents : (let p (f : Power → Power) (v : Vault → Vault := id) : State := { rd with pwr := f rd.pwr, vlt := v rd.vlt }
    let off : State := { State.reset with pwr := { rd.pwr with vddc := false } }; [
    decide (rd.boot.phase ≠ .off) && rd.pwr.vddv && !rd.pwr.slpAck, !(p fun x => { x with vddv := false }).pwr.vddv,
    decide ((p id fun v => { v with vtimer := 50000 }).pwr.presentAt + 50000 ≤ 50000), State.reset.pwr.vddc && !State.reset.coreWatched, rd.coreWatched,
    rd.pwr.vddh && rd.vlt.burn.isNone, !off.pwr.vddc, decide ((p (fun x => { x with vddv := false }) fun v => { v with dip := some 7 }).vlt.dip = some 7),
    rd.cutHashes.vlt.burn.isNone && rd.cutHashes.pwr.vddv, rd.cpUp && !rd.pwr.coreRst && !rd.pwr.entering, (let s := p fun x => { x with entering := true }; s.pwr.entering && s.sleepQueues.sleepReady && !s.vlt.rtLive),
    ({ rd with vlt := { rd.vlt with rtLive := true } } : State).vlt.rtLive]).all id
      = true := by decide +kernel

theorem witness_StartUp : (let s : State := State.reset
    let lc := s.vlt.lc.map fun b => if b.any then LcBit.full else b
    let norail : State := { s with pwr := { s.pwr with fuseVpp := false } }; [
    decide (s.boot.phase = .off) && s.outOfHold && !s.pwr.slpAck && s.pwr.railOk && !(lc.any fun b => b.any && b != LcBit.full) && lcValid lc && decide (s.vlt.epoch < 256 ∧ ({ s with vlt := { s.vlt with epoch := 256 } } : State).vlt.sramLost = true), norail.outOfHold && !norail.pwr.railOk,
    (let hot : State := { s with vlt := { s.vlt with cond := s.vlt.cond.set 7 0xA, lc := s.vlt.lc.set 5 { c0 := true } } };
      !hot.fuseOk && hot.pwr.railOk && lcValid hot.vlt.lc && hot.vlt.lc.any fun b => b.any && b != LcBit.full),
    burnsEpoch (lcCodeOf ((lc.set 1 LcBit.full).set 2 LcBit.full)) && lcValid ((lc.set 1 LcBit.full).set 2 LcBit.full), !burnsEpoch (lcCodeOf lc),
    decide (rd.boot.phase ≠ .off), (let x : State := { s with pwr := { s.pwr with slpAck := true } }; x.pwr.coreRst && x.outOfHold),
    (let x : State := { s with pwr := { s.pwr with holdOver := false } }; !x.outOfHold && x.pwr.coreRst),
    !lcValid ((lc.set 0 {}).set 1 LcBit.full), (List.range 9).all fun i => !condOf i 0, ({ s with pwr := { s.pwr with slpAck := true, coreRst := false } } : State).pwr.slpAck, condOf 4 6, condOf 8 0xB,
    decide (({ rd with boot := { phase := .loading } } : State).boot.phase = .loading) && (List.finRange 28).all fun l => decide (rd.lanes[l].st ≠ .struck)]).all id
      = true := by decide +kernel

theorem witness_BridgeEvents : (let s (f : WingSt → WingSt) : State := { rd with sl := f rd.sl, vlt := { rd.vlt with rt := 20000 } }
    let core (c : Core) : State := { rd with cores := Vector.replicate 2 c, vlt := { rd.vlt with rt := 3000000 } }; [
    (s id).wingRuns .sl && decide ((s id).sl.link = .joined ∧ (s id).sl.lastTok + 20000 ≤ 20000), decide ((s fun x => { x with lastTok := 1 }).rt < 1 + 20000),
    (s fun x => { x with parTimes := List.replicate 15 1 }).sl.parTimes.length = 15, !rd.pathLost .sl && decide (rd.sr.link ≠ .farLost),
    (s id).tokSent .sl (.beacon 0) && (s id).tokSent .sl .work && decide ((1 : Nat) ≠ (s id).sr.link.code) && (s id).lentWork.isEmpty && (s id).crossLines.isEmpty,
    (let t : State := { rd with sr := { rd.sr with link := .partitioned } }; t.wingRuns .sl && decide (t.sl.link = .joined ∧ t.sr.link.code = 1)),
    (core { running := true, got := 2 }).core .l |>.able, !((core { running := true, lost := true }).core .r |>.able),
    (let t : State := { rd with sr := { rd.sr with link := .farLost } }; t.wingRuns .sr && !t.pathLost .sl),
    !(s fun x => { x with link := .partitioned }).markFresh .sr, decide ((s fun x => { x with link := .partitioned, lastTok := 1, farOk := true }).sl.tokRun + 20000 ≤ 20000),
    (core { running := true }).core .l |>.beating, (core { running := true, suspended := true }).core .l |>.suspended, (core { running := true, got := 3, armed := true, missed := 2 }).core .r |>.armed,
    decide (0 + 1000000 * (2 + 1) ≤ (core {}).rt)]).all id = true := by decide +kernel

theorem witness_RepairEvents : (let low : WearRec := { sampled := true, below := 3, margin := 399, mmin := 399, low := 399 }
    let nm := unitName 0 13 .sr
    let s : State := { rd with wear := [(nm, low)] }
    let due : State := { s with vlt := { rd.vlt with rt := 600000000000 } }
    let tst : State := { rd with lanes := rd.lanes.set 12 { st := .understudy, testing := true } }
    let copying : State := trieIs { copying := [(false, 0)] }; [
    s.pwr.awake && decide (s.boot.phase = .ready ∧ s.lanes[(27 : Fin 28)].st ≠ .struck) && !s.vlt.pathLostSl,
    !(s.lanes[(27 : Fin 28)].items.any fun i => i.wing ≠ laneWing 27), (let it : LItem := { of := .out 0 1, key := .sa 0, wing := .sl, cls := 0, cost := 4, left := 1 };
      let cut : State := { parted with lanes := rd.lanes.set 27 { st := .inService, items := [it] } };
      (cut.lanes[(27 : Fin 28)].items.any fun i => i.wing ≠ laneWing 27) && !cut.bridgeOk && cut.waitsBridge .sr && cut.waitsBridge .sl),
    (bankOf 20).isNone && !(bankOf 0).isNone,
    decide (monitored (.lane 27) = some (0, 13, .sr)) && decide (13 < unitCount 0),
    decide ((({} : WearRec).sample 65535 400).below < 4), decide (4 ≤ (low.sample 399 400).below) && s.laneSpare 27 && s.sr.wearCfg.autoStrike,
    !low.critical && !s.isStruck (.lane 27) && !s.isStruck (.trieStage .sl 14) && !s.vlt.pathLostSl, !({ rd with sr := { rd.sr with wearCfg := { autoStrike := false } } } : State).sr.wearCfg.autoStrike, decide (due.sr.wearAt + due.sr.wearCfg.period * 1000000000 ≤ due.rt ∧ nm / 2 ^ 16 % 2 = wingIx .sr ∧ low.low < due.sr.wearCfg.warn),
    decide ((tst.understudies .sl).find? (fun l => tst.lanes[l].testing && !tst.lanes[l].items.any tst.inRelease) = some 12), !tst.lanes[(12 : Fin 28)].closing,
    decide (copying.sl.trie.copying = [(false, 0)])]).all id = true := by decide +kernel

theorem witness_Closes : (let s : State := { (memUp).modPort 0 fun x => { x with st := .closing } with vlt := { memRd.vlt with rt := 10000000 } }
    let q : State := s.modRqp 0 fun x => { x with st := .closing }
    let busy : State := q.modRqp 0 fun x => { x with accs := [acc 0 { addr := 4096, slot := some 5 }] }
    let reg (s : State) : State := s.modRegion 1 fun x => { x with st := .closing }; [
    decide (s.ports[(0 : Fin 64)].st = .closing ∧ s.ports[(0 : Fin 64)].staging = [] ∧ s.ports[(0 : Fin 64)].readmit = []) && decide (s.ports[(0 : Fin 64)].closeAt + s.sl.saTimeout * 1000 ≤ s.rt),
    ((s.modPort 0 fun x => { x with inbound := [inFr fr none] }).ports[(0 : Fin 64)]).inbound.length = 1,
    decide (q.rqps[(0 : Fin 4)].st = .closing ∧ q.rqps[(0 : Fin 4)].accs = [] ∧ q.rqps[(0 : Fin 4)].dq = []), busy.rqps[(0 : Fin 4)].accs.any fun a => a.own.isNone,
    ({ q.rqps[(0 : Fin 4)] with dq := List.replicate 2 { tid := 0, kind := 0, status := 0, data := 0, verified := true, last := true } } : RqPort).dq.length = 2,
    !(reg s).regionBusy 1 && !(reg s).unflushed 1 && !(reg s).initOut 1, (reg busy).regionBusy 1, decide (0 < (reg s).regions[(1 : Fin 64)].closeAt + 10000000),
    ((saHas [(9, { saOut with st := .closing })]).sa .sl 9).isSome]).all id = true := by decide +kernel

theorem witness_TablesAndSram : [Tbl.wf [(1, 2), (3, 4)], Memory.wf [(0, 1), (5, 2)]].all id = true := by decide +kernel

theorem witness_JournalRecord : [Memory.wf memRd.vlt.sram, memRd.vlt.keys.ret.isSome, decide ((List.replicate 48 (0 : Byte)).length = 48)].all id = true := by
  decide +kernel

theorem witness_Responses : (let s := rdOn (rq 0 []); [
    decide (s.chans[(0 : Fin 8)].head = some (rq 0 [])) && s.canServe 0, decide ((rq 0 [] 0 0).seq = 0) && decide ((1 : Nat) ≠ 0),
    decide (rd.chans[(0 : Fin 8)].mapNext = none), (let t := s.modChan 0 fun c => { c with mapNext := some .sr }; decide (t.chans[(0 : Fin 8)].mapNext = some .sr ∧ t.chans[(0 : Fin 8)].queue.length = 1)),
    ((took (rdOn (rq 0x140 [1])) 0).refuses 0 (rq 0x140 [1]) (row 0x140 0 0)).isSome, decide (rd.chans[(0 : Fin 8)].head = none)]).all id = true := by
  decide +kernel

theorem witness_StepKeepsSram : [Memory.wf rd.vlt.sram, (match step { rd with pending := [.resetHold] } with
    | .next t => Memory.wf t.vlt.sram
    | _ => false)].all id = true := by decide +kernel

theorem witness_FusesOnlyBurn : [(match step { burning 0 with pending := [.fuseCopy] } with
    | .next t => t.vlt.lc[(1 : Fin 20)].c0 && t.vlt.lc[(0 : Fin 20)].c2
    | _ => false)].all id = true := by decide +kernel

theorem witness_CallBoard : (let full : State := { rd with sl := { rd.sl with cbd := { head := 4096, ring := [(0, List.replicate 8 1)] } } }; [
    adm full m0 (cbdOff .sl 0x04) && adm full m0 (cbdOff .sl 0x20) && !full.sl.rhl.taking && !full.sr.rhl.taking,
    decide ((full.sl.cbd.head - 0#16).toNat ≤ 4096 ∧ 4096 < (full.sl.cbd.head - 4097#16).toNat),
    decide (full.sl.cbd.fill ≠ 0 ∧ rd.sl.cbd.fill = 0 ∧ 4096 ≤ full.sl.cbd.fill) && (tget full.sl.cbd.ring (full.sl.cbd.tail.toNat % 4096)).isSome]).all id
      = true := by decide +kernel

theorem witness_LoggerStatus : [ok (row 0x1A1 0 0 2) [] 0 (rhlIs { st := .replaying }) fun p s => decide (p.wings (row 0x1A1 0 0 2) (home s 0) = [.sl]),
    ok (row 0x1A1 0 0 2) [] 1 (rhlIs { st := .record, cfg := { record := true } })].all id = true := by decide +kernel

theorem witness_FuseBits : [(let v : Vault := { lcCode := 5, lc := ({} : Vault).lc.set 3 LcBit.full }; v.lc[3].read && !v.lc[4].read && decide (v.moveBit 4 = some (4, true)))].all id
      = true := by decide +kernel

end Sys2Proof.Tests
end

section
/-! The state after reset (O58): what the vectors of the reset state hold, and the manual's reset values. -/

namespace Sys2Proof.Machine

/-- R384 counts the channels that SL serves by the highest, the model by how many they are. -/
theorem Chan.atReset_home (n : Fin 8) :
    (Chan.atReset n).mapWing = (if n.val ≤ 3 then .sl else .sr) ∧ (Chan.atReset n).served = (if n.val ≤ 3 then .l else .r) := by
  have h : n.val < 4 ↔ n.val ≤ 3 := by omega
  simp [Chan.atReset, h]

/-- R27 names the lanes in service by their numbers, the model by their places in a wing. -/
theorem LaneRec.atReset_st (l : Fin 28) :
    (LaneRec.atReset l).st = if l.val < 12 ∨ (14 ≤ l.val ∧ l.val < 26) then .inService else .understudy := by
  have h : l.val % 14 < 12 ↔ l.val < 12 ∨ (14 ≤ l.val ∧ l.val < 26) := by omega
  simp [LaneRec.atReset, h]

theorem State.reset_lanes (l : Fin 28) : State.reset.lanes[l] = LaneRec.atReset l := by simp [State.reset]

theorem State.reset_chans (n : Fin 8) : State.reset.chans[n] = Chan.atReset n := by simp [State.reset]

/-- Settles O58: the fields of the reset state are the manual's values, those of the lanes and channels by their numbers. -/
theorem resetState : Obligations.ResetState := by
  unfold Obligations.ResetState
  rintro s rfl
  refine ⟨rfl, State.reset_wf, rfl, rfl, ?lanes, ?wings, ?chans, rfl, rfl, rfl, rfl, rfl, ?ports, ?rqps, ?regions, ?mps⟩
  case lanes =>
    intro l
    rw [State.reset_lanes, LaneRec.atReset_st]
  case wings =>
    intro w
    cases w <;> simp [State.reset, State.wing, tget]
  case chans =>
    intro n
    rw [State.reset_chans]
    obtain ⟨hmap, hserved⟩ := Chan.atReset_home n
    exact ⟨hmap, hserved, rfl, rfl, rfl, rfl, rfl, by simp [State.reset]⟩
  all_goals simp [State.reset]

end Sys2Proof.Machine
end

section
/-! The events of repair (O53): one lemma for what each of them comes to where it is due, then the statement. -/

namespace Sys2Proof.Machine

theorem State.running_of_ready {s : State} (ha : s.pwr.awake = true) (hb : s.boot.phase = .ready) : s.running = true := by
  simp [State.running, ha, hb]

theorem execStuckHandshake_running {s : State} (hr : s.running = true) (u : UnitId) (sent : Nat) :
    exec (.stuckHandshake u sent) s = .next (s.watchdog u sent) := by
  show execStuckHandshake u sent s = _
  simp [execStuckHandshake, hr]

/-! ## The watchdog -/

theorem State.watchdog_lane_strikes {s : State} {l : Fin 28} (sent : Nat) (hst : s.lanes[l].st ≠ .struck)
    (hw : (s.lanes[l].items.any (fun i => i.wing ≠ laneWing l) && !s.bridgeOk) = false) :
    s.watchdog (.lane l) sent
      = (s.rhlFault (laneWing l) 1 (unitName 0 (l.val % 14) (laneWing l))).strikeLane l 1 sent := by
  simp only [State.watchdog, bankUnit, hst, hw]
  simp

theorem State.watchdog_lane_waits {s : State} {l : Fin 28} (sent : Nat)
    (hw : (s.lanes[l].items.any (fun i => i.wing ≠ laneWing l) && !s.bridgeOk) = true) :
    s.watchdog (.lane l) sent = s := by
  simp only [State.watchdog, bankUnit, hw]
  simp

theorem State.watchdog_paths_wait {s : State} {w : Wing} (sent : Nat) (hw : s.waitsBridge w = true) :
    s.watchdog (.dispatcher w) sent = s ∧ s.watchdog (.mpePath w) sent = s := by
  simp [State.watchdog, bankUnit, hw]

theorem State.watchdog_trieStage {s : State} {w : Wing} {ix : Nat} (sent : Nat) (h : s.isStruck (.trieStage w ix) = false) :
    s.watchdog (.trieStage w ix) sent
      = ((s.rhlFault w 1 (unitName 2 ix w)).logStruck w 2 ix).strikeUnit w 2 ix := by
  simp [State.watchdog, bankUnit, h]

theorem State.watchdog_vaultPath_sl {s : State} (sent : Nat) (h : s.vlt.pathLostSl = false) :
    s.watchdog (.vaultPath .sl) sent
      = (s.modVlt fun v => { v with pathLostSl := true }).log .sl .keyPathLost 0 0 0 0 := by
  simp [State.watchdog, bankUnit, State.losePath, State.pathLost, h]

/-! ## Margins -/

theorem tget_tput_self {α : Type} (t : Tbl α) (k : Nat) (v : α) : tget (tput t k v) k = some v := by
  induction t with
  | nil => simp [tput, tget]
  | cons e t ih =>
    obtain ⟨k', v'⟩ := e
    simp only [tput]
    split
    · simp [tget]
    · split
      · simp [tget]
      · rename_i hne
        simp [tget, Ne.symm hne, ih]

theorem State.modWear_congr {s : State} {name : Nat} {f g : WearRec → WearRec}
    (h : f ((tget s.wear name).getD {}) = g ((tget s.wear name).getD {})) : s.modWear name f = s.modWear name g := by
  rw [State.modWear, State.modWear, h]

/-- What a margin sample of a wing's unit comes to on the state in which it has been recorded. -/
theorem execMarginSample_records {s : State} {u : UnitId} {kind ix m name : Nat} {w : Wing} {r : WearRec} {v : State}
    (hr : s.running = true) (hu : monitored u = some (kind, ix, w)) (hf : (s.wing w).failed = false) (hix : ix < unitCount kind)
    (hm : m ≤ 65535) (hn : name = unitName kind ix w)
    (hrec : r = ((tget s.wear name).getD {}).sample m (s.wing w).wearCfg.strike)
    (hv : v = (s.rhlFault w 2 name).modWear name fun _ => r) :
    exec (.marginSample u m) s = if r.below < 4 ∨ v.isStruck u then .next v
      else .next (((if (s.wing w).wearCfg.autoStrike then v.marginStrike u else none)).getD (v.wearCritical w name m)) := by
  subst hn
  have hsample : ((s.rhlFault w 2 (unitName kind ix w)).modWear (unitName kind ix w)
      fun r => r.sample m (s.wing w).wearCfg.strike) = v := by
    rw [hv]
    apply State.modWear_congr
    rw [State.rhlFault_wear, hrec]
  have hget : tget v.wear (unitName kind ix w) = some r := by
    rw [hv, State.modWear_wear, tget_tput_self]
  have hgo : ¬(!s.running ∨ (s.wing w).failed ∨ unitCount kind ≤ ix) := by simp [hr, hf, hix]
  show execMarginSample u m s = _
  simp only [execMarginSample, hu, if_neg hgo, Nat.min_eq_left hm, hsample, hget, Option.getD_some]
  split
  · rfl
  · generalize (if (s.wing w).wearCfg.autoStrike then v.marginStrike u else none) = o
    cases o <;> rfl

/-- Whether a unit is struck is read from the lanes, the cores and, in the wings, the tries and the lists of struck units. -/
theorem State.isStruck_congr {s t : State} (u : UnitId) (hl : t.lanes = s.lanes) (hc : t.cores = s.cores)
    (htrie : ∀ v, (t.wing v).trie = (s.wing v).trie) (hst : ∀ v, (t.wing v).struck = (s.wing v).struck) :
    t.isStruck u = s.isStruck u := by
  unfold State.isStruck
  simp only [State.core, hl, hc, htrie, hst]

/-- Whether a lane may be struck is read from the lanes and the promotions that are due. -/
theorem State.laneSpare_congr {s t : State} (l : Fin 28) (hl : t.lanes = s.lanes)
    (hd : ∀ v, (t.wing v).disp = (s.wing v).disp) : t.laneSpare l = s.laneSpare l := by
  unfold State.laneSpare State.understudies
  simp only [hl, hd]

section Sampled

variable (s : State) (w : Wing) (name : Nat) (f : WearRec → WearRec)

/-- A margin sample changes of a wing the Rehearsal log at most. -/
theorem State.sampled_keeps {γ : Type} {g : WingSt → γ} (h : Apart g) (v : Wing) :
    g (((s.rhlFault w 2 name).modWear name f).wing v) = g (s.wing v) := by
  rw [← s.rhlFault_keeps h w v 2 name]
  cases v <;> rfl

theorem State.sampled_isStruck (u : UnitId) : ((s.rhlFault w 2 name).modWear name f).isStruck u = s.isStruck u :=
  State.isStruck_congr u (by simp) (by simp) (s.sampled_keeps w name f ⟨fun _ _ => rfl, fun _ _ => rfl, fun _ _ => rfl⟩)
    (s.sampled_keeps w name f ⟨fun _ _ => rfl, fun _ _ => rfl, fun _ _ => rfl⟩)

theorem State.sampled_laneSpare (l : Fin 28) : ((s.rhlFault w 2 name).modWear name f).laneSpare l = s.laneSpare l :=
  State.laneSpare_congr l (by simp) (s.sampled_keeps w name f ⟨fun _ _ => rfl, fun _ _ => rfl, fun _ _ => rfl⟩)

end Sampled

theorem State.wearCritical_first {s : State} {w : Wing} {name m : Nat} {r : WearRec} (hr : tget s.wear name = some r)
    (hc : r.critical = false) :
    s.wearCritical w name m = ((s.log w .wearCritical 0 name m 0).markCritical w name).raiseAlarm .wear := by
  simp [State.wearCritical, hr, hc]

theorem State.marginStrike_lane {s : State} {l : Fin 28} (hst : s.lanes[l].st ≠ .struck) (hsp : s.laneSpare l = true) :
    s.marginStrike (.lane l) = some (s.strikeLane l 0 0) := by
  simp only [State.marginStrike, bankUnit]
  rw [if_pos ⟨hst, hsp⟩]

/-- What a margin sample comes to (R348): recorded, marked critical, or the strike of a lane. -/
theorem marginSample_outcomes {s : State} {w : Wing} {u : UnitId} {kind ix m name : Nat} {r : WearRec} {v : State}
    (hr : s.running = true) (hu : monitored u = some (kind, ix, w)) (hf : (s.wing w).failed = false) (hix : ix < unitCount kind)
    (hm : m ≤ 65535) (hn : name = unitName kind ix w)
    (hrec : r = ((tget s.wear name).getD {}).sample m (s.wing w).wearCfg.strike)
    (hv : v = (s.rhlFault w 2 name).modWear name fun _ => r) :
    (r.below < 4 → exec (.marginSample u m) s = .next v)
      ∧ (4 ≤ r.below → s.isStruck u = false → (s.wing w).wearCfg.autoStrike = false → r.critical = false →
        exec (.marginSample u m) s = .next (((v.log w .wearCritical 0 name m 0).markCritical w name).raiseAlarm .wear))
      ∧ (∀ l, u = .lane l → 4 ≤ r.below → s.lanes[l].st ≠ .struck → (s.wing w).wearCfg.autoStrike = true → s.laneSpare l = true →
        exec (.marginSample u m) s = .next (v.strikeLane l 0 0)) := by
  rw [execMarginSample_records hr hu hf hix hm hn hrec hv]
  have hstruck : v.isStruck u = s.isStruck u := by rw [hv, State.sampled_isStruck]
  have hget : tget v.wear name = some r := by rw [hv, State.modWear_wear, tget_tput_self]
  refine ⟨fun hb => ?_, fun hb hs ha hc => ?_, fun l hl hb hs ha hsp => ?_⟩
  · rw [if_pos (.inl hb)]
  · rw [hstruck, hs, ha, State.wearCritical_first hget hc]
    simp [Nat.not_lt.2 hb]
  · subst hl
    have hlanes : v.lanes = s.lanes := by simp [hv]
    have hfree : v.isStruck (.lane l) = false := by simpa [State.isStruck, bankUnit, hlanes] using hs
    rw [hfree, ha, State.marginStrike_lane (by rwa [hlanes]) (by rw [hv, State.sampled_laneSpare, hsp])]
    simp [Nat.not_lt.2 hb]

/-! ## The wear check -/

theorem State.checkUnit_keeps {γ : Type} {g : WingSt → γ} (h : Apart g) (s : State) (w v : Wing) (name : Nat) :
    g ((s.checkUnit w name).wing v) = g (s.wing v) := by
  unfold State.checkUnit
  split
  · rfl
  · dsimp only
    split
    · rfl
    · split
      · rw [← s.log_keeps h w v .wearWarning 0 name _ 0]
        cases v <;> rfl
      · cases v <;> rfl

theorem State.log_modWear (s : State) (w : Wing) (e : Ev) (u a b c name : Nat) (f : WearRec → WearRec) :
    (s.log w e u a b c).modWear name f = (s.modWear name f).log w e u a b c := by
  cases w <;> rfl

theorem State.modWear_single {s : State} {name : Nat} {r : WearRec} (hw : s.wear = [(name, r)]) (f : WearRec → WearRec) :
    s.modWear name f = { s with wear := [(name, f r)] } := by
  simp [State.modWear, hw, tget, tput]

/-- The check of the one unit sampled, whose lowest margin has come below the warning threshold. -/
theorem State.checkUnit_warns {s : State} {w : Wing} {name : Nat} {r : WearRec} (hw : s.wear = [(name, r)])
    (hs : r.sampled = true) (hn : r.warned = false) (hlow : r.low < (s.wing w).wearCfg.warn) :
    s.checkUnit w name = State.log { s with
      wear := [(name, { r with hist := (r.hist ++ [r.low]).drop (r.hist.length + 1 - 64), low := r.margin, fresh := false,
                               warned := true, changed := s.now w })] } w .wearWarning 0 name r.low 0 := by
  have hget : tget s.wear name = some r := by simp [hw, tget]
  have hnow : (s.log w .wearWarning 0 name r.low 0).now w = s.now w := by
    cases w <;> rfl
  simp [State.checkUnit, hget, hs, hn, hlow, hnow, State.log_modWear, State.modWear_single hw]

/-- A wear check is due on a wing (R348, R361). -/
structure WearDue (s : State) (w : Wing) : Prop where
  running : s.running = true
  sound : (s.wing w).failed = false
  served : (s.wing w).headless = false
  elapsed : (s.wing w).wearAt + (s.wing w).wearCfg.period * 1000000000 ≤ s.rt

/-- A wear check is noted on its wing. -/
def State.wearNoted (s : State) (w : Wing) : State := s.modWing w fun x => { x with wearAt := s.rt, wearN := x.wearN + 1 }

/-- A wear check goes through the units of its wing. -/
def State.wearChecked (s : State) (w : Wing) : State :=
  ((s.wear.map (·.1)).filter fun n => n / 2 ^ 16 % 2 = wingIx w).foldl (fun s n => s.checkUnit w n) (s.wearNoted w)

theorem execWearCheck_due {s : State} {w : Wing} (h : WearDue s w) :
    exec (.wearCheck w) s = .next { s.wearChecked w with
      rowErrs := (s.wearChecked w).rowErrs.filter fun e => e.1 / 2 ^ 16 % 2 ≠ wingIx w } := by
  obtain ⟨hr, hf, hh, hd⟩ := h
  have hgo : ¬(!s.running ∨ (s.wing w).failed ∨ (s.wing w).headless
      ∨ s.rt < (s.wing w).wearAt + (s.wing w).wearCfg.period * 1000000000) := by simp [hr, hf, hh, hd]
  show execWearCheck w s = _
  simp only [execWearCheck, if_neg hgo, State.modWing_wear, State.wearChecked, State.wearNoted]

theorem State.wearChecked_wing (s : State) (w : Wing) :
    ((s.wearChecked w).wing w).wearAt = s.rt ∧ ((s.wearChecked w).wing w).wearN = (s.wing w).wearN + 1 := by
  have hat : ((s.wearChecked w).wing w).wearAt = ((s.wearNoted w).wing w).wearAt :=
    foldl_keeps (fun t => (t.wing w).wearAt) _
      (fun t n => t.checkUnit_keeps (g := WingSt.wearAt) ⟨fun _ _ => rfl, fun _ _ => rfl, fun _ _ => rfl⟩ w w n) _ _
  have hn : ((s.wearChecked w).wing w).wearN = ((s.wearNoted w).wing w).wearN :=
    foldl_keeps (fun t => (t.wing w).wearN) _
      (fun t n => t.checkUnit_keeps (g := WingSt.wearN) ⟨fun _ _ => rfl, fun _ _ => rfl, fun _ _ => rfl⟩ w w n) _ _
  rw [hat, hn]
  simp [State.wearNoted]

theorem State.wearChecked_single {s : State} {w : Wing} {name : Nat} {r : WearRec} (hw : s.wear = [(name, r)])
    (hname : name / 2 ^ 16 % 2 = wingIx w) : s.wearChecked w = (s.wearNoted w).checkUnit w name := by
  have hmine : [name].filter (fun n => decide (n / 2 ^ 16 % 2 = wingIx w)) = [name] :=
    List.filter_eq_self.2 fun n hn => by rw [List.mem_singleton.1 hn]; exact decide_eq_true hname
  rw [State.wearChecked, hw, List.map_cons, List.map_nil, hmine, List.foldl_cons, List.foldl_nil]

theorem State.filter_rowErrs_nil {t : State} (h : t.rowErrs = []) (f : Nat × Nat × Nat → Bool) :
    { t with rowErrs := t.rowErrs.filter f } = t := by
  rw [h, List.filter_nil, ← h]

/-- The wear check of a wing with one unit sampled, whose lowest margin has come below the warning threshold, and no row with an
error noted. -/
theorem execWearCheck_warns {s : State} {w : Wing} {name : Nat} {r : WearRec} (h : WearDue s w) (hw : s.wear = [(name, r)])
    (hname : name / 2 ^ 16 % 2 = wingIx w) (hs : r.sampled = true) (hn : r.warned = false)
    (hlow : r.low < (s.wing w).wearCfg.warn) (he : s.rowErrs = []) :
    exec (.wearCheck w) s = .next (State.log { s.wearNoted w with
      wear := [(name, { r with hist := (r.hist ++ [r.low]).drop (r.hist.length + 1 - 64), low := r.margin, fresh := false,
                               warned := true, changed := s.now w })] } w .wearWarning 0 name r.low 0) := by
  have hnow : (s.wearNoted w).now w = s.now w := by cases w <;> rfl
  have hcheck := State.checkUnit_warns (s := s.wearNoted w) (w := w) (by simpa [State.wearNoted] using hw) hs hn
    (by simpa [State.wearNoted] using hlow)
  rw [hnow] at hcheck
  rw [execWearCheck_due h, State.wearChecked_single hw hname, hcheck, State.filter_rowErrs_nil]
  simpa [State.wearNoted] using he

/-! ## Understudies, rows and banks -/

theorem execUnderstudyPromotion_tested {s : State} {w : Wing} {l : Fin 28} (pass : Bool)
    (hl : (s.understudies w).find? (fun l => s.lanes[l].testing && !s.lanes[l].items.any s.inRelease) = some l)
    (hc : s.lanes[l].closing = false) :
    exec (.understudyPromotion w pass) s = .next (if pass then s.promote l else s.strikeLane l 2 0) := by
  show execUnderstudyPromotion w pass s = _
  have he : s.endLaneClose l = s := by rw [State.endLaneClose, hc]; rfl
  simp only [execUnderstudyPromotion, hl, he]

theorem execMarchTest_faulty {s : State} {w : Wing} {bank : Nat} (row : Nat) (hr : s.running = true)
    (hf : (s.wing w).failed = false) (hb : (bankOf bank).isNone = true) :
    exec (.marchTest w bank row true) s = .next (s.remapRow w bank row) := by
  show execMarchTest w bank row true s = _
  simp [execMarchTest, hr, hf, hb]

theorem execMarchTest_sound (s : State) (w : Wing) (bank row : Nat) : exec (.marchTest w bank row false) s = .next s := by
  show execMarchTest w bank row false s = _
  simp [execMarchTest]

theorem execMarchTest_trieBank (s : State) (w : Wing) {bank : Nat} (row : Nat) (faulty : Bool)
    (hb : (bankOf bank).isNone = false) : exec (.marchTest w bank row faulty) s = .next s := by
  show execMarchTest w bank row faulty s = _
  simp [execMarchTest, hb]

theorem State.remapRow_spare {s : State} {w : Wing} {bank k : Nat} (row : Nat) (hk : k = bankKey w bank)
    (h : ((tget s.rows k).getD []).length < Config.spareRows bank) :
    s.remapRow w bank row = State.log
      { s with rows := tput s.rows k ((tget s.rows k).getD [] ++ [(row, ((tget s.rows k).getD []).length)]) }
      w .rowRemapped 0 k row 0 := by
  subst hk
  simp only [State.remapRow, h, if_true]

theorem State.remapRow_exhausted {s : State} {w : Wing} {bank k : Nat} (row : Nat) (hk : k = bankKey w bank)
    (h : Config.spareRows bank ≤ ((tget s.rows k).getD []).length) :
    s.remapRow w bank row = ((s.log w .rowsExhausted 0 k 0 0).markCritical w k).raiseAlarm .wear := by
  subst hk
  simp only [State.remapRow, Nat.not_lt.2 h, if_false]

theorem execBankStruck_node {s : State} {w : Wing} {ix : Nat} {rest : List (Bool × Nat)}
    (h : (s.wing w).trie.copying = (false, ix) :: rest) (t : State)
    (ht : t = s.modTrie w fun t => { t with copying := rest, struckBanks := t.struckBanks ++ [(false, ix)], spareUsed := true }) :
    exec (.bankStruck w) s = .next (State.nextCommit 9 w (State.answerWaiters
      (((t.roleChanged w (unitName 1 ix w) true).roleChanged w (unitName 1 16 w) false).log w .bankStruck 0 (unitName 2 ix w) 0 0)
      (.strike (.trieBank w false ix)) .ok [])) := by
  show execBankStruck w s = _
  simp [execBankStruck, h, ht, bankNo]

/-! ## The statement -/

/-- Settles O53: each event's meaning, cut down by the guard that the hypotheses meet, is the state that the statement names. -/
theorem repairEvents : Obligations.RepairEvents := by
  unfold Obligations.RepairEvents
  intro s w ha hb
  have hr : s.running = true := State.running_of_ready ha hb
  refine ⟨?lane, ?paths, ?stage, ?vaultPath, ?margin, ?check, ?tested, ?rows, ?trieRows, ?bank⟩
  case lane =>
    rintro l sent _ rfl
    simp only [execStuckHandshake_running hr]
    exact ⟨fun hst hw => by rw [State.watchdog_lane_strikes sent hst hw], fun hw => by rw [State.watchdog_lane_waits sent hw]⟩
  case paths =>
    intro sent hw
    simp only [execStuckHandshake_running hr, State.watchdog_paths_wait sent hw, and_self]
  case stage =>
    intro sent ix h
    rw [execStuckHandshake_running hr, State.watchdog_trieStage sent h]
    rfl
  case vaultPath =>
    intro sent h
    rw [execStuckHandshake_running hr, State.watchdog_vaultPath_sl sent h]
  case margin =>
    intro u kind ix m name r v hu hf hix hm hn hrec hv
    exact marginSample_outcomes hr hu hf hix hm hn hrec hv
  case check =>
    intro hf hh hd
    have due : WearDue s w := ⟨hr, hf, hh, hd⟩
    refine ⟨⟨_, execWearCheck_due due, ?_⟩, fun name r hw hname hs hn hlow he => execWearCheck_warns due hw hname hs hn hlow he⟩
    have := s.wearChecked_wing w
    cases w <;> exact this
  case tested =>
    intro l hl hc
    exact ⟨execUnderstudyPromotion_tested true hl hc, execUnderstudyPromotion_tested false hl hc⟩
  case rows =>
    intro bank row k hf hbank hk
    rw [execMarchTest_faulty row hr hf hbank]
    exact ⟨fun h => by rw [State.remapRow_spare row hk h], fun h => by rw [State.remapRow_exhausted row hk h],
      execMarchTest_sound s w bank row⟩
  case trieRows =>
    intro bank row faulty hbank
    exact execMarchTest_trieBank s w row faulty hbank
  case bank =>
    intro ix rest t h ht
    exact execBankStruck_node h t ht

end Sys2Proof.Machine
end

section
/-! What leaves the two ends of the bridge as they are (O52): every operation that a declaration of the bridge as lost sets off,
but the change of the link state itself. -/

namespace Sys2Proof.Machine

/-! ## The ends of the bridge -/

/-- What the bridge reads of a wing: its link state and when it last heard a token. -/
def WingSt.ends (x : WingSt) : Link × Nat := (x.link, x.lastTok)

/-- The two ends of the bridge. -/
def State.bridge (s : State) (w : Wing) : Link × Nat := (s.wing w).ends

/-- The ends of the bridge in two wings. -/
def bridgeOf (l r : WingSt) : Wing → Link × Nat
  | .sl => l.ends
  | .sr => r.ends

theorem apart_ends : Apart WingSt.ends := ⟨fun _ _ => rfl, fun _ _ => rfl, fun _ _ => rfl⟩

theorem State.bridge_eq (s : State) : s.bridge = bridgeOf s.sl s.sr := by
  funext w
  cases w <;> rfl

@[simp] theorem bridgeOf_wings (s : State) : bridgeOf s.sl s.sr = s.bridge := s.bridge_eq.symm

@[simp] theorem State.bridge_mk (a b c d e l r f g h i j k m n o p q t u v w x) :
    (State.mk a b c d e l r f g h i j k m n o p q t u v w x).bridge = bridgeOf l r := State.bridge_eq _

@[simp] theorem State.bridge_ite (c : Prop) [Decidable c] (s t : State) :
    (if c then s else t).bridge = if c then s.bridge else t.bridge := apply_ite State.bridge c s t

@[simp] theorem State.foldl_bridge {β : Type} (f : State → β → State) (h : ∀ s e, (f s e).bridge = s.bridge) (l : List β)
    (s : State) : (l.foldl f s).bridge = s.bridge := foldl_keeps State.bridge f h l s

@[simp] theorem State.eachWing_bridge (s : State) (f : State → Wing → State) (h : ∀ s w, (f s w).bridge = s.bridge) :
    (s.eachWing f).bridge = s.bridge := (h _ .sr).trans (h s .sl)

@[simp] theorem State.modWing_bridge (s : State) (w : Wing) (f : WingSt → WingSt)
    (h : ∀ x, (f x).link = x.link ∧ (f x).lastTok = x.lastTok) : (s.modWing w f).bridge = s.bridge :=
  funext fun v => s.modWing_keeps (g := WingSt.ends) w v f fun x => Prod.ext (h x).1 (h x).2

/-! ## Updates, events and records -/

@[simp] theorem State.modVlt_bridge (s : State) (f : Vault → Vault) : (s.modVlt f).bridge = s.bridge := rfl
@[simp] theorem State.modPort_bridge (s : State) (p : Fin 64) (f : Port → Port) : (s.modPort p f).bridge = s.bridge := rfl
@[simp] theorem State.modRqp_bridge (s : State) (q : Fin 4) (f : RqPort → RqPort) : (s.modRqp q f).bridge = s.bridge := rfl
@[simp] theorem State.modMp_bridge (s : State) (m : Fin 4) (f : MPort → MPort) : (s.modMp m f).bridge = s.bridge := rfl
@[simp] theorem State.modLane_bridge (s : State) (l : Fin 28) (f : LaneRec → LaneRec) : (s.modLane l f).bridge = s.bridge := rfl
@[simp] theorem State.modRegion_bridge (s : State) (r : Fin 64) (f : Region → Region) : (s.modRegion r f).bridge = s.bridge := rfl
@[simp] theorem State.modCue_bridge (s : State) (c : Fin 16) (f : Cue → Cue) : (s.modCue c f).bridge = s.bridge := rfl
@[simp] theorem State.modChan_bridge (s : State) (n : Fin 8) (f : Chan → Chan) : (s.modChan n f).bridge = s.bridge := rfl
@[simp] theorem State.modCore_bridge (s : State) (c : CoreId) (f : Core → Core) : (s.modCore c f).bridge = s.bridge := rfl
@[simp] theorem State.takeFree_bridge (s : State) : s.takeFree.bridge = s.bridge := rfl
@[simp] theorem State.fix_bridge (s : State) (e : Ent) : (s.fix e).bridge = s.bridge := rfl

@[simp] theorem State.log_bridge (s : State) (w : Wing) (e : Ev) (u a b c : Nat) : (s.log w e u a b c).bridge = s.bridge :=
  funext fun v => s.log_keeps apart_ends w v e u a b c
@[simp] theorem State.logBoth_bridge (s : State) (e : Ev) (u a b c : Nat) : (s.logBoth e u a b c).bridge = s.bridge :=
  funext fun v => s.logBoth_keeps apart_ends v e u a b c
@[simp] theorem State.countWing_bridge (s : State) (w : Wing) (c : WCnt) : (s.countWing w c).bridge = s.bridge :=
  funext fun v => s.countWing_keeps apart_ends w v c
@[simp] theorem State.modRhl_bridge (s : State) (w : Wing) (f : Rhl → Rhl) : (s.modRhl w f).bridge = s.bridge :=
  funext fun v => s.modRhl_keeps apart_ends w v f
@[simp] theorem State.rhlStop_bridge (s : State) (w : Wing) (a b : Nat) : (s.rhlStop w a b).bridge = s.bridge :=
  funext fun v => s.rhlStop_keeps apart_ends w v a b
@[simp] theorem State.rhlPut_bridge (s : State) (w : Wing) (t : Nat) (c b : Bytes) (n : Nat) :
    (s.rhlPut w t c b n).bridge = s.bridge := funext fun v => s.rhlPut_keeps apart_ends w v t c b n
@[simp] theorem State.rhlRec_bridge (s : State) (w : Wing) (t : Nat) (c b : Bytes) (n : Nat) :
    (s.rhlRec w t c b n).bridge = s.bridge := funext fun v => s.rhlRec_keeps apart_ends w v t c b n
@[simp] theorem State.rhlFreeze_bridge (s : State) (w : Wing) (a b : Nat) : (s.rhlFreeze w a b).bridge = s.bridge :=
  funext fun v => s.rhlFreeze_keeps apart_ends w v a b
@[simp] theorem State.raiseAlarm_bridge (s : State) (a : Alarm) : (s.raiseAlarm a).bridge = s.bridge :=
  funext fun v => s.raiseAlarm_keeps apart_ends v a

/-! ## Grants, lanes and the dispatcher -/

@[simp] theorem State.rhlGrant_bridge (s : State) (w : Wing) (a : Nat) (b : Bool) : (s.rhlGrant w a b).bridge = s.bridge := by
  simp [State.rhlGrant]

@[simp] theorem State.closeGrant_bridge (s : State) (w : Wing) (m : Bool) : (s.closeGrant w m).bridge = s.bridge := by
  simp [State.closeGrant]

@[simp] theorem State.modDisp_bridge (s : State) (w : Wing) (f : Disp → Disp) : (s.modDisp w f).bridge = s.bridge := by
  simp [State.modDisp]

@[simp] theorem State.giveLane_bridge (s : State) (l : Fin 28) (i : LItem) : (s.giveLane l i).bridge = s.bridge := rfl

theorem State.dispatchMove_bridge {s t : State} {w : Wing} (h : s.dispatchMove w = .go t) : t.bridge = s.bridge := by
  unfold State.dispatchMove at h
  dsimp only at h
  repeat' split at h
  all_goals cases h <;> simp

theorem State.dispatchLoop_bridge (n : Nat) (w : Wing) (s : State) : (State.dispatchLoop n w s).bridge = s.bridge := by
  induction n generalizing s with
  | zero => rfl
  | succ n ih =>
    rw [State.dispatchLoop]
    split
    · rfl
    · split
      · rfl
      · next s' hm => rw [ih, State.dispatchMove_bridge hm]

@[simp] theorem State.dispatch_bridge (s : State) (w : Wing) : (s.dispatch w).bridge = s.bridge := by
  simp [State.dispatch, State.dispatchLoop_bridge]

@[simp] theorem State.dropItem_bridge (s : State) (of : ItemOf) : (s.dropItem of).bridge = s.bridge := by
  simp [State.dropItem]

@[simp] theorem State.modWork_bridge (s : State) (of : ItemOf) (fo fi fl) : (s.modWork of fo fi fl).bridge = s.bridge := by
  cases of <;> rfl

@[simp] theorem State.leadAdmit_bridge (s : State) (w : Wing) (c n : Nat) : (s.leadAdmit w c n).2.bridge = s.bridge := by
  unfold State.leadAdmit
  dsimp only
  (repeat' split) <;> simp

@[simp] theorem State.restartItem_bridge (s : State) (l : Fin 28) (i : LItem) : (s.restartItem l i).bridge = s.bridge := by
  simp [State.restartItem, State.setLead, State.markOutside, apply_ite Prod.snd]

@[simp] theorem State.restartLane_bridge (s : State) (l : Fin 28) (k : LItem → Bool) (d : Bool) :
    (s.restartLane l k d).bridge = s.bridge := by
  simp [State.restartLane]

@[simp] theorem State.reassign_bridge (s : State) (old : Fin 28 → Role) : (s.reassign old).bridge = s.bridge := by
  simp [State.reassign]

/-! ## Frames -/

@[simp] theorem State.modSa_bridge (s : State) (w : Wing) (sai : Nat) (f : Sa → Sa) : (s.modSa w sai f).bridge = s.bridge := by
  simp [State.modSa]

@[simp] theorem State.countFrameSa_bridge (s : State) (p : Fin 64) (sai : Option Nat) (c : SaCnt) :
    (s.countFrameSa p sai c).bridge = s.bridge := by
  cases sai <;> simp [State.countFrameSa, State.countSa]

@[simp] theorem State.rhlFrame_bridge (s : State) (p : Fin 64) (c : Fin 4) (n st : Nat) (a b : Bytes) :
    (s.rhlFrame p c n st a b).bridge = s.bridge := by
  simp [State.rhlFrame]

@[simp] theorem State.deliver_bridge (s : State) (p : Fin 64) (f : Option Sof) (b : Bytes) (i c st : Nat) :
    (s.deliver p f b i c st).bridge = s.bridge := by
  simp [State.deliver]

@[simp] theorem State.ptpExport_bridge (s : State) (p : Fin 64) (i : Bool) (a e : Ts) (r : Int) (b : Bytes) :
    (s.ptpExport p i a e r b).bridge = s.bridge := by
  unfold State.ptpExport
  dsimp only
  split <;> simp

@[simp] theorem State.credit_bridge (s : State) (p : Fin 64) : (s.credit p).bridge = s.bridge := by
  simp [State.credit]

@[simp] theorem State.unInbound_bridge (s : State) (p : Fin 64) (i : Nat) : (s.unInbound p i).bridge = s.bridge := by
  simp [State.unInbound]

@[simp] theorem State.unpend_bridge (s : State) (p : Fin 64) (f : InFrame) : (s.unpend p f).bridge = s.bridge := by
  unfold State.unpend
  split <;> simp

@[simp] theorem State.cutDelivery_bridge (s : State) (p : Fin 64) (f : InFrame) (c : SaCnt) (n : Option Nat) :
    (s.cutDelivery p f c n).bridge = s.bridge := by
  simp [State.cutDelivery]

@[simp] theorem State.cutItem_bridge (s : State) (i : LItem) (c : SaCnt) (n : Option Nat) :
    (s.cutItem i c n).bridge = s.bridge := by
  unfold State.cutItem
  (repeat' split) <;> simp

@[simp] theorem State.cutRelease_bridge (s : State) (p : Fin 64) (c : SaCnt) (n : Option Nat) :
    (s.cutRelease p c n).bridge = s.bridge := by
  cases n <;> simp [State.cutRelease, State.zeroTail, State.zeroTailAt]

@[simp] theorem State.cutLent_bridge (s : State) : s.cutLent.bridge = s.bridge := by
  simp [State.cutLent]

/-! ## Security associations and Prompt -/

@[simp] theorem State.askOwn_bridge (s : State) (w : Wing) (u : OwnUse) (c : Nat) : (s.askOwn w u c).bridge = s.bridge := by
  simp [State.askOwn]

@[simp] theorem State.needSa_bridge (s : State) (w : Wing) (sai : Nat) : (s.needSa w sai).bridge = s.bridge := by
  simp [State.needSa]

@[simp] theorem State.startSaClose_bridge (s : State) (w : Wing) (sai : Nat) : (s.startSaClose w sai).bridge = s.bridge := by
  simp [State.startSaClose]

@[simp] theorem State.switchSa_bridge (s : State) (w : Wing) (sai next : Nat) : (s.switchSa w sai next).bridge = s.bridge := by
  simp [State.switchSa]

@[simp] theorem State.modifySa_bridge (s : State) (w : Wing) (sai m : Nat) (r : SaRec) (pn : Nat) :
    (s.modifySa w sai m r pn).bridge = s.bridge := by
  unfold State.modifySa
  dsimp only
  split <;> simp

@[simp] theorem State.dropSa_bridge (s : State) (w : Wing) (sai c : Nat) : (s.dropSa w sai c).bridge = s.bridge := by
  simp [State.dropSa]

@[simp] theorem State.cacheKey_bridge (s : State) (w : Wing) (j : Nat) : (s.cacheKey w j).bridge = s.bridge := by
  unfold State.cacheKey
  dsimp only
  (repeat' split) <;> simp

@[simp] theorem State.evictSa_bridge (s : State) (w : Wing) (c : Nat) : (s.evictSa w c).bridge = s.bridge := by
  unfold State.evictSa
  (repeat' split) <;> simp

@[simp] theorem State.installSa_bridge (s : State) (w : Wing) (sai : Nat) (r : SaRec) (pn : Nat) :
    (s.installSa w sai r pn).bridge = s.bridge := by
  simp [State.installSa]

@[simp] theorem State.replaceSa_bridge (s : State) (w : Wing) (sai : Nat) (r : SaRec) (pn : Nat) :
    (s.replaceSa w sai r pn).bridge = s.bridge := by
  unfold State.replaceSa
  split <;> simp

@[simp] theorem State.modPrm_bridge (s : State) (w : Wing) (f : Prompt → Prompt) : (s.modPrm w f).bridge = s.bridge := by
  simp [State.modPrm]

@[simp] theorem State.discardOut_bridge (s : State) (p : Fin 64) (f : OutFrame) (c : SaCnt) :
    (s.discardOut p f c).bridge = s.bridge := by
  simp [State.discardOut, State.unstage]

@[simp] theorem State.dropOldEpoch_bridge (s : State) (w : Wing) : (s.dropOldEpoch w).bridge = s.bridge := by
  simp [State.dropOldEpoch]

@[simp] theorem State.fireCue_bridge (s : State) (c : Fin 16) : (s.fireCue c).bridge = s.bridge := by
  rw [State.fireCue, State.asymFire, State.foldl_bridge _ fun s e => by simp]
  simp

@[simp] theorem State.stepCue_bridge (s : State) (w : Wing) (old : Nat) (c : Fin 16) : (s.stepCue w old c).bridge = s.bridge := by
  unfold State.stepCue
  dsimp only
  (repeat' split) <;> simp

@[simp] theorem State.stepPrompt_bridge (s : State) (w : Wing) (t : Nat) : (s.stepPrompt w t).bridge = s.bridge := by
  simp [State.stepPrompt, State.copyRt]

@[simp] theorem State.setOffset_bridge (s : State) (w : Wing) (ns : Int) (frac : Nat) :
    (s.setOffset w ns frac).bridge = s.bridge := by
  simp [State.setOffset]

@[simp] theorem State.setCue_bridge (s : State) (c : Fin 16) (t : Cue) : (s.setCue c t).bridge = s.bridge := by
  simp [State.setCue]

/-! ## Curtains and answers -/

@[simp] theorem State.startRhl_bridge (s : State) (w : Wing) (c : RhlCfg) : (s.startRhl w c).bridge = s.bridge := by
  simp [State.startRhl, State.draw]

@[simp] theorem State.stopRhl_bridge (s : State) (w : Wing) : (s.stopRhl w).bridge = s.bridge := by
  simp [State.stopRhl]

@[simp] theorem State.targetRhl_bridge (s : State) (w : Wing) (d p : Bytes) : (s.targetRhl w d p).bridge = s.bridge := by
  unfold State.targetRhl
  dsimp only
  (repeat' split) <;> simp

@[simp] theorem State.putEff_bridge (s : State) (w : Wing) (e : Eff) : (s.putEff w e).bridge = s.bridge := by
  cases e with
  | closeTimeout v region us => cases region <;> simp [State.putEff]
  | _ => simp [State.putEff]

@[simp] theorem State.applyEff_bridge (s : State) (w : Wing) (e : Eff) : (s.applyEff w e).bridge = s.bridge := by
  cases e <;> simp [State.applyEff]

@[simp] theorem State.curtain_bridge (s : State) (ch : Fin 8) : (s.curtain ch).bridge = s.bridge := by
  simp [State.curtain]

@[simp] theorem State.settleMap_bridge (s : State) (ch : Fin 8) : (s.settleMap ch).bridge = s.bridge := by
  unfold State.settleMap
  dsimp only
  split <;> simp

@[simp] theorem State.rawFinish_bridge (s : State) (ch : Fin 8) (st : Status) (ws : List Word) :
    (s.rawFinish ch st ws).bridge = s.bridge := by
  unfold State.rawFinish
  split <;> simp [State.rawReply, State.modHead]

@[simp] theorem State.rawAnswer_bridge (s : State) (f : Wait → Bool) (st : Status) : (s.rawAnswer f st).bridge = s.bridge := by
  simp [State.rawAnswer]

/-! ## The wings and their cores -/

@[simp] theorem State.giveWing_bridge (s : State) (w : Wing) (c : CoreId) : (s.giveWing w c).bridge = s.bridge := by
  simp [State.giveWing]

@[simp] theorem State.refuseAll_bridge (s : State) (w : Wing) : (s.refuseAll w).bridge = s.bridge := by
  simp [State.refuseAll]

@[simp] theorem State.rehome_bridge (s : State) : s.rehome.bridge = s.bridge := by
  simp [State.rehome, State.orphan]

@[simp] theorem State.adoptImage_bridge (s : State) : s.adoptImage.bridge = s.bridge := rfl

@[simp] theorem State.disarm_bridge (s : State) (c : CoreId) : (s.disarm c).bridge = s.bridge := rfl

@[simp] theorem State.updateMoved_bridge (s : State) : s.updateMoved.bridge = s.bridge := by
  unfold State.updateMoved
  split <;> simp

@[simp] theorem State.endHand_bridge (s : State) (h : Nat) : (s.endHand h).bridge = s.bridge := by
  simp [State.endHand]

@[simp] theorem State.moveChan_bridge (s : State) (h : Nat) (n : Fin 8) (f : Bool) : (s.moveChan h n f).bridge = s.bridge := by
  simp [State.moveChan]

@[simp] theorem State.settleHand_bridge (s : State) : s.settleHand.bridge = s.bridge := by
  unfold State.settleHand
  split <;> simp

@[simp] theorem State.dropHand_bridge (s : State) (st : Status) : (s.dropHand st).bridge = s.bridge := by
  simp [State.dropHand]

/-- No JOIN is due while the bridge is not back on both wings (R340). -/
theorem State.joinDue_of_link {s : State} {w : Wing} (h : (s.bridge w).1 ≠ .rejoinReady) : s.joinDue = false := by
  cases w <;> simp_all [State.joinDue, State.bridge, State.wing, WingSt.ends]

theorem State.finish_bridge {s : State} {w : Wing} (h : (s.bridge w).1 ≠ .rejoinReady) (ch : Fin 8) (st : Status) (ws :
    List Word) :
    (s.finish ch st ws).bridge = s.bridge := by
  have hj : ((s.rawFinish ch st ws).settleMap ch).joinDue = false := State.joinDue_of_link (w := w) (by simpa using h)
  simp [State.finish, State.settle, hj]

/-! ## Accesses across the bridge -/

@[simp] theorem State.verified_bridge (s : State) (w : Wing) (sai pn t : Nat) : (s.verified w sai pn t).bridge = s.bridge := by
  have hc : ∀ u : State, (u.saCause w).bridge = u.bridge := by
    intro u
    unfold State.saCause
    split <;> simp
  have ht : ∀ u : State, (u.checkThresh w sai pn t).bridge = u.bridge := by
    intro u
    unfold State.checkThresh
    split <;> simp [hc]
  simp [State.verified, State.overlapOn, ht]

@[simp] theorem State.pushBeats_bridge (s : State) (q : Fin 4) (bs : List DBeat) : (s.pushBeats q bs).bridge = s.bridge := by
  simp [State.pushBeats]

@[simp] theorem State.modAcc_bridge (s : State) (q : Fin 4) (n : Nat) (f : Access → Access) :
    (s.modAcc q n f).bridge = s.bridge := rfl

@[simp] theorem State.endLine_bridge (s : State) (q : Fin 4) (n i : Nat) (f : MLine → MLine) :
    (s.endLine q n i f).bridge = s.bridge := by
  simp [State.endLine, State.modLine]

@[simp] theorem State.endFailed_bridge (s : State) (q : Fin 4) (n i st : Nat) : (s.endFailed q n i st).bridge = s.bridge := by
  unfold State.endFailed
  (repeat' split) <;> simp

@[simp] theorem State.endBuffered_bridge (s : State) (a st : Nat) : (s.endBuffered a st).bridge = s.bridge := by
  exact State.foldl_bridge _ (fun s q => State.foldl_bridge _ (fun s b => State.foldl_bridge _ (fun s i => by simp) _ s) _ s) _ s

@[simp] theorem State.modMpe_bridge (s : State) (w : Wing) (f : Mpe → Mpe) : (s.modMpe w f).bridge = s.bridge := by
  simp [State.modMpe]

@[simp] theorem State.poisonAs_bridge (s : State) (r : Fin 64) (a m : Nat) (q : Fin 4) (k : Nat) (b : Bool) :
    (s.poisonAs r a m q k b).bridge = s.bridge := by
  unfold State.poisonAs
  dsimp only
  split <;> simp [State.countRegion, State.logAddr, State.setCtr]

@[simp] theorem State.trigEnds_bridge (s : State) (q : Fin 4) (a : Access) (l : MLine) (st : Nat) :
    (s.trigEnds q a l st).bridge = s.bridge := by
  unfold State.trigEnds
  split <;> simp

@[simp] theorem State.endAcc_bridge (s : State) (q : Fin 4) (a : Access) (st : Nat) : (s.endAcc q a st).bridge = s.bridge := by
  unfold State.endAcc
  dsimp only
  (repeat' split) <;> simp

@[simp] theorem State.endCross_bridge (s : State) (q : Fin 4) (a : Access) : (s.endCross q a).bridge = s.bridge := by
  simp [State.endCross]

@[simp] theorem State.endCrossAll_bridge (s : State) (w : Wing) : (s.endCrossAll w).bridge = s.bridge := by
  simp [State.endCrossAll]

theorem State.endForwarded_bridge {s : State} {w : Wing} (h : (s.bridge w).1 ≠ .rejoinReady) :
    (s.endForwarded w).bridge = s.bridge := by
  unfold State.endForwarded
  generalize List.finRange 8 = chs
  induction chs generalizing s with
  | nil => rfl
  | cons ch chs ih =>
    rw [List.foldl_cons]
    split
    · have hf : (s.finish ch .wingUnreachable []).bridge = s.bridge := State.finish_bridge h ch _ _
      rw [ih (by rwa [hf]), hf]
    · exact ih h

/-! ## The declaration -/

@[simp] theorem State.stopUpdate_bridge (s : State) : s.stopUpdate.bridge = s.bridge := by
  simp [State.stopUpdate]

@[simp] theorem State.pullLent_bridge (s : State) (w : Wing) (put : State → Fin 28 → LItem → State)
    (h : ∀ s l i, (put s l i).bridge = s.bridge) : (s.pullLent w put).bridge = s.bridge := by
  simp [State.pullLent, h]

@[simp] theorem State.settleLent_bridge (s : State) (w : Wing) : (s.settleLent w).bridge = s.bridge := by
  simp [State.settleLent]

/-- The declaration leaves a wing PARTITIONED or FAR_LOST, and when it last heard a token as it was. -/
theorem State.declareLost_bridge {s : State} {w : Wing} (cause : Nat) (h : (s.wing w).link = .joined)
    (hr : (s.wing w).rhl.st ≠ .replaying) :
    ∃ l, (l = .partitioned ∨ l = .farLost) ∧ (s.declareLost w cause).bridge w = (l, (s.bridge w).2) := by
  unfold State.declareLost
  extract_lets x far st s1 mine old s2 s3 s4 s5 s6 s7 stopped s8 old' s9 s10
  have hst : st = .partitioned ∨ st = .farLost := by
    simp only [st]
    split <;> simp
  have hset : s2.bridge w = (st, (s.bridge w).2) := by
    have hl : ∀ u : State, u.bridge = s.bridge →
        (u.modWing w fun y => { y with link := st }).bridge w = (st, (s.bridge w).2) := by
      intro u hu
      rw [← hu, State.bridge, State.modWing_wing]
      rfl
    exact hl _ (by simp [s1])
  have hdropped : s6.bridge = s2.bridge := by simp [s6, s5, s4, s3]
  have hanswered : s7.bridge = s2.bridge := by
    rw [State.endForwarded_bridge (w := w), State.endCrossAll_bridge, hdropped]
    rw [State.endCrossAll_bridge, hdropped, hset]
    rcases hst with e | e <;> simp [e]
  have hserved : s10.bridge = s2.bridge := by simp [s10, s9, s8, stopped, hanswered]
  refine ⟨st, hst, ?_⟩
  rw [if_neg (by simp [x, h, hr]), State.bridge_ite, State.rhlFreeze_bridge, ite_self, hserved, hset]

end Sys2Proof.Machine
end

section
/-! A Rehearsal record starts no replay (O52): it leaves a logger as it was, or stops it. -/

namespace Sys2Proof.Machine

theorem Rhl.append_st (r : Rhl) (rt t : Nat) (c b : Bytes) (n : Nat) : (r.append rt t c b n).st = r.st := by
  have hclose : (r.closeBlock rt).st = r.st := by
    unfold Rhl.closeBlock
    split <;> rfl
  unfold Rhl.append
  dsimp only
  (repeat' split) <;> first | rfl | exact hclose

theorem Rhl.put_st (r : Rhl) (rt t : Nat) (c b : Bytes) (n : Nat) (d : Bytes) : (r.put rt t c b n d).st = r.st := by
  unfold Rhl.put
  dsimp only
  split <;> simp only [Rhl.append_st]

/-- A logger is as it was, or has stopped. -/
def LogKept (s t : State) : Prop := ∀ v, (t.wing v).rhl.st = (s.wing v).rhl.st ∨ (t.wing v).rhl.st = .frozen

theorem LogKept.refl (s : State) : LogKept s s := fun _ => .inl rfl

theorem LogKept.trans {s t u : State} (h : LogKept s t) (k : LogKept t u) : LogKept s u := by
  intro v
  rcases k v with e | e
  · rw [e]
    exact h v
  · exact .inr e

theorem LogKept.not_replaying {s t : State} (h : LogKept s t) {v : Wing} (hr : (s.wing v).rhl.st ≠ .replaying) :
    (t.wing v).rhl.st ≠ .replaying := by
  rcases h v with e | e <;> rw [e]
  · exact hr
  · decide

theorem State.modWing_logKept (s : State) (w : Wing) (f : WingSt → WingSt)
    (h : ∀ x, (f x).rhl.st = x.rhl.st ∨ (f x).rhl.st = .frozen) : LogKept s (s.modWing w f) := by
  intro v
  cases w <;> cases v <;> first | exact .inl rfl | exact h _

theorem State.rhlStop_logKept (s : State) (w : Wing) (a b : Nat) : LogKept s (s.rhlStop w a b) :=
  (s.modWing_logKept w _ fun _ => .inr rfl).trans (State.modWing_logKept _ w _ fun _ => .inl rfl)

theorem State.rhlPut1_logKept (s : State) (w : Wing) (t : Nat) (c b : Bytes) (n : Nat) : LogKept s (s.rhlPut1 w t c b n) := by
  unfold State.rhlPut1
  extract_lets r spare stopping digest
  split
  · exact .refl s
  · split
    · have happ : LogKept s stopping := s.modWing_logKept w _ fun _ => .inl (Rhl.append_st ..)
      split <;> exact happ.trans (State.rhlStop_logKept _ w _ _)
    · exact s.modWing_logKept w _ fun _ => .inl (Rhl.put_st ..)

theorem State.rhlPut_logKept (s : State) (w : Wing) (t : Nat) (c b : Bytes) (n : Nat) : LogKept s (s.rhlPut w t c b n) := by
  unfold State.rhlPut
  dsimp only
  split
  · exact (s.rhlPut1_logKept w _ _ _ _).trans (State.rhlPut1_logKept _ w t c b n)
  · exact s.rhlPut1_logKept w t c b n

theorem State.foldl_logKept {β : Type} (f : State → β → State) (h : ∀ s e, LogKept s (f s e)) (l : List β) (s : State) :
    LogKept s (l.foldl f s) := by
  induction l generalizing s with
  | nil => exact .refl s
  | cons e l ih => exact (h s e).trans (ih _)

theorem State.rhlRec_logKept (s : State) (w : Wing) (t : Nat) (c b : Bytes) (n : Nat) : LogKept s (s.rhlRec w t c b n) := by
  unfold State.rhlRec
  split
  · extract_lets granted cleared
    have hg : LogKept s granted := State.foldl_logKept _ (fun s e => s.rhlPut_logKept w _ _ _ _) _ s
    have hc : LogKept granted cleared := granted.modWing_logKept w _ fun _ => .inl rfl
    exact (hg.trans hc).trans (cleared.rhlPut_logKept w t c b n)
  · exact .refl s

end Sys2Proof.Machine
end

section
/-! The events of the bridge and the heartbeats (O52): one lemma for what each of them comes to where it is due, then the
statement. -/

namespace Sys2Proof.Machine

/-! ## What a wing that runs is -/

theorem State.wingRuns_iff {s : State} {w : Wing} : s.wingRuns w = true ↔
    s.pwr.awake = true ∧ s.boot.phase = .ready ∧ (s.wing w).failed = false ∧ (s.wing w).rhl.st ≠ .replaying := by
  simp [State.wingRuns, and_assoc]

/-! ## Tokens -/

/-- A token that a wing hears is recorded at both ends (R398). -/
def State.tokenRecorded (s : State) (w : Wing) (t : BridgeTok) : State :=
  (s.takeFree.rhlRec w 0x0A (leBytes 1 (b2n (t = .work) * 2)) (leBytes 6 s.freeVal) 3).rhlRec (otherWing w) 0x0A
    (leBytes 1 (1 + b2n (t = .work) * 2)) (leBytes 6 s.freeVal) 3

theorem State.tokenRecorded_bridge (s : State) (w : Wing) (t : BridgeTok) : (s.tokenRecorded w t).bridge = s.bridge := by
  simp [State.tokenRecorded]

theorem State.tokenRecorded_rt (s : State) (w : Wing) (t : BridgeTok) : (s.tokenRecorded w t).rt = s.rt := by
  simp [State.tokenRecorded, State.rt]

theorem State.tokenRecorded_logKept (s : State) (w : Wing) (t : BridgeTok) : LogKept s (s.tokenRecorded w t) :=
  (State.rhlRec_logKept s.takeFree w _ _ _ _).trans (State.rhlRec_logKept _ (otherWing w) _ _ _ _)

theorem execBridgeToken_good {s : State} {w : Wing} {t : BridgeTok} (hw : s.wingRuns w = true) (ht : s.tokSent w t = true) :
    exec (.bridgeToken w t true) s
      = .next ((s.tokenRecorded w t).hearToken w ((s.tokenRecorded w t).tokLink w t)) := by
  show execBridgeToken w t true s = _
  simp [execBridgeToken, hw, ht, State.tokenRecorded]

theorem execBridgeToken_unsent {s : State} {w : Wing} {t : BridgeTok} (ok : Bool) (ht : s.tokSent w t = false) :
    exec (.bridgeToken w t ok) s = .next s := by
  show execBridgeToken w t ok s = _
  simp [execBridgeToken, ht]

/-- A token that carries no declaration renews the time of the last one, and leaves the link state. -/
theorem State.hearToken_bridge {s : State} {w : Wing} {l : Option Link} (hl : ¬(l = some .partitioned ∨ l = some .farLost)) :
    (s.hearToken w l).bridge w = ((s.wing w).link, s.rt) := by
  unfold State.hearToken
  rw [if_neg hl, State.bridge, State.modWing_wing]
  rfl

/-- A beacon of a wing that has declared: the wing that hears it declares too (R330). -/
theorem State.hearToken_declares {s : State} {w : Wing} {l : Option Link} (hl : l = some .partitioned ∨ l = some .farLost)
    (hj : (s.wing w).link = .joined) (hr : (s.wing w).rhl.st ≠ .replaying) :
    ∃ k, (k = .partitioned ∨ k = .farLost) ∧ (s.hearToken w l).bridge w = (k, s.rt) := by
  unfold State.hearToken
  extract_lets u
  rw [if_pos hl]
  have hu : (u.wing w).link = (s.wing w).link ∧ (u.wing w).rhl = (s.wing w).rhl ∧ (u.wing w).lastTok = s.rt := by
    simp [u]
  obtain ⟨hlink, hrhl, htok⟩ := hu
  obtain ⟨k, hk, hb⟩ := State.declareLost_bridge (s := u) (w := w) 2 (by rw [hlink, hj]) (by rw [hrhl]; exact hr)
  exact ⟨k, hk, by rw [hb, ← htok]; rfl⟩

/-- A beacon of a joined wing's far wing: the wing leaves JOINED exactly where the far wing has declared. -/
theorem State.hearToken_beacon {s : State} {w : Wing} (hj : (s.wing w).link = .joined) (hr : (s.wing w).rhl.st ≠ .replaying)
    (l : Link) : ((s.hearToken w (some l)).wing w).lastTok = s.rt
      ∧ (l = .partitioned ∨ l = .farLost ↔ ((s.hearToken w (some l)).wing w).link ≠ .joined) := by
  by_cases hl : l = .partitioned ∨ l = .farLost
  · obtain ⟨k, hk, hb⟩ := State.hearToken_declares (s := s) (w := w) (l := some l) (by simpa using hl) hj hr
    obtain ⟨hlink, htok⟩ := Prod.mk.inj hb
    refine ⟨htok, iff_of_true hl ?_⟩
    rw [hlink]
    rcases hk with e | e <;> simp [e]
  · obtain ⟨hlink, htok⟩ := Prod.mk.inj (State.hearToken_bridge (s := s) (w := w) (l := some l) (by simpa using hl))
    refine ⟨htok, iff_of_false hl ?_⟩
    rw [hlink, hj]
    simp

/-- What a token that fails parity comes to while JOINED (R330, R333). -/
theorem execBridgeToken_bad {s u v x : State} {w : Wing} {tok : BridgeTok} {ts : List Nat} (hw : s.wingRuns w = true)
    (hj : (s.wing w).link = .joined) (ht : s.tokSent w tok = true)
    (hu : u = (s.countWing w .brgParity).rhlFault w 0 (unitName 8 0 w))
    (hts : ts = (s.wing w).parTimes.filter (fun r => decide (s.rt < r + 20000)) ++ [s.rt])
    (hv : v = u.modWing w fun y => { y with parTimes := ts }) (hx : x = if tok = .work then v.restartLost else v) :
    exec (.bridgeToken w tok false) s = .next (if 16 ≤ ts.length then x.declareLost w 1 else x) := by
  have hrt : u.rt = s.rt := by simp [hu, State.rt]
  show execBridgeToken w tok false s = _
  simp only [execBridgeToken, hw, ht, hj, Bool.not_true, Bool.not_false, Bool.false_eq_true, or_self, if_false, if_true]
  rw [← hu, hrt, ← hts, ← hv, ← hx]

theorem State.restartLost_idle {s : State} (hw : s.lentWork = []) (hl : s.crossLines = []) : s.restartLost = s := by
  simp [State.restartLost, hw, hl]

/-! ## Silence and liveness -/

theorem execBridgeSilence_joined {s : State} {w : Wing} (hw : s.wingRuns w = true) (hj : (s.wing w).link = .joined)
    (hq : (s.wing w).lastTok + 20000 ≤ s.rt) : exec (.bridgeSilence w) s = .next (s.declareLost w 0) := by
  show execBridgeSilence w s = _
  simp [execBridgeSilence, hw, hj, hq]

theorem execBridgeSilence_heard {s : State} {w : Wing} (hq : s.rt < (s.wing w).lastTok + 20000) :
    exec (.bridgeSilence w) s = .next s := by
  show execBridgeSilence w s = _
  simp [execBridgeSilence, hq]

/-- A wing's liveness mark, renewed (R330). -/
def State.renewMark (s : State) (w : Wing) : State := s.modVlt fun v => match w with
  | .sl => { v with markSl := some v.rt }
  | .sr => { v with markSr := some v.rt }

theorem State.renewMark_mark (s : State) (w : Wing) :
    (s.renewMark w).mark w = some s.rt ∧ (s.renewMark w).mark (otherWing w) = s.mark (otherWing w) := by
  cases w <;> exact ⟨rfl, rfl⟩

theorem State.mark_of_vlt {s t : State} (h : t.vlt = s.vlt) (w : Wing) : t.mark w = s.mark w := by
  cases w <;> simp [State.mark, h]

theorem State.renewMark_wing (s : State) (w v : Wing) : (s.renewMark w).wing v = s.wing v := by
  cases v <;> rfl

theorem State.renewMark_wingRuns (s : State) (w v : Wing) : (s.renewMark w).wingRuns v = s.wingRuns v := by
  cases v <;> rfl

theorem execLivenessMark_renews {s : State} {w : Wing} (hw : s.wingRuns w = true) (hp : s.pathLost w = false) :
    exec (.livenessMark w) s = .next (if (s.wing (otherWing w)).link = .farLost ∧ s.wingRuns (otherWing w) = true
      then (s.renewMark w).setLink (otherWing w) .partitioned else s.renewMark w) := by
  obtain ⟨-, -, hf, -⟩ := State.wingRuns_iff.1 hw
  have hgo : ¬(!s.wingRuns w ∨ s.pathLost w) := by simp [hw, hp]
  show execLivenessMark w s = _
  rw [execLivenessMark, if_neg hgo]
  show Host.Outcome.next (if ((s.renewMark w).wing (otherWing w)).link = .farLost
    ∧ (s.renewMark w).wingRuns (otherWing w) = true ∧ (!((s.renewMark w).wing w).failed) = true
    then (s.renewMark w).setLink (otherWing w) .partitioned else s.renewMark w) = _
  simp only [State.renewMark_wing, State.renewMark_wingRuns, hf, Bool.not_false, and_true]

theorem State.setLink_partitioned_vlt (s : State) (w : Wing) : (s.setLink w .partitioned).vlt = s.vlt := by
  simp [State.setLink]

theorem State.setLink_partitioned_link (s : State) (w : Wing) : ((s.setLink w .partitioned).wing w).link = .partitioned := by
  have hlog := State.log_keeps (g := WingSt.link) ⟨fun _ _ => rfl, fun _ _ => rfl, fun _ _ => rfl⟩
    (s.modWing w fun x => { x with link := .partitioned }) w w .linkState 0 1 0 0
  rw [State.modWing_wing] at hlog
  simpa [State.setLink, Link.code] using hlog

theorem execFarMarkStale_declared {s : State} {w : Wing} (hw : s.wingRuns w = true) (hl : (s.wing w).link = .partitioned)
    (hm : s.markFresh (otherWing w) = false) : exec (.farMarkStale w) s = .next (s.setLink w .farLost) := by
  show execFarMarkStale w s = _
  simp [execFarMarkStale, hw, hl, hm]

theorem execRejoinReady_heard {s : State} {w : Wing} (hw : s.wingRuns w = true) (hl : (s.wing w).link = .partitioned)
    (hr : (s.wing w).tokRun + 20000 ≤ s.rt) (ht : s.rt < (s.wing w).lastTok + 20000) (hf : (s.wing w).farOk = true) :
    exec (.rejoinReady w) s
      = .next ((s.modWing w fun y => { y with link := .rejoinReady }).log w .bridgeRestored 0 0 0 0) := by
  show execRejoinReady w s = _
  simp [execRejoinReady, hw, hl, hr, ht, hf]

/-! ## Heartbeats -/

theorem State.modCore_congr {s : State} {c : CoreId} {f g : Core → Core} (h : f (s.core c) = g (s.core c)) :
    s.modCore c f = s.modCore c g := by
  simp only [State.core] at h
  rw [State.modCore, State.modCore, h]

section Heartbeats

variable {s : State} {c : CoreId} (ha : s.pwr.awake = true) (hb : s.boot.phase = .ready) (hc : (s.core c).beating = true)

include ha hb hc

theorem execHeartbeat_watched (hj : s.joined = true) (hs : (s.core c).suspended = false) (got : Nat)
    (hg : got = if (s.core (otherCore c)).able then (s.core c).got + 1 else 0) :
    exec (.heartbeat c) s = .next (s.modCore c fun x =>
      { x with beats := (x.beats + 1) % 2 ^ 16, beatAt := s.rt, missed := 0, got := got, armed := decide (3 ≤ got) }) := by
  have hgo : ¬(!(s.pwr.awake ∧ s.boot.phase = .ready ∧ (s.core c).beating)) := by simp [ha, hb, hc]
  show execHeartbeat c s = _
  rw [execHeartbeat, if_neg hgo]
  refine congrArg Host.Outcome.next (State.modCore_congr ?_)
  simp [hj, hs, hg]

theorem execHeartbeat_unwatched (hw : (s.joined && !(s.core c).suspended) = false) :
    exec (.heartbeat c) s = .next (s.modCore c fun x => { x with beats := (x.beats + 1) % 2 ^ 16, beatAt := s.rt }) := by
  have hgo : ¬(!(s.pwr.awake ∧ s.boot.phase = .ready ∧ (s.core c).beating)) := by simp [ha, hb, hc]
  show execHeartbeat c s = _
  rw [execHeartbeat, if_neg hgo]
  simp [hw]

theorem execHeartbeatMiss_due (hj : s.joined = true) (hs : (s.core c).suspended = false) (hg : (s.core c).got ≠ 0)
    (ht : (s.core c).beatAt + 1000000 * ((s.core c).missed + 1) ≤ s.rt) (u : State)
    (hu : u = s.modCore c fun x => { x with missed := min 3 (x.missed + 1) }) :
    exec (.heartbeatMiss c) s = .next (if 2 ≤ (s.core c).missed ∧ (s.core c).armed = true then
      (u.rhlFault (homeWing c) 1 (unitName 3 0 (homeWing c))).loseCore c else u) := by
  have hgo : ¬(!(s.pwr.awake ∧ s.boot.phase = .ready ∧ s.joined) ∨ !(s.core c).beating ∨ (s.core c).suspended ∨ (s.core c).got = 0
      ∨ s.rt < (s.core c).beatAt + 1000000 * ((s.core c).missed + 1)) := by simp [ha, hb, hj, hc, hs, hg, ht]
  have hthird : 3 ≤ (u.core c).missed ↔ 2 ≤ (s.core c).missed := by
    rw [hu, State.modCore_core]
    show 3 ≤ min 3 ((s.core c).missed + 1) ↔ _
    omega
  have harmed : (u.core c).armed = (s.core c).armed := by rw [hu, State.modCore_core]
  show execHeartbeatMiss c s = _
  simp only [execHeartbeatMiss, if_neg hgo, ← hu, hthird, harmed]

end Heartbeats

/-! ## The statement -/

/-- The clauses of the tokens. -/
theorem bridgeToken_outcomes {s : State} {w : Wing} (hw : s.wingRuns w = true) :
    (∃ t, exec (.bridgeToken w .work true) s = .next t ∧ (t.wing w).lastTok = s.rt ∧ (t.wing w).link = (s.wing w).link)
      ∧ (∀ l, l ≠ (s.wing (otherWing w)).link.code → ∀ parityOk, exec (.bridgeToken w (.beacon l) parityOk) s = .next s)
      ∧ (∀ l, l = (s.wing (otherWing w)).link.code → (s.wing w).link = .joined →
        ∃ t, exec (.bridgeToken w (.beacon l) true) s = .next t ∧ (t.wing w).lastTok = s.rt
          ∧ ((s.wing (otherWing w)).link = .partitioned ∨ (s.wing (otherWing w)).link = .farLost ↔ (t.wing w).link ≠ .joined)) := by
  have hlink : ∀ tok v, ((s.tokenRecorded w tok).wing v).link = (s.wing v).link := fun tok v =>
    congrArg Prod.fst (congrFun (s.tokenRecorded_bridge w tok) v)
  refine ⟨?work, ?unsent, ?beacon⟩
  case work =>
    obtain ⟨hl, ht⟩ := Prod.mk.inj (State.hearToken_bridge (s := s.tokenRecorded w .work) (w := w) (l := none) (by simp))
    exact ⟨_, execBridgeToken_good hw rfl, ht.trans (s.tokenRecorded_rt w .work), hl.trans (hlink .work w)⟩
  case unsent =>
    intro l hl ok
    exact execBridgeToken_unsent ok (decide_eq_false hl)
  case beacon =>
    intro l hl hj
    obtain ⟨-, -, -, hr⟩ := State.wingRuns_iff.1 hw
    obtain ⟨ht, hd⟩ := State.hearToken_beacon (s := s.tokenRecorded w (.beacon l)) (w := w) ((hlink _ w).trans hj)
      ((s.tokenRecorded_logKept w _).not_replaying hr) ((s.tokenRecorded w (.beacon l)).wing (otherWing w)).link
    rw [hlink _ (otherWing w)] at hd
    refine ⟨_, execBridgeToken_good hw (decide_eq_true hl), ht.trans (s.tokenRecorded_rt w _), ?_⟩
    rw [hd, State.tokLink, hlink _ (otherWing w)]

/-- Settles O52: each event's meaning, cut down by the guard that the hypotheses meet; that a beacon's declaration leaves the wing
apart and the time of the token as it is turns on `State.declareLost_bridge`. -/
theorem bridgeEvents : Obligations.BridgeEvents := by
  unfold Obligations.BridgeEvents
  intro s w c
  refine ⟨fun hw => ?wing, ?undeclared, fun ha hb hc => ?core⟩
  case wing =>
    obtain ⟨hgood, hunsent, hbeacon⟩ := bridgeToken_outcomes hw
    refine ⟨hgood, hunsent, hbeacon, ?bad, execBridgeSilence_joined hw, execBridgeSilence_heard, ?mark, ?markBack,
      execFarMarkStale_declared hw, execRejoinReady_heard hw⟩
    case bad =>
      intro hj u v ts tok ht hu hts hv
      refine ⟨fun x hx => ?_, State.restartLost_idle⟩
      rw [execBridgeToken_bad hw hj ht hu hts hv hx]
      exact ⟨fun h => by rw [if_neg (Nat.not_le.2 h)], fun h => by rw [if_pos h]⟩
    case mark =>
      intro hp hfar
      rw [execLivenessMark_renews hw hp, if_neg hfar]
      exact ⟨_, rfl, (s.renewMark_mark w).1, (s.renewMark_mark w).2, rfl⟩
    case markBack =>
      intro hp hl hr
      rw [execLivenessMark_renews hw hp, if_pos ⟨hl, hr⟩]
      refine ⟨_, rfl, ?_, State.setLink_partitioned_link _ _⟩
      rw [State.mark_of_vlt (State.setLink_partitioned_vlt _ _), (s.renewMark_mark w).1]
  case undeclared =>
    intro cause hl
    rw [State.declareLost, if_pos (.inl hl)]
  case core =>
    have joined (hsl : s.sl.link = .joined) (hsr : s.sr.link = .joined) : s.joined = true := decide_eq_true ⟨hsl, hsr⟩
    refine ⟨?watched, ?unwatched, ?miss⟩
    case watched =>
      intro got hsl hsr hs hg
      exact execHeartbeat_watched ha hb hc (joined hsl hsr) hs got hg
    case unwatched =>
      intro h
      apply execHeartbeat_unwatched ha hb hc
      rcases h with h | h | h <;> simp [State.joined, h]
    case miss =>
      rintro hsl hsr hs hg ht u rfl
      rw [execHeartbeatMiss_due ha hb hc (joined hsl hsr) hs hg ht _ rfl]
      refine ⟨fun h => ?_, fun h2 h3 => by rw [if_pos ⟨h2, h3⟩]⟩
      rw [if_neg]
      rintro ⟨h2, h3⟩
      rcases h with h | h
      · omega
      · simp [h] at h3

end Sys2Proof.Machine
end

section
/-! The test access port (O37): a scan where the port takes its inputs, and one where it does not. -/

namespace Sys2Proof.Machine

/-- Where the VDDC domain takes its inputs and TRST_N is not asserted, a scan shifts its register. -/
theorem State.tapScan_taken {s : State} (hc : s.cpUp = true) (ht : s.pwr.trst = false) (f : Tap → Tap) :
    s.tapScan f = { s with tap := f s.tap } := by
  simp [State.tapScan, hc, ht]

theorem State.tapScan_ignored {s : State} (h : s.cpUp = false ∨ s.pwr.trst = true) (f : Tap → Tap) : s.tapScan f = s := by
  unfold State.tapScan
  rw [if_neg]
  rcases h with h | h <;> simp [h]

theorem State.logBoth_cpUp (s : State) (e : Ev) (u a b c : Nat) : (s.logBoth e u a b c).cpUp = s.cpUp := by
  simp [State.cpUp]

/-- An instruction of Faneam's own outside BLANK is logged on both Call Boards and acts as BYPASS (R78). -/
theorem execTapTestAccess_logged {s : State} (code : Word) (tdi : List Bool) (hc : s.cpUp = true) (ht : s.pwr.trst = false)
    (hlc : s.vlt.lcCode ≠ 1) : exec (.tapTestAccess code tdi) s
      = .next { s.logBoth .testAccess 0 code.toNat 0 0 with tap := s.tap.scanBypass 4 tdi } := by
  show execTapTestAccess code tdi s = _
  have hgo : ¬(!s.cpUp ∨ s.pwr.trst) := by simp [hc, ht]
  rw [execTapTestAccess, if_neg hgo, if_neg hlc, State.tapScan_taken (by rw [State.logBoth_cpUp, hc]) (by simpa using ht),
    State.logBoth_tap]

theorem execTapTestAccess_blank {s : State} (code : Word) (tdi : List Bool) (hc : s.cpUp = true) (ht : s.pwr.trst = false)
    (hlc : s.vlt.lcCode = 1) : exec (.tapTestAccess code tdi) s = .refused .privateTest := by
  show execTapTestAccess code tdi s = _
  have hgo : ¬(!s.cpUp ∨ s.pwr.trst) := by simp [hc, ht]
  rw [execTapTestAccess, if_neg hgo, if_pos hlc]

theorem execTapTestAccess_ignored {s : State} (code : Word) (tdi : List Bool) (h : s.cpUp = false ∨ s.pwr.trst = true) :
    exec (.tapTestAccess code tdi) s = .next s := by
  show execTapTestAccess code tdi s = _
  rw [execTapTestAccess, if_pos]
  simpa using h

/-- Settles O37: a scan that the port takes replaces the state of the port alone, by the register's capture and shift. -/
theorem testPort : Obligations.TestPort := by
  unfold Obligations.TestPort
  refine ⟨fun s pins tdi code hc ht => ?taken, fun s pins tdi code h => ?ignored⟩
  case taken =>
    have hscan : ∀ f, s.tapScan f = { s with tap := f s.tap } := State.tapScan_taken hc ht
    exact ⟨congrArg Host.Outcome.next (hscan _), ⟨_, congrArg Host.Outcome.next (hscan _), rfl, rfl⟩,
      ⟨_, congrArg Host.Outcome.next (hscan _), rfl, rfl, rfl⟩, ⟨_, congrArg Host.Outcome.next (hscan _), rfl, rfl, rfl⟩,
      execTapTestAccess_blank code tdi hc ht, execTapTestAccess_logged code tdi hc ht⟩
  case ignored =>
    have hscan : ∀ f, s.tapScan f = s := State.tapScan_ignored h
    exact ⟨congrArg Host.Outcome.next (hscan _), congrArg Host.Outcome.next (hscan _), congrArg Host.Outcome.next (hscan _),
      congrArg Host.Outcome.next (hscan _), execTapTestAccess_ignored code tdi h⟩

end Sys2Proof.Machine
end

section
/-! The signals of ports (O39): credit pulses, LS_HOLD, the resets of sides and their release, and lost clocks. -/

namespace Sys2Proof.Machine

/-! ## What a changed port leaves -/

theorem State.modPort_modPort (s : State) (p : Fin 64) (f g : Port → Port) :
    (s.modPort p f).modPort p g = s.modPort p fun x => g (f x) := by
  simp [State.modPort]

theorem State.modPort_congr {s : State} {p : Fin 64} {f g : Port → Port} (h : f s.ports[p] = g s.ports[p]) :
    s.modPort p f = s.modPort p g := by
  rw [State.modPort, State.modPort, h]

/-- A change of a port's registers: that port is changed, and nothing else. -/
theorem State.modPort_outcome (s : State) (p : Fin 64) (f : Port → Port) :
    ∃ t, Host.Outcome.next (φ := Fault) (ρ := Refusal) (s.modPort p f) = .next t ∧ t = { s with ports := t.ports }
      ∧ t.ports[p] = f s.ports[p] ∧ ∀ r : Fin 64, r ≠ p → t.ports[r] = s.ports[r] :=
  ⟨_, rfl, rfl, s.modPort_self p f, fun r h => s.modPort_ne p r f h.symm⟩

theorem Port.sideGone_host {x : Port} (h : x.hsRst = true) : x.sideGone false = true := by simp [Port.sideGone, h]

theorem Port.sideGone_line {x : Port} (h : x.lsRst = true) : x.sideGone true = true := by simp [Port.sideGone, h]

/-! ## Credit pulses (R59) -/

/-- A cell counted on HS_O or, where `line`, on LS_O. -/
def Port.countCell (x : Port) (line : Bool) : Port :=
  if line then { x with lsOCred := x.lsOCred + 1, pulses := x.pulses.set 3 (x.pulses[3] + 1) }
  else { x with hsOCred := x.hsOCred + 1, pulses := x.pulses.set 2 (x.pulses[2] + 1) }

/-- An excess pulse counted on HS_O or, where `line`, on LS_O. -/
def Port.countExcess (x : Port) (line : Bool) : Port :=
  if line then { x with pulses := x.pulses.set 3 (x.pulses[3] + 1), lsOExcess := x.lsOExcess + 1 }
  else { x with pulses := x.pulses.set 2 (x.pulses[2] + 1), hsOExcess := x.hsOExcess + 1 }

section Pulses

variable {s : State} {p : Fin 64} {line : Bool}

theorem execCreditPulse_ignored (h : s.ports[p].sideGone line = true ∨ s.cpUp = false) :
    exec (.creditPulse p line) s = .next s := by
  show execCreditPulse p line s = _
  rw [execCreditPulse]
  exact if_pos (by simpa using h)

theorem execCreditPulse_counts (hc : s.cpUp = true) (hg : s.ports[p].sideGone line = false)
    (h : (if line then s.ports[p].lsOCred else s.ports[p].hsOCred) < 1023) :
    exec (.creditPulse p line) s = .next (s.modPort p (Port.countCell · line)) := by
  have hgo : ¬(s.ports[p].sideGone line ∨ !s.cpUp) := by rw [hg, hc]; simp
  show execCreditPulse p line s = _
  rw [execCreditPulse, if_neg hgo]
  dsimp only
  rw [if_pos h, State.modPort_modPort]
  cases line <;> rfl

theorem execCreditPulse_exceeds (hc : s.cpUp = true) (hg : s.ports[p].sideGone line = false)
    (h : 1023 ≤ if line then s.ports[p].lsOCred else s.ports[p].hsOCred) :
    exec (.creditPulse p line) s = .next (if (if line then s.ports[p].lsOExcess else s.ports[p].hsOExcess) % 1024 = 0
      then (s.modPort p (Port.countExcess · line)).log (portWing p) .creditOverflow p.val (if line then 3 else 2) 0 0
      else s.modPort p (Port.countExcess · line)) := by
  have hgo : ¬(s.ports[p].sideGone line ∨ !s.cpUp) := by rw [hg, hc]; simp
  show execCreditPulse p line s = _
  rw [execCreditPulse, if_neg hgo]
  dsimp only
  rw [if_neg (Nat.not_lt.2 h), State.modPort_modPort]
  rw [State.modPort_congr (g := (Port.countExcess · line)) (by cases line <;> rfl)]

end Pulses

/-! ## LS_HOLD (R58) -/

/-- LS_HOLD at a level with its reason, sampled at a moment of RT. -/
def Port.held (x : Port) (rt : Nat) (h : Bool) (r : BitVec 2) : Port :=
  { x with hold := h, holdRsn := r.toNat, holdSince := if h && !x.hold then rt else x.holdSince, holdSpent := x.holdSpent && h }

theorem execLsHold_ignored {s : State} {p : Fin 64} (hg : s.ports[p].sideGone true = true) (h : Bool) (r : BitVec 2) :
    exec (.lsHold p h r) s = .next s := by
  show execLsHold p h r s = _
  rw [execLsHold]
  exact if_pos hg

theorem execLsHold_taken {s u : State} {p : Fin 64} {h : Bool} {r : BitVec 2} (hc : s.cpUp = true)
    (hg : s.ports[p].sideGone true = false)
    (hu : u = if h = true ∧ r = 3 then (s.modPort p (Port.held · s.rt h r)).countPort p .lsHoldRsnReserved
      else s.modPort p (Port.held · s.rt h r)) :
    exec (.lsHold p h r) s = .next (if s.rhlPort p then
      u.rhlRec (portWing p) 0x04 (leBytes 1 p.val ++ leBytes 1 (b2n h) ++ leBytes 1 r.toNat) [] 2 else u) := by
  have hgo : ¬s.ports[p].sideGone true = true := by rw [hg]; simp
  have hheld : (s.modPort p fun x => { x with
      hold := h
      holdRsn := r.toNat
      holdSince := if h ∧ !x.hold then s.rt else x.holdSince
      holdSpent := x.holdSpent && h }) = s.modPort p (Port.held · s.rt h r) :=
    State.modPort_congr (by simp [Port.held])
  have hcp : (s.modPort p (Port.held · s.rt h r)).cpUp = true := hc
  have hcu : u.cpUp = true := by rw [hu]; split <;> exact hc
  have hru : u.rhlPort p = s.rhlPort p := by rw [hu]; split <;> rfl
  show execLsHold p h r s = _
  rw [execLsHold, if_neg hgo]
  dsimp only
  simp only [hheld, hcp, true_and, ← hu, hcu, hru]

/-! ## Resets and clocks of sides (R47, R48, R52, R54) -/

theorem execPortReset_standing {s : State} {x : PortSide} (h : s.sideRst x = true) : exec (.portReset x) s = .next s :=
  congrArg Host.Outcome.next (if_pos h)

theorem execPortReset_begins {s : State} {x : PortSide} (hc : s.cpUp = true) (h : s.sideRst x = false) :
    exec (.portReset x) s = .next ((s.forceSide .portResetWhileOpen x).holdSide x) := by
  show execPortReset x s = _
  simp [execPortReset, h, hc]

theorem State.forceSide_closed {s : State} {x : PortSide} (e : Ev) (h : s.sideOpen x = false) : s.forceSide e x = s := by
  simp [State.forceSide, h]

theorem State.forceSide_hs {s : State} {p : Fin 64} (e : Ev) (h : s.ports[p].st ≠ .closed) :
    s.forceSide e (.hs p) = (s.log (portWing p) e p.val 0 0 0).forcePort p := if_pos (decide_eq_true h)

theorem State.forceSide_ls {s : State} {p : Fin 64} (e : Ev) (h : s.ports[p].st ≠ .closed) :
    s.forceSide e (.ls p) = (s.log (portWing p) e p.val 1 0 0).forcePort p := if_pos (decide_eq_true h)

theorem State.forceSide_rqp {s : State} {q : Fin 4} (e : Ev) (h : s.rqps[q].st ≠ .closed) :
    s.forceSide e (.rqp q) = (s.log (rqpWing q) e q.val 2 0 0).forceRqp q := if_pos (decide_eq_true h)

theorem execPortResetRelease_none {s : State} {x : PortSide} (h : s.sideRst x = false) :
    exec (.portResetRelease x) s = .next s := by
  show execPortResetRelease x s = _
  simp [execPortResetRelease, h]

/-- The guard of PORT_RESET_RELEASE is met where the side's reset stands. -/
theorem State.release_guard {s t : State} (x : PortSide) (h : s.sideRst x = true) : (if !s.sideRst x then s else t) = t :=
  if_neg (by simp [h])

theorem execPortClockLost_closed {s : State} {x : PortSide} (h : s.sideOpen x = false) :
    exec (.portClockLost x) s = .next s := by
  show execPortClockLost x s = _
  simp [execPortClockLost, h]

/-- The guard of PORT_CLOCK_LOST is met by a side that is open. -/
theorem State.clockLost_guard {s t : State} (x : PortSide) (hc : s.cpUp = true) (h : s.sideOpen x = true) :
    (if !s.cpUp ∨ !s.sideOpen x then s else t) = t :=
  if_neg (by simp [hc, h])

theorem execPortClockLost_mp {s : State} {m : Fin 4} (hc : s.cpUp = true) (hr : s.mps[m].rst = false)
    (hl : s.mps[m].clkLost = false) : exec (.portClockLost (.mp m)) s
      = .next (State.dropMp ((s.log (mpWing m) .portClockLost m.val 3 0 0).modMp m fun x => { x with clkLost := true }) m) := by
  have hopen : s.sideOpen (.mp m) = true := by rw [State.sideOpen, hr]; rfl
  have hfirst : ¬s.mps[m].clkLost = true := by rw [hl]; simp
  exact congrArg Host.Outcome.next ((State.clockLost_guard (.mp m) hc hopen).trans (if_neg hfirst))

/-! ## The statement -/

/-- Settles O39: each signal's meaning where its guard is met, and that it does nothing where its guard is not. -/
theorem portSignals : Obligations.PortSignals := by
  unfold Obligations.PortSignals
  intro s p q m side
  refine ⟨fun hc => ⟨?hsCell, ?lsCell, ?hsExcess, ?lsExcess, ?hold⟩, fun h => execCreditPulse_ignored (.inl (Port.sideGone_host h)),
    fun h => ⟨execCreditPulse_ignored (.inl (Port.sideGone_line h)), execLsHold_ignored (Port.sideGone_line h)⟩,
    fun hc hs => ⟨?reset, ?closed, ?opened⟩,
    fun h => congrArg Host.Outcome.next (State.release_guard (.hs p) h),
    fun h => congrArg Host.Outcome.next (State.release_guard (.ls p) h),
    fun h => congrArg Host.Outcome.next (State.release_guard (.rqp q) h),
    fun h => congrArg Host.Outcome.next (State.release_guard (.mp m) h),
    fun h => congrArg Host.Outcome.next (State.release_guard .cp h),
    fun h => congrArg Host.Outcome.next (State.release_guard .tap h),
    fun h => congrArg Host.Outcome.next (State.release_guard (.tod .sl) h),
    fun h => congrArg Host.Outcome.next (State.release_guard (.tod .sr) h),
    execPortReset_standing, execPortResetRelease_none,
    fun hc => ⟨execPortClockLost_closed, ?clock, ?rqpClock, execPortClockLost_mp hc⟩⟩
  case hsCell =>
    intro hg hlow
    rw [execCreditPulse_counts hc hg hlow]
    exact s.modPort_outcome p _
  case lsCell =>
    intro hg hlow
    rw [execCreditPulse_counts hc hg hlow]
    exact s.modPort_outcome p _
  case hsExcess =>
    rintro t hg hfull rfl
    exact execCreditPulse_exceeds hc hg hfull
  case lsExcess =>
    rintro t hg hfull rfl
    exact execCreditPulse_exceeds hc hg hfull
  case hold =>
    rintro h r t u hg rfl hu
    exact execLsHold_taken hc hg hu
  case reset => exact execPortReset_begins hc hs
  case closed =>
    intro hclosed
    rw [execPortReset_begins hc hs, State.forceSide_closed _ hclosed]
  case opened =>
    intro hopen hr
    rw [execPortReset_begins (x := .hs p) hc hr, State.forceSide_hs _ hopen]
    rfl
  case clock =>
    intro hopen
    have hside : decide (s.ports[p].st ≠ .closed) = true := decide_eq_true hopen
    exact ⟨congrArg Host.Outcome.next ((State.clockLost_guard (.hs p) hc hside).trans (State.forceSide_hs _ hopen)),
      congrArg Host.Outcome.next ((State.clockLost_guard (.ls p) hc hside).trans (State.forceSide_ls _ hopen))⟩
  case rqpClock =>
    intro hopen
    exact congrArg Host.Outcome.next
      ((State.clockLost_guard (.rqp q) hc (decide_eq_true hopen)).trans (State.forceSide_rqp _ hopen))

end Sys2Proof.Machine
end

section
/-! Frames at the pins (O38): what a frame comes to once its guards are met, its cells taken and its beats counted. -/

namespace Sys2Proof.Machine

open Sys2Proof.Safety

/-! ## What a port takes (R48, R52, R59) -/

/-- A side of a port takes what is presented on it, its credits apart. -/
structure TakesSide (s : State) (p : Fin 64) (line : Bool) : Prop where
  up : s.cpUp = true
  present : s.ports[p].sideGone line = false
  sound : (if line then s.ports[p].lsIFail else s.ports[p].hsIFail) = false
  opened : s.ports[p].st = .opened

theorem State.placeCurtain_takesSide {s : State} {p : Fin 64} {line : Bool} (h : TakesSide s p line) (c : Bool) :
    TakesSide (s.placeCurtain p c) p line := by
  obtain ⟨hc, hg, hf, ho⟩ := h
  cases c
  · exact ⟨hc, hg, hf, ho⟩
  · refine ⟨hc, ?_, ?_, ?_⟩ <;> rw [State.placeCurtain, if_pos rfl, State.modPort_self] <;> assumption

/-- Placing a curtain leaves the wings, the credits and the settings of the port. -/
theorem State.placeCurtain_port (s : State) (p : Fin 64) (c : Bool) :
    (s.placeCurtain p c).ports[p] = { s.ports[p] with barrier := (s.placeCurtain p c).ports[p].barrier } := by
  cases c
  · rfl
  · rw [State.placeCurtain, if_pos rfl, State.modPort_self]

theorem State.placeCurtain_flowing (s : State) (p : Fin 64) (c : Bool) (w : Wing) :
    (s.placeCurtain p c).flowing w = s.flowing w := by
  cases c <;> cases w <;> rfl

/-- What a frame comes to once its cells are taken (R59): its length against the MTU, then its beats against its length. -/
def State.judgeFrame (s : State) (p : Fin 64) (line : Bool) (mtu len got : Nat) (eof : Bool) : Bool × State :=
  if len = 0 ∨ mtu < len then (false, s.countPort p (if line then .lsLenInvalid else .hsLenInvalid))
  else match beatsOf len got eof with
    | .whole => (true, s)
    | .mismatch n =>
      (false, (s.countPort p (if line then .lsLenMismatch else .hsLenMismatch)).countPortN p
        (if line then .lsStrayBeat else .hsStrayBeat) n)
    | .cut => (false, s.countPort p (if line then .lsTruncated else .hsTruncated))

section Taken

variable {s : State} {p : Fin 64} {line : Bool} {len : Nat} {data side : Bytes} {eof : Bool}

theorem State.takeFrame_gone (h : s.ports[p].sideGone line = true) :
    s.takeFrame p line len data eof side = (false, s) := if_pos (.inl h)

theorem State.takeFrame_taken (h : TakesSide s p line) (hw : s.flowing (portWing p) = true) :
    s.takeFrame p line len data eof side
      = if (if line then s.ports[p].lsIHeld else s.ports[p].hsIHeld) < cells len then
          (false, (s.modPort p fun x => if line then { x with lsIFail := true } else { x with hsIFail := true }).log
            (portWing p) .creditViolation p.val (b2n line) 0 0)
        else (arrived s p line len side data).judgeFrame p line s.ports[p].sp.mtu len data.length eof := by
  obtain ⟨hc, hg, hf, ho⟩ := h
  have hgo : ¬(s.ports[p].sideGone line ∨ !s.cpUp ∨ (if line then s.ports[p].lsIFail else s.ports[p].hsIFail)) := by
    rw [hg, hc, hf]; simp
  have hopen : ¬s.ports[p].st ≠ .opened := not_not_intro ho
  have hflow : ¬(!s.flowing (portWing p)) = true := by rw [hw]; simp
  rw [State.takeFrame]
  dsimp only
  rw [if_neg hgo, if_neg hopen, if_neg hflow]
  rfl

end Taken

section Judged

variable (s : State) (p : Fin 64) (line : Bool) {mtu len got : Nat}

theorem State.judgeFrame_badLength (eof : Bool) (h : len = 0 ∨ mtu < len) :
    s.judgeFrame p line mtu len got eof = (false, s.countPort p (if line then .lsLenInvalid else .hsLenInvalid)) := if_pos h

theorem State.judgeFrame_whole {eof : Bool} (h1 : 1 ≤ len) (hm : len ≤ mtu) (he : eof = true)
    (hn : (got + 15) / 16 = (len + 15) / 16) : s.judgeFrame p line mtu len got eof = (true, s) := by
  have hlen : ¬(len = 0 ∨ mtu < len) := by omega
  have hb : beatsOf len got eof = .whole := by simp [beatsOf, he, hn]
  rw [State.judgeFrame, if_neg hlen, hb]

theorem State.judgeFrame_cut {eof : Bool} (h1 : 1 ≤ len) (hm : len ≤ mtu) (he : eof = false)
    (hn : (got + 15) / 16 < (len + 15) / 16) :
    s.judgeFrame p line mtu len got eof = (false, s.countPort p (if line then .lsTruncated else .hsTruncated)) := by
  have hlen : ¬(len = 0 ∨ mtu < len) := by omega
  have hb : beatsOf len got eof = .cut := by simp [beatsOf, he, hn]
  rw [State.judgeFrame, if_neg hlen, hb]

end Judged

/-! ## Frames from the host side (R52, R59, R163) -/

section Outbound

variable {s : State} {p : Fin 64} {f : HsFrame} (h : TakesSide s p false) (hw : s.flowing (portWing p) = true)

include h hw

theorem State.takesHost_taken : s.takesHost p = true := by
  obtain ⟨hc, hg, hf, ho⟩ := h
  have hf' : s.ports[p].hsIFail = false := hf
  rw [State.takesHost, hg, hc, hf', ho, hw]
  rfl

theorem execOutboundFrame_taken {ok : Bool} {u : State}
    (hu : (s.placeCurtain p f.curtain).takeFrame p false f.len.toNat f.data f.eof (hsSide f) = (ok, u)) :
    exec (.outboundFrame p f) s = .next ((if ok then u.selectFrame (outCarrier u p f) else u).credit p) := by
  show execOutboundFrame p f s = _
  simp only [execOutboundFrame, State.takesHost_taken h hw, Bool.and_true, hu]
  cases ok <;> rfl

theorem execOutboundFrame_covered (hk : cells f.len.toNat ≤ s.ports[p].hsIHeld) {ok : Bool} {u : State}
    (hu : (arrived (s.placeCurtain p f.curtain) p false f.len.toNat (hsSide f) f.data).judgeFrame p false s.ports[p].sp.mtu
      f.len.toNat f.data.length f.eof = (ok, u)) :
    exec (.outboundFrame p f) s = .next ((if ok then u.selectFrame (outCarrier u p f) else u).credit p) := by
  apply execOutboundFrame_taken h hw
  rw [State.takeFrame_taken (State.placeCurtain_takesSide h _) (by rw [State.placeCurtain_flowing, hw]),
    s.placeCurtain_port p f.curtain]
  exact (if_neg (Nat.not_lt.2 hk)).trans hu

/-- A frame that its credits do not cover fails the input (R59). -/
theorem execOutboundFrame_uncovered (hk : s.ports[p].hsIHeld < cells f.len.toNat) :
    exec (.outboundFrame p f) s = .next ((((s.placeCurtain p f.curtain).modPort p fun x => { x with hsIFail := true }).log
      (portWing p) .creditViolation p.val 0 0 0).credit p) := by
  have hu := State.takeFrame_taken (len := f.len.toNat) (data := f.data) (side := hsSide f) (eof := f.eof)
    (State.placeCurtain_takesSide h f.curtain) (by rw [State.placeCurtain_flowing, hw])
  rw [s.placeCurtain_port p f.curtain] at hu
  exact execOutboundFrame_taken h hw (hu.trans (if_pos hk))

end Outbound

theorem execOutboundFrame_gone {s : State} {p : Fin 64} (f : HsFrame) (h : s.ports[p].sideGone false = true) :
    exec (.outboundFrame p f) s = .next (s.credit p) := by
  have hhost : s.takesHost p = false := by rw [State.takesHost, h]; rfl
  show execOutboundFrame p f s = _
  simp only [execOutboundFrame, hhost, Bool.and_false, State.placeCurtain, Bool.false_eq_true, if_false, State.takeFrame_gone h]

/-! ## Frames from the line (R52, R57, R59) -/

theorem execInboundFrame_whole {s : State} {p : Fin 64} {f : LsFrame} (h : TakesSide s p true)
    (hw : s.flowing (portWing p) = true) (hk : cells f.len.toNat ≤ s.ports[p].lsIHeld) {u : State}
    (hu : (arrived s p true f.len.toNat (leBytes 1 (b2n f.err)) f.data).judgeFrame p true s.ports[p].sp.mtu f.len.toNat
      f.data.length f.eof = (true, u)) :
    exec (.inboundFrame p f) s = if f.err
      then .next (((u.countPort p .lsErr).abortCut p (padTo f.len.toNat f.data)).credit p)
      else .next ((u.takeIn (u.inCarrier p (padTo f.len.toNat f.data))).credit p) := by
  have ht := (State.takeFrame_taken (len := f.len.toNat) (data := f.data) (side := leBytes 1 (b2n f.err)) (eof := f.eof) h
    hw).trans ((if_neg (Nat.not_lt.2 hk)).trans hu)
  show execInboundFrame p f s = _
  simp only [execInboundFrame, ht]

theorem execInboundFrame_gone {s : State} {p : Fin 64} (f : LsFrame) (h : s.ports[p].sideGone true = true) :
    exec (.inboundFrame p f) s = .next (s.credit p) := by
  show execInboundFrame p f s = _
  simp only [execInboundFrame, State.takeFrame_gone h, ne_eq, not_true_eq_false, decide_false, Bool.false_eq_true, if_false]

/-! ## Beats of no frame (R59) -/

theorem execStrayBeat_counts {s : State} {p : Fin 64} {line : Bool} (h : TakesSide s p line) :
    exec (.strayBeat p line) s = .next (s.countPort p (if line then .lsStrayBeat else .hsStrayBeat)) := by
  obtain ⟨hc, hg, hf, ho⟩ := h
  have hgo : ¬(s.ports[p].sideGone line ∨ !s.cpUp ∨ (if line then s.ports[p].lsIFail else s.ports[p].hsIFail)) := by
    rw [hg, hc, hf]; simp
  exact (if_neg hgo).trans (if_neg (not_not_intro ho))

theorem execStrayBeat_gone {s : State} {p : Fin 64} {line : Bool} (h : s.ports[p].sideGone line = true) :
    exec (.strayBeat p line) s = .next s := if_pos (.inl h)

/-! ## The statement -/

/-- Settles O38: the guards of a frame are met, and its length, its credits and its beats decide what it comes to. -/
theorem frameArrivals : Obligations.FrameArrivals := by
  unfold Obligations.FrameArrivals
  refine ⟨fun s p n k hc ho hw hn => ⟨?outbound, ?inbound, ?hostStray, ?lineStray⟩, fun s p => ⟨?hostReset, ?lineReset⟩⟩
  case outbound =>
    rintro f v u rfl hg hf rfl rfl
    have h : TakesSide s p false := ⟨hc, hg, hf, ho⟩
    refine ⟨fun hk h1 hm he hb => ?whole, fun hk hl => ?badLength, fun hk h1 hm he hb => ?cut,
      execOutboundFrame_uncovered h hw⟩
    case whole => exact execOutboundFrame_covered h hw hk (State.judgeFrame_whole _ _ _ h1 hm he (hb.trans hn))
    case badLength =>
      have hx := execOutboundFrame_covered h hw hk (State.judgeFrame_badLength _ _ _ _ hl)
      exact hx
    case cut =>
      have hx := execOutboundFrame_covered h hw hk (State.judgeFrame_cut _ _ _ h1 hm he (hn ▸ hb))
      exact hx
  case inbound =>
    rintro f u rfl hg hf rfl hk h1 hm he hb
    have h : TakesSide s p true := ⟨hc, hg, hf, ho⟩
    have hx := execInboundFrame_whole h hw hk (State.judgeFrame_whole _ _ _ h1 hm he (hb.trans hn))
    exact ⟨fun herr => hx.trans (if_neg (by simp [herr])), fun herr => hx.trans (if_pos herr)⟩
  case hostStray => exact fun hg hf => execStrayBeat_counts ⟨hc, hg, hf, ho⟩
  case lineStray => exact fun hg hf => execStrayBeat_counts ⟨hc, hg, hf, ho⟩
  case hostReset =>
    exact fun h f => ⟨execOutboundFrame_gone f (Port.sideGone_host h), execStrayBeat_gone (Port.sideGone_host h)⟩
  case lineReset =>
    exact fun h f => ⟨execInboundFrame_gone f (Port.sideGone_line h), execStrayBeat_gone (Port.sideGone_line h)⟩

end Sys2Proof.Machine
end

section
/-! The pins of the memory side (O44): write data and responses on the request ports, requests and answers on the memory ports. -/

namespace Sys2Proof.Machine

/-! ## Write data (R62, R69) -/

section WriteData

variable {s : State} {q : Fin 4}

theorem execWriteData_taken (ho : s.rqps[q].st ≠ .closed) (hr : s.rqps[q].rst = false) (hs : s.rqps[q].struck = false)
    (hl : s.rhlMem q = false) (data : BitVec 512) (strb : BitVec 64) (last : Bool) :
    exec (.writeData q data strb last) s = .next (s.takeBeat q data.toNat strb.toNat last).pump := by
  have hgo : ¬(s.rqps[q].st = .closed ∨ s.rqps[q].rst ∨ s.rqps[q].struck) := by rw [hr, hs]; simpa using ho
  show execWriteData q data strb last s = _
  rw [execWriteData]
  dsimp only
  rw [if_neg hgo]
  simp only [hl, Bool.false_eq_true, if_false]

theorem State.takeBeat_waiting {a : Access} (h : s.rqps[q].accs.find? (fun a => a.op = 1 ∧ !a.wdone) = some a)
    (data strb : Nat) (last : Bool) : s.takeBeat q data strb last = s.feed q a.seq data strb last := by
  rw [State.takeBeat, h]

theorem State.takeBeat_early (h : ∀ a ∈ s.rqps[q].accs, a.op = 1 → a.wdone = true) (data strb : Nat) (last : Bool) :
    s.takeBeat q data strb last = s.modRqp q fun x => { x with early := x.early ++ [(data, strb, last)] } := by
  have hnone : s.rqps[q].accs.find? (fun a => a.op = 1 ∧ !a.wdone) = none :=
    List.find?_eq_none.2 fun a ha => by simpa using h a ha
  rw [State.takeBeat, hnone]

/-- The beat with WLAST that fits ALEN makes the write whole. -/
theorem State.feed_last {seq : Nat} {a : Access} (ha : s.access q seq = some a) (hn : a.wbeats.length = a.alen) (h4 : a.alen ≤ 3)
    (data strb : Nat) : s.feed q seq data strb true = (s.modAcc q seq fun b =>
      { b with wbeats := a.wbeats ++ [(data, strb)], wdone := true }).limitWrite q seq := by
  have hroom : a.wbeats.length ≤ 4 := by omega
  have hfit : decide ((a.wbeats ++ [(data, strb)]).length ≠ a.alen + 1) = false := by simp [hn]
  simp only [State.feed, ha, if_pos hroom, hfit, Bool.and_false, Bool.false_eq_true, false_and, if_false, if_true]

end WriteData

/-! ## Records of lines (R398) -/

section Records

variable {s : State} {m : Fin 4} (h : (s.wing (mpWing m)).rhl.st ≠ .record) (hm : (s.wing (mpWing m)).rhl.cfg.rqpMask = 0)

include h hm

/-- A logger that does not record the memory side writes nothing of a line. -/
theorem State.rhlLine_off (x : MpReq) (k : Nat) (l : MpLine) (err : Bool) (data sb : Nat) :
    s.rhlLine m x k l err data sb = s := by
  have hgo : ¬((s.wing (mpWing m)).rhl.st = .record ∨ (s.wing (mpWing m)).rhl.cfg.rqpMask ≠ 0) := by simp [h, hm]
  exact if_neg hgo

end Records

/-! ## Requests on a memory port (R65, R68) -/

theorem execMpRequestAccepted_alive {s : State} {m : Fin 4} {x : MpReq} {rest : List MpReq} (hq : s.mps[m].aq = x :: rest)
    (hl : s.mps[m].alive = true)
    (hw : x.write = false ∨ ((s.wing (mpWing m)).rhl.st ≠ .record ∧ (s.wing (mpWing m)).rhl.cfg.rqpMask = 0)) :
    exec (.mpRequestAccepted m) s = .next (s.modMp m fun p =>
      { p with aq := rest, out := p.out ++ [{ x with at' := s.rt }] }).pump := by
  have hgo : ¬(!s.mps[m].alive) = true := by rw [hl]; simp
  show execMpRequestAccepted m s = _
  rw [execMpRequestAccepted, hq]
  dsimp only
  rw [if_neg hgo]
  rcases hw with hw | ⟨hst, hmask⟩
  · simp only [hw, Bool.false_eq_true, if_false]
  · rw [List.foldl_fixed' fun e => State.rhlLine_off (by exact hst) (by exact hmask) x e.2 e.1 false e.1.data e.1.sb, ite_self]

/-! ## Answers on a memory port (R65, R67 to R69) -/

section Answers

variable {s : State} {m : Fin 4}

theorem execMpResponse_ignored (b : MpBeat) (h : s.mps[m].alive = false ∨ s.cpUp = false) :
    exec (.mpResponse m b) s = .next s := by
  have hgo : (!s.mps[m].alive) = true ∨ (!s.cpUp) = true := h.imp (by rw [·]; rfl) (by rw [·]; rfl)
  exact if_pos hgo

variable (ha : s.mps[m].alive = true) (hc : s.cpUp = true)

include ha hc

theorem execMpResponse_stray {b : MpBeat} (h : s.mps[m].out.find? (fun x => x.aid = b.did.toNat ∧ x.write = b.write) = none) :
    exec (.mpResponse m b) s = .next (s.log (mpWing m) .mpStray m.val b.did.toNat 0 0) := by
  have hgo : ¬((!s.mps[m].alive) = true ∨ (!s.cpUp) = true) := by rw [ha, hc]; simp
  show execMpResponse m b s = _
  rw [execMpResponse, if_neg hgo, h]

theorem execMpResponse_taken {b : MpBeat} {x : MpReq}
    (h : s.mps[m].out.find? (fun x => x.aid = b.did.toNat ∧ x.write = b.write) = some x) :
    exec (.mpResponse m b) s = .next (if x.write then s.writeBeat m x b.err else s.readBeat m x b).pump := by
  have hgo : ¬((!s.mps[m].alive) = true ∨ (!s.cpUp) = true) := by rw [ha, hc]; simp
  show execMpResponse m b s = _
  rw [execMpResponse, if_neg hgo, h]

end Answers

theorem execMpResponseTimeout_due {s : State} {m : Fin 4} {x : MpReq} {aid : BitVec 8}
    (h : s.mps[m].out.find? (fun x => x.aid = aid.toNat ∧ x.at' + s.mps[m].timeout * 1000 ≤ s.rt) = some x) :
    exec (.mpResponseTimeout m aid) s = .next ((s.mpGone m x).mpFailFrom x x.got true).pump := by
  show execMpResponseTimeout m aid s = _
  rw [execMpResponseTimeout, h]

/-- The answer to a written line that started no re-encryption ends the line. -/
theorem State.mpDone_written {s : State} {q : Fin 4} {seq i : Nat}
    (h : ∀ a l, s.access q seq = some a → a.lines[i]? = some l → l.trig = false) (tid data sb : Nat) :
    s.mpDone (.data q tid seq i) true data sb = s.endLine q seq i fun l => { l with status := 0 } := by
  cases ha : s.access q seq with
  | none => simp [State.mpDone, ha]
  | some a =>
    cases hl : a.lines[i]? with
    | none => simp [State.mpDone, ha, hl]
    | some l => simp [State.mpDone, ha, hl, h a l ha hl]

/-- The answer to the written line that started a re-encryption ends those that wait in the page buffer for it too (R208). -/
theorem State.mpDone_trigger {s : State} {q : Fin 4} {seq i : Nat} {a : Access} {l : MLine} (ha : s.access q seq = some a)
    (hl : a.lines[i]? = some l) (ht : l.trig = true) (tid data sb : Nat) :
    s.mpDone (.data q tid seq i) true data sb
      = (s.endBuffered l.addr 0).endLine q seq i fun l => { l with status := 0 } := by
  simp [State.mpDone, ha, hl, ht]

theorem State.mpDone_read (s : State) (q : Fin 4) (tid seq i data sb : Nat) :
    s.mpDone (.data q tid seq i) false data sb = s.modLine q seq i fun l =>
      if l.phase = .reading then { l with phase := .gotData, cipher := data, tag := sb, t0 := s.rt } else l := rfl

theorem State.writeBeat_good (s : State) (m : Fin 4) {x : MpReq} {l : MpLine} (h : x.lines = [l]) :
    s.writeBeat m x false = (s.mpGone m x).mpDone l.use true 0 0 := by
  simp [State.writeBeat, h]

theorem State.writeBeat_error (s : State) (m : Fin 4) (x : MpReq) :
    s.writeBeat m x true = (s.mpGone m x).mpFailFrom x 0 false := rfl

/-- The one beat of a request of one line, which no logger records. -/
theorem State.readBeat_only {s : State} {m : Fin 4} {x : MpReq} {l : MpLine} (h : x.lines = [l]) (hg : x.got = 0)
    (hst : (s.wing (mpWing m)).rhl.st ≠ .record) (hmask : (s.wing (mpWing m)).rhl.cfg.rqpMask = 0) (b : MpBeat) :
    s.readBeat m x b = if b.err then (s.mpGone m x).mpFail l.use x.addr false false
      else (s.mpGone m x).mpDone l.use false b.data.toNat (if s.mps[m].sb then b.sb.toNat else 0) := by
  have hends : (b.last || decide (x.lines.length ≤ x.got + 1)) = true := by simp [h, hg]
  have hline : x.lines[x.got]? = some l := by simp [h, hg]
  have hrest : ∀ t : State, t.mpFailFrom x (x.got + 1) false = t := fun t => by simp [State.mpFailFrom, h, hg]
  rw [State.readBeat, hline]
  simp only [State.rhlLine_off hst hmask, hends, if_true, hrest]
  rw [hg, Nat.mul_zero, Nat.add_zero]

/-! ## The statement -/

/-- Settles O44: each beat's meaning once its guards are met, and that of the one line of the request that it answers. -/
theorem memoryPins : Obligations.MemoryPins := by
  unfold Obligations.MemoryPins
  intro s q m
  refine ⟨fun data strb ho hr hs hl => ⟨?whole, ?early⟩, rfl, fun x rest hq ha hw => execMpRequestAccepted_alive hq ha hw,
    fun x b t ha hc hx ht => ?answer, fun b => execMpResponse_ignored b,
    fun b ha hc h => ?stray, fun x aid h => execMpResponseTimeout_due h⟩
  case whole =>
    intro a hf hacc hn h4
    rw [execWriteData_taken ho hr hs hl, State.takeBeat_waiting hf, State.feed_last hacc hn h4]
  case early =>
    intro last h
    rw [execWriteData_taken ho hr hs hl, State.takeBeat_early h]
  case answer =>
    have hgone : s.mpGone m x = t := ht.symm
    rw [execMpResponse_taken ha hc hx]
    refine ⟨fun p tid seq k d sb hw he hlines => ?written, fun hw he => ?writeError,
      fun p tid seq k d sb hw hg hlines hst hmask => ?read⟩
    case written =>
      rw [if_pos hw, he, State.writeBeat_good s m hlines, hgone]
      have hacc : t.access p seq = s.access p seq := by rw [ht]; rfl
      refine ⟨fun h => ?_, fun a l hs hl htrig => ?_⟩
      · rw [State.mpDone_written (by rwa [hacc])]
      · rw [State.mpDone_trigger (hacc.trans hs) hl htrig]
    case writeError => rw [if_pos hw, he, State.writeBeat_error, hgone]
    case read =>
      have hrt : t.rt = s.rt := by rw [ht]; rfl
      rw [if_neg (by simp [hw]), State.readBeat_only hlines hg hst hmask, hgone]
      refine ⟨fun he => ?_, fun he => ?_⟩
      · rw [if_neg (by simp [he]), State.mpDone_read, hrt]
      · rw [if_pos he, State.mpFail]
  case stray =>
    apply execMpResponse_stray ha hc
    exact List.find?_eq_none.2 fun x hx => by simpa using h x hx

end Sys2Proof.Machine
end

section
/-! Requests taken on a request port (O43): the checks of R61, the Usher's decision line by line, and what the memory protection
engine makes of an access that it granted. -/

namespace Sys2Proof.Machine

open Sys2Proof.Safety

/-! ## The Usher's decisions (R216, R223) -/

/-- The key slot that a decision grants. -/
def UDec.slot : UDec → Option Nat
  | .grant k _ => k
  | .refuse _ _ _ _ => none

/-- The class of a request once a decision's floor is met. -/
def UDec.raise (c : Nat) : UDec → Nat
  | .grant _ f => max c f
  | .refuse _ _ _ _ => c

theorem filter_refused_grants (addrs : List Nat) (grants : List (Option Nat × Nat)) :
    (addrs.zip (grants.map fun e => UDec.grant e.1 e.2)).filter (fun e => refusedLine e.2) = [] := by
  refine List.filter_eq_nil_iff.2 fun e he => ?_
  obtain ⟨-, h⟩ := List.of_mem_zip (a := e.1) (b := e.2) he
  obtain ⟨g, -, hg⟩ := List.mem_map.1 h
  rw [← hg]
  exact Bool.false_ne_true

theorem map_slot_grants (grants : List (Option Nat × Nat)) :
    (grants.map fun e => UDec.grant e.1 e.2).map UDec.slot = grants.map Prod.fst := by
  rw [List.map_map]
  rfl

theorem foldl_raise_grants (c : Nat) (grants : List (Option Nat × Nat)) :
    (grants.map fun e => UDec.grant e.1 e.2).foldl UDec.raise c = grants.foldl (fun c e => max c e.2) c := by
  rw [List.foldl_map]
  rfl

/-- A read, a write or a curtain-only request is a request with its own AOP, or with the reserved one. -/
theorem exec_request {i : Instr} {q : Fin 4} {r : AReq} {op : Nat}
    (h : i = .memRead q r ∧ op = (if r.op = 3 then 3 else 0) ∨ i = .memWrite q r ∧ op = (if r.op = 3 then 3 else 1)
      ∨ i = .curtainOnly q r ∧ op = (if r.op = 3 then 3 else 2)) (s : State) :
    exec i s = .next (s.acceptReq q r op) := by
  rcases h with ⟨rfl, rfl⟩ | ⟨rfl, rfl⟩ | ⟨rfl, rfl⟩ <;> rfl

/-! ## A request that breaks no rule (R215, R225, R226) -/

/-- The access whose lines the Usher grants: its key slots, and the highest class that they ask for. -/
def Access.granted (a : Access) (rt : Nat) (ds : List UDec) : Access :=
  { a with
    clsIn := ds.foldl UDec.raise a.clsIn
    cls := ds.foldl UDec.raise a.clsIn
    lines := (a.addrs.zip (ds.map UDec.slot)).map fun e => { addr := e.1, slot := e.2, t0 := rt } }

theorem Access.granted_grants (a : Access) (rt : Nat) (grants : List (Option Nat × Nat)) :
    a.granted rt (grants.map fun e => UDec.grant e.1 e.2) = { a with
      clsIn := grants.foldl (fun c e => max c e.2) a.clsIn
      cls := grants.foldl (fun c e => max c e.2) a.clsIn
      lines := (a.addrs.zip (grants.map Prod.fst)).map fun e => { addr := e.1, slot := e.2, t0 := rt } } := by
  rw [Access.granted, foldl_raise_grants, map_slot_grants]

/-- A curtain-only request waits for its curtain where its master is valid (R226). -/
def State.checkCurtain (s : State) (q : Fin 4) (a : Access) : Access × State :=
  if (s.master (rqpWing q) a.mid).valid then (a, s)
  else ({ a with fixed := some 1, curtain := 0 },
    s.ushRefuse (rqpWing q) q a.mid 2 a.world a.kix 0 0 (.refuse 1 none false 0))

theorem State.checkCurtain_valid {s : State} {q : Fin 4} {a : Access} (h : (s.master (rqpWing q) a.mid).valid = true) :
    s.checkCurtain q a = (a, s) := if_pos h

theorem State.checkCurtain_invalid {s : State} {q : Fin 4} {a : Access} (h : (s.master (rqpWing q) a.mid).valid = false) :
    s.checkCurtain q a = ({ a with fixed := some 1, curtain := 0 },
      s.ushRefuse (rqpWing q) q a.mid 2 a.world a.kix 0 0 (.refuse 1 none false 0)) := if_neg (by simp [h])

/-- The lines of a read or a write on the state in which their rules and regions have been read. -/
def State.checkLines (s : State) (q : Fin 4) (a : Access) (ds : List UDec) : Access × State :=
  let refused := (a.addrs.zip ds).filter fun e => refusedLine e.2
  match refused with
  | (addr, d) :: _ =>
    ({ a with fixed := some 1 }, s.ushRefuse (rqpWing q) q a.mid a.op a.world a.kix addr refused.length d)
  | [] => s.mpeAccept q (a.granted s.rt ds) (ds.map UDec.slot)

theorem State.checkLines_refused {s : State} {q : Fin 4} {a : Access} {ds : List UDec} {addr : Nat} {d : UDec}
    {rest : List (Nat × UDec)} (h : (a.addrs.zip ds).filter (fun e => refusedLine e.2) = (addr, d) :: rest) :
    s.checkLines q a ds = ({ a with fixed := some 1 },
      s.ushRefuse (rqpWing q) q a.mid a.op a.world a.kix addr (rest.length + 1) d) := by
  rw [State.checkLines, h]
  rfl

theorem State.checkLines_granted (s : State) (q : Fin 4) (a : Access) (grants : List (Option Nat × Nat)) :
    s.checkLines q a (grants.map fun e => UDec.grant e.1 e.2)
      = s.mpeAccept q (a.granted s.rt (grants.map fun e => UDec.grant e.1 e.2)) (grants.map Prod.fst) := by
  rw [State.checkLines, filter_refused_grants, map_slot_grants]

/-! ## The memory protection engine (R174, R335) -/

section Accepted

variable {s : State} {q : Fin 4} {a : Access} (slots : List (Option Nat))

theorem State.mpeAccept_uncovered (h : s.regionAt (rqpWing q) ((a.lines.head?.map MLine.addr).getD 0) = none) :
    s.mpeAccept q a slots = ({ a with fixed := some 1 }, s.log (rqpWing q) .noRegion 0
      (addrArgs ((a.lines.head?.map MLine.addr).getD 0) a.mid q).1
      (addrArgs ((a.lines.head?.map MLine.addr).getD 0) a.mid q).2 0) := by
  simp only [State.mpeAccept, h]

variable {g : Fin 64} (hg : s.regionAt (rqpWing q) ((a.lines.head?.map MLine.addr).getD 0) = some g)

include hg

theorem State.mpeAccept_unreached (h : s.reach (rqpWing q) s.regions[g].d.owner = false) :
    s.mpeAccept q a slots = ({ a with fixed := some 3 }, s.modRqp q fun x => { x with cnt := bumpAt x.cnt 1 1 }) := by
  simp only [State.mpeAccept, hg, h, Bool.not_false, if_true]

/-- An access to an UNPROTECTED region, of a class that is no Lead class, goes on in that class. -/
theorem State.mpeAccept_unprotected (h : s.reach (rqpWing q) s.regions[g].d.owner = true) (hm : s.regions[g].d.mode = 0)
    (hc : a.clsIn ≠ 0) : (s.mpeAccept q a slots).1 = { a with region := some g.val, cls := a.clsIn } := by
  simp only [State.mpeAccept, hg, h, Bool.not_true, Bool.false_eq_true, if_false, if_pos hm, hc, false_and, ne_eq,
    not_false_eq_true, if_true]

end Accepted

/-! ## Requests -/

/-- A request breaks a rule of R61, or its ATID is in use. -/
def State.badReq (s : State) (q : Fin 4) (r : AReq) (op : Nat) : Bool :=
  reqMalformed r op || s.rqps[q].tidBusy r.tid.toNat

section Requests

variable {s : State} {q : Fin 4} {r : AReq} {op : Nat} (hr : s.ready4 q = true)
  (hf : s.laneFull (rqpWing q) (decide (r.cls = 0)) = false)

include hr hf

theorem State.acceptReq_malformed (hb : s.badReq q r op = true) :
    s.acceptReq q r op = Safety.joined ((requested s q r op).modRqp q fun x => { x with cnt := bumpAt x.cnt 0 1 }) q
      { accessOf (requested s q r op) q r op s.rqps[q].nextSeq with curtain := 0, addrs := [], fixed := some 6 } := by
  have hgo : ¬(!s.ready4 q ∨ s.laneFull (rqpWing q) (decide (r.cls = 0))) := by rw [hr, hf]; simp
  simp only [State.badReq] at hb
  rw [State.acceptReq, if_neg hgo]
  simp only [hb, if_true]
  rfl

theorem State.acceptReq_curtain (hb : s.badReq q r 2 = false) {a b : Access} {v : State}
    (ha : a = accessOf (requested s q r 2) q r 2 s.rqps[q].nextSeq)
    (hv : ((requested s q r 2).mgParity (rqpWing q) r.mid.toNat).checkCurtain q a = (b, v)) :
    s.acceptReq q r 2 = Safety.joined v q b := by
  have hgo : ¬(!s.ready4 q ∨ s.laneFull (rqpWing q) (decide (r.cls = 0))) := by rw [hr, hf]; simp
  simp only [State.badReq] at hb
  rw [show v = (b, v).2 from rfl, show b = (b, v).1 from rfl, ← hv, ha]
  rw [State.acceptReq, if_neg hgo]
  simp only [hb, Bool.false_eq_true, if_false, if_true]
  rfl

theorem State.acceptReq_lines (hb : s.badReq q r op = false) (hop : op < 2) {a b : Access} {u v : State}
    (ha : a = accessOf (requested s q r op) q r op s.rqps[q].nextSeq)
    (hu : u = (((requested s q r op).mgParity (rqpWing q) r.mid.toNat).usherParity (rqpWing q) r.mid.toNat
      (linesOf r op)).regionParity (rqpWing q) (linesOf r op))
    (hv : u.checkLines q a (u.usherLines (rqpWing q) r.mid.toNat r.world (decide (op = 1)) r.kix.toNat (linesOf r op))
      = (b, v)) :
    s.acceptReq q r op = Safety.joined v q b := by
  have hgo : ¬(!s.ready4 q ∨ s.laneFull (rqpWing q) (decide (r.cls = 0))) := by rw [hr, hf]; simp
  simp only [State.badReq] at hb
  have h2 : op ≠ 2 := by omega
  rw [show v = (b, v).2 from rfl, show b = (b, v).1 from rfl, ← hv, hu, ha]
  rw [State.acceptReq, if_neg hgo]
  simp only [hb, Bool.false_eq_true, if_false, if_neg h2]
  rfl

end Requests

/-! ## The statement -/

/-- Settles O43: the request's own faults, its master or its lines decide what it comes to before it joins those of its port. -/
theorem memoryRequests : Obligations.MemoryRequests := by
  unfold Obligations.MemoryRequests
  rintro s t q r op mid i a w hr hf rfl rfl hi rfl ha
  rw [exec_request hi]
  refine ⟨fun hbad => ?malformed, fun hm hb m u ds hmg hu hds => ?good, fun b c slots at0 v hat hv => ?engine⟩
  case malformed =>
    have hbad : s.badReq q r op = true := by rwa [State.badReq, Bool.or_eq_true]
    rw [ha]
    exact ⟨_, rfl, congrArg Host.Outcome.next (State.acceptReq_malformed hr hf hbad)⟩
  case good =>
    have hgood : s.badReq q r op = false := by rw [State.badReq, hm, hb]; rfl
    subst hmg hds
    refine ⟨?valid, ?invalid, ?granted, ?refused⟩
    case valid =>
      rintro rfl hvalid
      have hv := State.checkCurtain_valid (q := q) (a := a) (by rw [ha]; exact hvalid)
      exact congrArg Host.Outcome.next (State.acceptReq_curtain hr hf hgood ha hv)
    case invalid =>
      rintro rfl hvalid
      have hv := State.checkCurtain_invalid (q := q) (a := a) (by rw [ha]; exact hvalid)
      rw [State.acceptReq_curtain hr hf hgood ha hv, ha]
      rfl
    case granted =>
      rintro grants slots c b v hop hgrants rfl rfl hbv
      have hcls : a.clsIn = r.cls.toNat := by rw [ha]; rfl
      have haddrs : a.addrs = linesOf r op := by rw [ha]; rfl
      have hv := u.checkLines_granted q a grants
      rw [← haddrs] at hbv
      rw [Access.granted_grants, hcls, ← hbv, ← hgrants] at hv
      rw [State.acceptReq_lines hr hf hgood hop ha hu hv]
    case refused =>
      intro addr d rest hop hrefused
      have hv := State.checkLines_refused (s := u) (q := q) (a := a) (by rw [ha]; exact hrefused)
      rw [State.acceptReq_lines hr hf hgood hop ha hu hv, ha]
      rfl
  case engine =>
    subst hat
    refine ⟨fun hnone => ?uncovered, fun g hg => ⟨fun hreach => ?unreached, fun hreach hmode hcls => ?unprotected⟩⟩
    case uncovered => exact Prod.mk.inj (hv.trans (State.mpeAccept_uncovered slots hnone))
    case unreached => exact Prod.mk.inj (hv.trans (State.mpeAccept_unreached slots hg hreach))
    case unprotected => rw [← State.mpeAccept_unprotected slots hg hreach hmode hcls, ← hv]

end Sys2Proof.Machine
end

section
/-! Opening, closing and reading ports (O7): what a close records, what an opening grants, and the four commands of each kind of
port. -/

namespace Sys2Proof.Machine

open Sys2Proof.Safety Sys2Proof.Laws

/-! ## Grants change the wings alone (R25, R398) -/

theorem State.rhlStop_only (s : State) (w : Wing) (a b : Nat) : OnlyWings s (s.rhlStop w a b) :=
  (s.modWing_only w _).trans (State.log_only _ w _ _ _ _ _)

theorem State.rhlPut1_only (s : State) (w : Wing) (t : Nat) (c b : Bytes) (n : Nat) : OnlyWings s (s.rhlPut1 w t c b n) := by
  unfold State.rhlPut1
  extract_lets r spare u digest
  split
  · exact .refl s
  · split
    · split
      · exact (s.modWing_only w _).trans (State.rhlStop_only _ w _ _)
      · exact (s.modWing_only w _).trans (State.rhlStop_only _ w _ _)
    · exact s.modWing_only w _

theorem State.rhlPut_only (s : State) (w : Wing) (t : Nat) (c b : Bytes) (n : Nat) : OnlyWings s (s.rhlPut w t c b n) := by
  unfold State.rhlPut
  dsimp only
  split
  · exact (s.rhlPut1_only w _ _ _ _).trans (State.rhlPut1_only _ w _ _ _ _)
  · exact s.rhlPut1_only w _ _ _ _

theorem State.rhlGrant_only (s : State) (w : Wing) (a : Nat) (b : Bool) : OnlyWings s (s.rhlGrant w a b) := by
  unfold State.rhlGrant
  dsimp only
  split
  · split
    · exact s.modWing_only w _
    · exact (s.modWing_only w _).trans (State.rhlPut_only _ w _ _ _ _)
  · exact .refl s

theorem State.closeGrant_only (s : State) (w : Wing) (met : Bool) : OnlyWings s (s.closeGrant w met) := by
  cases met
  · exact .refl s
  · exact s.rhlGrant_only w _ _

/-- A state that differs in its wings at most is the state with other wings. -/
theorem OnlyWings.exists {s t : State} (h : OnlyWings s t) : ∃ l r, t = { s with sl := l, sr := r } := ⟨_, _, h⟩

/-! ## A close begins (R343, R345) -/

theorem State.startPortClose_opened {s t : State} {p : Fin 64} (h : s.ports[p].st = .opened) (ht : t = s.startPortClose p) :
    t = { s with ports := t.ports, sl := t.sl, sr := t.sr } ∧ t.ports[p] = { s.ports[p] with st := .closing, closeAt := s.rt }
      ∧ ∀ q : Fin 64, q ≠ p → t.ports[q] = s.ports[q] := by
  rw [State.startPortClose] at ht
  generalize hu : s.closeGrant _ _ = u at ht
  obtain ⟨l, r, rfl⟩ := (hu ▸ s.closeGrant_only _ _ : OnlyWings s u).exists
  subst ht
  refine ⟨rfl, ?_, fun q hq => State.modPort_ne _ p q _ hq.symm⟩
  rw [State.modPort_self]
  exact if_pos h

theorem State.startRqpClose_opened {s t : State} {q : Fin 4} (h : s.rqps[q].st = .opened) (ht : t = s.startRqpClose q) :
    t = { s with rqps := t.rqps, sl := t.sl, sr := t.sr } ∧ t.rqps[q] = { s.rqps[q] with st := .closing, closeAt := s.rt }
      ∧ ∀ r : Fin 4, r ≠ q → t.rqps[r] = s.rqps[r] := by
  rw [State.startRqpClose] at ht
  generalize hu : s.closeGrant _ _ = u at ht
  obtain ⟨l, r, rfl⟩ := (hu ▸ s.closeGrant_only _ _ : OnlyWings s u).exists
  subst ht
  refine ⟨rfl, ?_, fun r hr => State.modRqp_ne _ q r _ hr.symm⟩
  rw [State.modRqp_self]
  exact if_pos h

/-! ## An opening grants credits (R53, R54, R293) -/

/-- A port once it is opened: its credits are topped up at once where `now`, else they are owed. -/
def Port.reopened (x : Port) (now : Bool) : Port :=
  let kh := if x.hsIFail then 0 else 384 - x.hsIHeld
  let kl := if x.lsIFail then 0 else 384 - x.lsIHeld
  let y := { x with st := .opened, hsINotOpen := false, lsINotOpen := false, forced := false, mixed := false }
  if now then
    { y with pulses := (x.pulses.set 0 (x.pulses[0] + kh)).set 1 (x.pulses[1] + kl),
             hsIHeld := x.hsIHeld + kh, hsIUsed := 0, lsIHeld := x.lsIHeld + kl, lsIUsed := 0 }
  else { y with hsIUsed := kh, lsIUsed := kl }

theorem State.openPort_eq (s : State) (p : Fin 64) :
    s.openPort p = s.modPort p fun _ => s.ports[p].reopened (s.taking (portWing p)) := rfl

theorem Port.reopened_keeps (x : Port) (now : Bool) : x.reopened now = { x with
    st := .opened
    forced := false
    mixed := false
    hsINotOpen := false
    lsINotOpen := false
    pulses := (x.reopened now).pulses
    hsIUsed := (x.reopened now).hsIUsed
    lsIUsed := (x.reopened now).lsIUsed
    hsIHeld := (x.reopened now).hsIHeld
    lsIHeld := (x.reopened now).lsIHeld } := by
  cases now <;> rfl

theorem topUp_eq (fail : Bool) (n : Nat) : n + (if fail then 0 else 384 - n) = if fail then n else max n 384 := by
  cases fail
  · show n + (384 - n) = max n 384
    omega
  · rfl

theorem Port.reopened_now (x : Port) : (x.reopened true).hsIUsed = 0 ∧ (x.reopened true).lsIUsed = 0
    ∧ (x.reopened true).hsIHeld = (if x.hsIFail then x.hsIHeld else max x.hsIHeld 384)
    ∧ (x.reopened true).lsIHeld = (if x.lsIFail then x.lsIHeld else max x.lsIHeld 384) :=
  ⟨rfl, rfl, topUp_eq _ _, topUp_eq _ _⟩

theorem Port.reopened_owed (x : Port) : (x.reopened false).hsIHeld = x.hsIHeld ∧ (x.reopened false).lsIHeld = x.lsIHeld
    ∧ (x.reopened false).hsIUsed = (if x.hsIFail then 0 else 384 - x.hsIHeld)
    ∧ (x.reopened false).lsIUsed = (if x.lsIFail then 0 else 384 - x.lsIHeld) := ⟨rfl, rfl, rfl, rfl⟩

theorem State.openPort_st (s : State) (p : Fin 64) : (s.openPort p).ports[p].st = .opened := by
  rw [State.openPort_eq, State.modPort_self, Port.reopened_keeps]

/-! ## Commands that name a port -/

theorem took_reach (s : State) (ch : Fin 8) (a b : Wing) : (took s ch).reach a b = s.reach a b := by
  cases b <;> rfl

theorem took_wing (s : State) (ch : Fin 8) (w : Wing) : (took s ch).wing w = s.wing w := by
  cases w <;> rfl

theorem took_taking (s : State) (ch : Fin 8) (w : Wing) : (took s ch).taking w = s.taking w := by
  cases w <;> rfl

section Named

variable {s : State} {ch : Fin 8} {pl : Place}

theorem ctx0_clean {i n : Nat} (h : wordAt pl.words i < 2 ^ n) : (ctx0 s ch pl).clean i n = true :=
  decide_eq_true (Nat.div_eq_of_lt h)

theorem ctx0_port {p : Fin 64} {i : Nat} (h : wordAt pl.words i = p.val) : (ctx0 s ch pl).port i = p := by
  show Fin.ofNat 64 (wordAt pl.words i) = p
  rw [h, Fin.ofNat_val_eq_self]

theorem ctx0_rqp {q : Fin 4} {i : Nat} (h : wordAt pl.words i = q.val) : Fin.ofNat 4 ((ctx0 s ch pl).w i) = q := by
  show Fin.ofNat 4 (wordAt pl.words i) = q
  rw [h, Fin.ofNat_val_eq_self]

/-- A command on a unit that it names within its field, on a wing that its own reaches, does that unit's work. -/
theorem runCmd_reaching {o : OpSpec} {body : State → Ctx → Res} {i n : Nat} {w : Wing} {r : Res} (h : Served s ch o pl)
    (ho : o.wing = 0) (hn : wordAt pl.words i < 2 ^ n) (hr : s.reach (home s ch) w = true)
    (hb : body (took s ch) (ctx0 s ch pl)
      = Res.need ((ctx0 s ch pl).clean i n) (took s ch) (Res.reaching (took s ch) (ctx0 s ch pl) w r)) :
    s.runCmd ch o body = r.settle ch s.chans[ch].expect := by
  have hreach : (took s ch).reach ((took s ch).chans[(ctx0 s ch pl).ch].mapWing) w = true := by
    rw [took_reach]
    exact (congrArg (s.reach · w) (took_mapWing s ch)).trans hr
  rw [Res.need, if_pos (ctx0_clean hn), Res.reaching, if_pos hreach] at hb
  rw [runCmd_once body h ho]
  exact congrArg (Res.settle ch _) hb

end Named

/-! ## Stream ports -/

/-- A stream port that nothing else keeps closed, opened from its state (R345). -/
def State.openPortFrom (s : State) (p : Fin 64) : PState → Res
  | .closing => failed s .unitClosing
  | .opened => good s
  | .closed => good (s.admitPort p)

/-- What PORT_OPEN comes to once its port is named. -/
def State.tryOpenPort (s : State) (p : Fin 64) : Res :=
  match s.openRefused (portWing p) with
  | some st => failed s st
  | none =>
    if s.vlt.lcCode = 6 then failed s .lcRefused
    else if s.ports[p].absent then failed s .portAbsent
    else s.openPortFrom p s.ports[p].st

/-- What PORT_CLOSE comes to once its port is named. -/
def State.tryClosePort (s : State) (p : Fin 64) (force : Bool) : Res :=
  if s.ports[p].st = .closed then good s
  else if force then good (s.forcePort p)
  else .wait (s.startPortClose p) (.port p)

/-- The words of a port's state and settings that PORT_GET returns. -/
def Port.report (x : Port) : List Word := wd x.code :: x.cls.words ++ x.sp.words ++ x.ptp.words

/-- Nothing but the port itself keeps it from being opened. -/
theorem State.openRefused_none {s : State} {w : Wing} (hi : s.vlt.ironHeld = false) (hs : (s.wing w).rhl.st ≠ .snapshot)
    (hr : (s.wing w).rhl.st ≠ .replaying) : s.openRefused w = none := by
  simp [State.openRefused, hi, hs, hr]

section TryPort

variable {s : State} {p : Fin 64}

theorem State.tryOpenPort_present (hw : s.openRefused (portWing p) = none) (hl : s.vlt.lcCode ≠ 6)
    (ha : s.ports[p].absent = false) {st : PState} (hst : s.ports[p].st = st) : s.tryOpenPort p = s.openPortFrom p st := by
  have habs : ¬s.ports[p].absent = true := by rw [ha]; exact Bool.false_ne_true
  rw [State.tryOpenPort, hw]
  dsimp only
  rw [if_neg hl, if_neg habs, hst]

theorem State.tryClosePort_closed (h : s.ports[p].st = .closed) (f : Bool) : s.tryClosePort p f = good s := if_pos h

theorem State.tryClosePort_waits (h : s.ports[p].st = .opened) :
    s.tryClosePort p false = .wait (s.startPortClose p) (.port p) := by
  have hgo : ¬s.ports[p].st = .closed := by rw [h]; exact PState.noConfusion
  exact if_neg hgo

theorem State.tryClosePort_forced (h : s.ports[p].st ≠ .closed) : s.tryClosePort p true = good (s.forcePort p) := if_neg h

end TryPort

theorem State.openPortFrom_awake {s : State} (p : Fin 64) (h : s.pwr.entering = false) :
    s.openPortFrom p .closed = good (s.openPort p) := by
  have hgo : ¬s.pwr.entering = true := by simp [h]
  exact congrArg good (if_neg hgo)

theorem State.openPortFrom_entering {s : State} (p : Fin 64) (h : s.pwr.entering = true) :
    s.openPortFrom p .closed = good ((s.openPort p).startPortClose p) := congrArg good (if_pos h)

section Port

variable {s : State} {ch : Fin 8} {pl : Place} {p : Fin 64} (hp : wordAt pl.words 2 = p.val)
  (hr : s.reach (home s ch) (portWing p) = true)

include hp hr

theorem execPortOpen_served (h : Served s ch { op := 0x020, lenMin := 1, lenMax := 1 } pl) :
    exec (.portOpen ch) s = .next (((took s ch).tryOpenPort p).settle ch s.chans[ch].expect) :=
  congrArg Host.Outcome.next (runCmd_reaching (n := 6) h rfl (by rw [hp]; exact p.isLt) hr (by simp only [ctx0_port hp]; rfl))

theorem execPortClose_served (h : Served s ch { op := 0x021, lenMin := 1, lenMax := 1, close := true } pl) :
    exec (.portClose ch) s = .next (((took s ch).tryClosePort p pl.force).settle ch s.chans[ch].expect) :=
  congrArg Host.Outcome.next (runCmd_reaching (n := 6) h rfl (by rw [hp]; exact p.isLt) hr (by simp only [ctx0_port hp]; rfl))

theorem execPortGet_served (h : Served s ch { op := 0x024, lenMin := 1, lenMax := 1 } pl) :
    Answers (exec (.portGet ch) s) (took s ch) ch .ok (((took s ch).view ch).ports[p]).report :=
  congrArg Host.Outcome.next
    (runCmd_reaching (n := 6) (r := .done (took s ch) .ok (((took s ch).view ch).ports[p]).report) h rfl
      (by rw [hp]; exact p.isLt) hr (by simp only [ctx0_port hp]; rfl))

end Port

/-! ## Request ports -/

/-- A request port that nothing else keeps closed, opened from its state (R345). -/
def State.openRqpFrom (s : State) (q : Fin 4) : PState → Res
  | .closing => failed s .unitClosing
  | .opened => good s
  | .closed => good (s.openRqp q)

/-- What RQP_OPEN comes to once its port is named. -/
def State.tryOpenRqp (s : State) (q : Fin 4) : Res :=
  match s.openRefused (rqpWing q) with
  | some st => failed s st
  | none =>
    if s.rqps[q].rst ∨ s.rqps[q].struck then failed s .portAbsent
    else s.openRqpFrom q s.rqps[q].st

/-- What RQP_CLOSE comes to once its port is named. -/
def State.tryCloseRqp (s : State) (q : Fin 4) (force : Bool) : Res :=
  if s.rqps[q].st = .closed then good s
  else if force then good (s.forceRqp q)
  else .wait (s.startRqpClose q) (.rqp q)

section TryRqp

variable {s : State} {q : Fin 4}

theorem State.tryOpenRqp_present (hw : s.openRefused (rqpWing q) = none) (hr : s.rqps[q].rst = false)
    (hs : s.rqps[q].struck = false) {st : PState} (hst : s.rqps[q].st = st) : s.tryOpenRqp q = s.openRqpFrom q st := by
  have habs : ¬(s.rqps[q].rst = true ∨ s.rqps[q].struck = true) := by rw [hr, hs]; simp
  rw [State.tryOpenRqp, hw]
  dsimp only
  rw [if_neg habs, hst]

theorem State.tryOpenRqp_iron (h : s.vlt.ironHeld = true) : s.tryOpenRqp q = failed s .ironHeld := by
  rw [State.tryOpenRqp, State.openRefused, if_pos h]

theorem State.tryCloseRqp_closed (h : s.rqps[q].st = .closed) (f : Bool) : s.tryCloseRqp q f = good s := if_pos h

theorem State.tryCloseRqp_waits (h : s.rqps[q].st = .opened) :
    s.tryCloseRqp q false = .wait (s.startRqpClose q) (.rqp q) := by
  have hgo : ¬s.rqps[q].st = .closed := by rw [h]; exact PState.noConfusion
  exact if_neg hgo

theorem State.tryCloseRqp_forced (h : s.rqps[q].st ≠ .closed) : s.tryCloseRqp q true = good (s.forceRqp q) := if_neg h

end TryRqp

theorem State.openRqpFrom_awake {s : State} (q : Fin 4) (h : s.pwr.entering = false) :
    s.openRqpFrom q .closed = good (s.modRqp q fun x => { x with st := .opened, forced := false }) := by
  have hgo : ¬s.pwr.entering = true := by simp [h]
  exact congrArg good (if_neg hgo)

theorem State.openRqpFrom_entering {s : State} (q : Fin 4) (h : s.pwr.entering = true) :
    s.openRqpFrom q .closed = good ((s.modRqp q fun x => { x with st := .opened, forced := false }).startRqpClose q) :=
  congrArg good (if_pos h)

section Rqp

variable {s : State} {ch : Fin 8} {pl : Place} {q : Fin 4} (hq : wordAt pl.words 2 = q.val)
  (hr : s.reach (home s ch) (rqpWing q) = true)

include hq hr

theorem execRqpOpen_served (h : Served s ch { op := 0x025, lenMin := 1, lenMax := 1 } pl) :
    exec (.rqpOpen ch) s = .next (((took s ch).tryOpenRqp q).settle ch s.chans[ch].expect) :=
  congrArg Host.Outcome.next (runCmd_reaching (n := 2) h rfl (by rw [hq]; exact q.isLt) hr (by simp only [ctx0_rqp hq]; rfl))

theorem execRqpClose_served (h : Served s ch { op := 0x026, lenMin := 1, lenMax := 1, close := true } pl) :
    exec (.rqpClose ch) s = .next (((took s ch).tryCloseRqp q pl.force).settle ch s.chans[ch].expect) :=
  congrArg Host.Outcome.next (runCmd_reaching (n := 2) h rfl (by rw [hq]; exact q.isLt) hr (by simp only [ctx0_rqp hq]; rfl))

end Rqp

/-! ## The statement -/

/-- PORT_OPEN while the unit enters sleep: the port that it opens closes at once (R420). -/
theorem openPort_entering {s t : State} {ch : Fin 8} {p : Fin 64} (ht : t = ((took s ch).openPort p).startPortClose p) :
    t = { took s ch with ports := t.ports, sl := t.sl, sr := t.sr } ∧ t.ports[p].st = .closing ∧ t.ports[p].closeAt = s.rt
      ∧ ∀ q : Fin 64, q ≠ p → t.ports[q] = s.ports[q] := by
  obtain ⟨hrest, hport, hothers⟩ := State.startPortClose_opened ((took s ch).openPort_st p) ht
  refine ⟨hrest, by rw [hport], by rw [hport]; rfl, fun q hq => ?_⟩
  rw [hothers q hq, State.openPort_eq]
  exact State.modPort_ne _ p q _ hq.symm

/-- Settles O7: each command's meaning once it is served, by the state of the port that it names. -/
theorem portCommands : Obligations.PortCommands := by
  unfold Obligations.PortCommands
  refine ⟨fun s ch pl p h hp hr hi hl hsnap hrep ha => ?portOpen, fun s ch pl p hp hr => ⟨fun h => ?portClose, fun h => ?portGet⟩,
    fun s ch pl q hq hr => ⟨fun h hi hsnap hrep hrst hstr => ?rqpOpen, fun h hi => ?iron, fun h => ?rqpClose⟩,
    fun s t p => State.startPortClose_opened, fun s t q => State.startRqpClose_opened⟩
  case portOpen =>
    have href : (took s ch).openRefused (portWing p) = none :=
      State.openRefused_none hi (by rwa [took_wing]) (by rwa [took_wing])
    have hopen {st : PState} (hst : s.ports[p].st = st) := (execPortOpen_served hp hr h).trans
      (congrArg (Host.Outcome.next <| Res.settle ch _ ·) (State.tryOpenPort_present href hl ha hst))
    refine ⟨fun hst he => ⟨s.ports[p].reopened (s.taking (portWing p)), ?_, Port.reopened_keeps _ _,
        fun ht => by rw [ht]; exact Port.reopened_now _, fun ht => by rw [ht]; exact Port.reopened_owed _⟩,
      fun hst he => ⟨_, ?_, openPort_entering rfl⟩, fun hst => hopen hst, fun hst => hopen hst⟩
    · rw [hopen hst, State.openPortFrom_awake p (by exact he), State.openPort_eq, took_taking]
      rfl
    · rw [hopen hst, State.openPortFrom_entering p (by exact he)]
      rfl
  case portClose =>
    rw [execPortClose_served hp hr h]
    refine ⟨fun hst => ?_, fun hst hf => ?_, fun hst hf => ?_⟩
    · rw [State.tryClosePort_closed (by exact hst)]
      rfl
    · rw [hf, State.tryClosePort_waits (by exact hst)]
      rfl
    · rw [hf, State.tryClosePort_forced (by exact hst)]
      rfl
  case portGet => exact execPortGet_served hp hr h
  case rqpOpen =>
    have href : (took s ch).openRefused (rqpWing q) = none :=
      State.openRefused_none hi (by rwa [took_wing]) (by rwa [took_wing])
    have hopen {st : PState} (hst : s.rqps[q].st = st) := (execRqpOpen_served hq hr h).trans
      (congrArg (Host.Outcome.next <| Res.settle ch _ ·) (State.tryOpenRqp_present href hrst hstr hst))
    refine ⟨fun hst he => ?_, fun hst he => ?_, fun hst => hopen hst⟩
    · rw [hopen hst, State.openRqpFrom_awake q (by exact he)]
      rfl
    · rw [hopen hst, State.openRqpFrom_entering q (by exact he)]
      rfl
  case iron =>
    rw [execRqpOpen_served hq hr h, State.tryOpenRqp_iron (by exact hi)]
    rfl
  case rqpClose =>
    rw [execRqpClose_served hq hr h]
    refine ⟨fun hst => ?_, fun hst hf => ?_, fun hst hf => ?_⟩
    · rw [State.tryCloseRqp_closed (by exact hst)]
      rfl
    · rw [hf, State.tryCloseRqp_waits (by exact hst)]
      rfl
    · rw [hf, State.tryCloseRqp_forced (by exact hst)]
      rfl

end Sys2Proof.Machine
end

section
/-! Commands on the wings that they name (R369): what a served command comes to where its body is known, for one wing and for each
of several. -/

namespace Sys2Proof.Machine

open Sys2Proof.Safety Sys2Proof.Laws

/-! ## What a command is carried out with -/

@[simp] theorem ctxOf_words (ch : Fin 8) (p : Place) (ws : List Wing) (w : Wing) : (ctxOf ch p ws w).words = p.words := rfl
@[simp] theorem ctxOf_wing (ch : Fin 8) (p : Place) (ws : List Wing) (w : Wing) : (ctxOf ch p ws w).wing = w := rfl
@[simp] theorem ctxOf_ch (ch : Fin 8) (p : Place) (ws : List Wing) (w : Wing) : (ctxOf ch p ws w).ch = ch := rfl
@[simp] theorem ctxOf_w (ch : Fin 8) (p : Place) (ws : List Wing) (w : Wing) (i : Nat) : (ctxOf ch p ws w).w i = wordAt p.words i := rfl

theorem ctxOf_clean {p : Place} {i n : Nat} (h : wordAt p.words i < 2 ^ n) (ch : Fin 8) (ws : List Wing) (w : Wing) :
    (ctxOf ch p ws w).clean i n = true := decide_eq_true (Nat.div_eq_of_lt h)

theorem Res.need_of {ok : Bool} (h : ok = true) (s : State) (r : Res) : Res.need ok s r = r := if_pos h

theorem took_bad (s : State) (ch : Fin 8) (e : Ent) : (took s ch).bad e = s.bad e := by
  simp only [State.bad, State.bankOut, took_wing]
  rfl

/-! ## One wing -/

section OneWing

variable {s : State} {ch : Fin 8} {o : OpSpec} {p : Place} {w : Wing} {body : State → Ctx → Res}

theorem runCmd_oneWing (h : Served s ch o p) (hw : p.wings o (home s ch) = [w]) :
    s.runCmd ch o body = (body (took s ch) (ctxOf ch p [w] w)).settle ch s.chans[ch].expect := by
  rw [runCmd_served body h, hw]
  split <;> rfl

theorem answers_oneWing (h : Served s ch o p) (hw : p.wings o (home s ch) = [w]) {t : State} {st : Status} {ws : List Word}
    (hb : body (took s ch) (ctxOf ch p [w] w) = .done t st ws) : Answers (.next (s.runCmd ch o body)) t ch st ws := by
  rw [runCmd_oneWing h hw, hb]
  rfl

theorem waits_oneWing (h : Served s ch o p) (hw : p.wings o (home s ch) = [w]) {t : State} {x : Wait}
    (hb : body (took s ch) (ctxOf ch p [w] w) = .wait t x) : Waits (.next (s.runCmd ch o body)) t ch x := by
  rw [runCmd_oneWing h hw, hb]
  rfl

end OneWing

/-! ## Each of the wings named -/

theorem Place.wings_nodup (p : Place) (o : OpSpec) (w : Wing) : (p.wings o w).Nodup := by
  unfold Place.wings
  split_ifs <;> simp

/-- A body that succeeds on a wing that meets a condition, and leaves the condition of the other wing, succeeds on all of them. -/
theorem runWings_of_each {body : State → Ctx → Res} {c : Ctx} {E : State → Wing → State} {P : State → Wing → Prop}
    (hb : ∀ t w, P t w → body t { c with wing := w } = good (E t w)) (hE : ∀ t w v, v ≠ w → P t v → P (E t w) v)
    {ws : List Wing} (hn : ws.Nodup) {s : State} (hP : ∀ w ∈ ws, P s w) : runWings body c ws s = good (ws.foldl E s) := by
  induction ws generalizing s with
  | nil => rfl
  | cons w r ih =>
    have hw := hb s w (hP w List.mem_cons_self)
    cases r with
    | nil => exact hw
    | cons w' r' =>
      obtain ⟨hnot, hrest⟩ := List.nodup_cons.1 hn
      have hnext := ih hrest (s := E s w) fun v hv =>
        hE s w v (fun he => hnot (he ▸ hv)) (hP v (List.mem_cons_of_mem _ hv))
      simp only [runWings, hw, good, List.foldl_cons]
      exact hnext

theorem answers_each {s : State} {ch : Fin 8} {o : OpSpec} {p : Place} {body : State → Ctx → Res} {E : State → Wing → State}
    {P : State → Wing → Prop} (h : Served s ch o p) (h3 : o.wing ≠ 3)
    (hb : ∀ t w, P t w → body t (ctxOf ch p (p.wings o (home s ch)) w) = good (E t w))
    (hE : ∀ t w v, v ≠ w → P t v → P (E t w) v) (hP : ∀ w ∈ p.wings o (home s ch), P (took s ch) w) :
    Answers (.next (s.runCmd ch o body)) ((p.wings o (home s ch)).foldl E (took s ch)) ch .ok [] := by
  rw [runCmd_served body h, if_neg h3, runWings_of_each hb hE (p.wings_nodup o _) hP]
  rfl

/-! ## Fields of words -/

theorem fld_eq (x hi lo : Nat) : fld x hi lo = x / 2 ^ lo % 2 ^ (hi + 1 - lo) := by
  rw [fld, Nat.shiftRight_eq_div_pow]

end Sys2Proof.Machine
end

section
/-! The policy trie (O10, O11): staged changes, reads and commits. -/

namespace Sys2Proof.Machine

open Sys2Proof.Safety Sys2Proof.Laws

/-! ## Staged changes (R96) -/

theorem State.modTrie_wing (s : State) (w : Wing) (f : Trie → Trie) :
    (s.modTrie w f).wing w = { s.wing w with trie := f (s.wing w).trie } := s.modWing_wing w _

theorem State.modTrie_wing_other (s : State) (w : Wing) (f : Trie → Trie) :
    (s.modTrie w f).wing (otherWing w) = s.wing (otherWing w) := s.modWing_wing_other w _

theorem otherWing_of_ne {v w : Wing} (h : v ≠ w) : v = otherWing w := by
  cases v <;> cases w <;> revert h <;> decide

/-- A wing can take one more staged change. -/
def State.stageRoom (s : State) (w : Wing) : Prop := (s.wing w).trie.staged.length < 4096

theorem State.stageTrie_room {s : State} {w : Wing} (h : s.stageRoom w) (c : TChange) :
    s.stageTrie w c = good (s.modTrie w fun t => { t with staged := t.staged ++ [c] }) := if_neg (Nat.not_le.2 h)

/-- A command that stages a change in each wing that it names, where each has room. -/
theorem answers_stages {s : State} {ch : Fin 8} {o : OpSpec} {p : Place} {body : State → Ctx → Res} {c : TChange}
    (h : Served s ch o p) (h3 : o.wing ≠ 3) (hroom : ∀ w ∈ p.wings o (home s ch), s.stageRoom w)
    (hb : ∀ t w, body t (ctxOf ch p (p.wings o (home s ch)) w) = t.stageTrie w c) :
    Answers (.next (s.runCmd ch o body)) ((p.wings o (home s ch)).foldl (fun t w => t.modTrie w fun x =>
      { x with staged := x.staged ++ [c] }) (took s ch)) ch .ok [] := by
  refine answers_each (P := State.stageRoom) h h3 (fun t w ht => (hb t w).trans (State.stageTrie_room ht c)) ?_ ?_
  · intro t w v hv ht
    rw [otherWing_of_ne hv] at ht ⊢
    rwa [State.stageRoom, State.modTrie_wing_other]
  · intro w hw
    rw [State.stageRoom, took_wing]
    exact hroom w hw

/-! ## Entries by stage, node and index (R97, R98) -/

/-- The word by which PT_READ and PT_WRITE_ENTRY name a node, within its bounds. -/
structure NodeWord (x stage node : Nat) : Prop where
  eq : x = stage + node * 16
  stage_le : stage ≤ 14
  node_lt : node < 2 ^ 14
  root_lt : stage = 0 → node < 256

section Node

variable {x stage node : Nat} (h : NodeWord x stage node)

include h

theorem NodeWord.stage_eq : fld x 3 0 = stage := by
  obtain ⟨hx, hs, hn, -⟩ := h
  simp only [fld_eq]
  omega

theorem NodeWord.node_eq : fld x 17 4 = node := by
  obtain ⟨hx, hs, hn, -⟩ := h
  simp only [fld_eq]
  omega

theorem NodeWord.lt : x < 2 ^ 18 := by
  obtain ⟨hx, hs, hn, -⟩ := h
  omega

theorem NodeWord.rest_eq (hi : Nat) : fld x hi 18 = 0 := by
  rw [fld_eq, Nat.div_eq_of_lt h.lt, Nat.zero_mod]

theorem NodeWord.root : stage ≠ 0 ∨ node < 256 := (em (stage = 0)).elim (fun h0 => .inr (h.root_lt h0)) .inl

theorem NodeWord.bit31 : bitOf x 31 = false := Nat.testBit_lt_two_pow (h.lt.trans (by decide))

end Node

section Entries

variable {s : State} {ch : Fin 8} {p : Place} {w : Wing} {stage node : Nat}

theorem execPtRead_answers {first n pre : Nat} (h : Served s ch { op := 0x064, lenMin := 2, lenMax := 2, wing := 2 } p)
    (hw : p.wings { op := 0x064, lenMin := 2, lenMax := 2, wing := 2 } (home s ch) = [w])
    (hx : NodeWord (wordAt p.words 2) stage node) (hy : wordAt p.words 3 = first + n * 256) (h1 : 1 ≤ n)
    (h30 : n ≤ 30) (hlast : first + n ≤ 256) (hfirst : first < 256)
    (hf : (s.wing w).trie.cur.find stage node = some pre) :
    Answers (exec (.ptRead ch) s) (took s ch) ch .ok (s.entryWords w (s.wing w).trie.cur true stage node pre first n) := by
  have hfst : fld (wordAt p.words 3) 7 0 = first := by rw [hy, fld_eq]; omega
  have hcnt : fld (wordAt p.words 3) 15 8 = n := by rw [hy, fld_eq]; omega
  have hrest : fld (wordAt p.words 3) 31 16 = 0 := by rw [hy, fld_eq]; omega
  have hwords : (took s ch).entryWords w (s.wing w).trie.cur true stage node pre first n
      = s.entryWords w (s.wing w).trie.cur true stage node pre first n := by
    simp only [State.entryWords, State.entryBad, took_bad, took_wing]
  refine answers_oneWing h hw ?_
  simp only [ctxOf_w, ctxOf_wing, hx.stage_eq, hx.node_eq, hx.rest_eq, hx.bit31, hfst, hcnt, hrest, took_wing]
  rw [Res.need_of (decide_eq_true ⟨trivial, trivial, hx.stage_le, hx.root, h1, h30, hlast⟩)]
  simp [hf, hwords]

theorem execPtWriteEntry_answers {ix : Nat} (h : Served s ch { op := 0x065, lenMin := 4, lenMax := 4, wing := 2 } p)
    (hw : p.wings { op := 0x065, lenMin := 4, lenMax := 4, wing := 2 } (home s ch) = [w])
    (hx : NodeWord (wordAt p.words 2) stage node) (hy : wordAt p.words 3 = ix)
    (hix : ix < 256) (he : tentOk p.words 4 = true) (hf : ((s.wing w).trie.cur.find stage node).isSome = true) :
    Answers (exec (.ptWriteEntry ch) s) (((took s ch).modTrie w fun t =>
      { t with cur := t.cur.rewrite stage node ix (TEnt.ofWords p.words 4) }).fix (.trie w stage node ix)) ch .ok [] := by
  obtain ⟨pre, hpre⟩ := Option.isSome_iff_exists.1 hf
  refine answers_oneWing h hw ?_
  simp only [ctxOf_w, ctxOf_wing, ctxOf_words, hx.stage_eq, hx.node_eq, hx.rest_eq, hy, took_wing, he, Bool.and_true]
  rw [Res.need_of (decide_eq_true ⟨trivial, hix, hx.stage_le, hx.root⟩)]
  simp only [hpre, good]

end Entries

/-- Settles O10: each command's body on the wings that it names, its checks met by the hypotheses. -/
theorem trieStagesAndReads : Obligations.TrieStagesAndReads := by
  unfold Obligations.TrieStagesAndReads
  refine ⟨fun s ch p o hroom => ⟨?stage, ?group, ?discard⟩, fun s ch p w o hw => ⟨?read, ?write, ?policy, ?status⟩⟩
  case stage =>
    rintro rfl h h71 hhi hlen hkey hpol
    refine answers_stages h (by decide) hroom fun t v => Res.need_of ?_ _ _
    simp only [ctxOf_w, ctxOf_words, h71, hhi, hlen, hkey, hpol, and_self, decide_true, Bool.and_true]
  case group =>
    rintro rfl h hg hm
    refine answers_stages h (by decide) hroom fun t v => Res.need_of ?_ _ _
    rw [ctxOf_clean hg, ctxOf_words, Bool.true_and, List.all_map, List.all_eq_true]
    exact fun m hmem => decide_eq_true (hm m hmem)
  case discard =>
    rintro rfl h
    exact congrArg Host.Outcome.next (runCmd_wings _ h (by decide) _ fun _ _ => rfl)
  case read =>
    rintro stage node pre first n rfl h hx hy hs hn h0 h1 h30 hlast hfirst hf
    exact execPtRead_answers h hw ⟨hx, hs, hn, h0⟩ hy h1 h30 hlast hfirst hf
  case write =>
    rintro stage node ix rfl h hx hy hs hn h0 hix he hf
    refine ⟨_, execPtWriteEntry_answers h hw ⟨hx, hs, hn, h0⟩ hy hix he hf, ?_, ?_, ?_, ?_⟩
    · show ((State.modTrie _ w _).wing w).trie.cur = _
      rw [State.modTrie_wing, took_wing]
    · simp [State.fix]
    · show (State.modTrie _ w _).wing (otherWing w) = _
      rw [State.modTrie_wing_other, took_wing]
    · cases w <;> rfl
  case policy =>
    rintro x rfl h hi hx
    refine answers_oneWing h hw ?_
    simp only [ctxOf_w, ctxOf_wing, took_wing, hx]
    exact Res.need_of (ctxOf_clean hi ..) _ _
  case status =>
    rintro rfl h
    refine answers_oneWing h hw ?_
    simp only [ctxOf_wing, took_wing]

/-! ## Commits (R96, R97) -/

section Commits

variable {s : State} {w : Wing}

/-- The group that a staged change writes. -/
def TChange.groupOf : TChange → Option Nat
  | .group g _ => some g
  | _ => none

theorem State.buildTrie_ok {ch : Fin 8}
    (h : buildStatus (s.wing w).trie.cur ((s.wing w).trie.cur.build (s.wing w).trie.staged) = .ok) :
    s.buildTrie w ch = (.ok, s.modTrie w fun t => { t with
      other := some ((s.wing w).trie.cur.build (s.wing w).trie.staged)
      staged := []
      commit := some false
      commitCh := some ch
      wrote := (s.wing w).trie.staged.filterMap TChange.groupOf }) := by
  simp only [State.buildTrie, h]
  rfl

theorem State.commitRes_starts {ch : Fin 8} (hc : (s.wing w).trie.commit = none) (hcopy : (s.wing w).trie.copying = [])
    {t : State} (hb : s.buildTrie w ch = (.ok, t)) (both : Bool) (res : List Word) :
    s.commitRes w ch both res = .wait t (.ptCommit w both res) := by
  have hready : (s.wing w).trie.ready = true := by simp [Trie.ready, hc, hcopy]
  rw [State.commitRes, if_pos hready, hb]

/-- Whether an entry keeps its parity over the switch to a version: one of another wing, of a node that both versions share, or of a
group that the commit did not write. -/
def State.keptBySwitch (s : State) (w : Wing) (v : TrieVer) : Ent → Bool
  | .trie w' stage node _ => !(w' = w ∧ (stage = 0 ∨ v.named stage node ≠ (s.wing w).trie.cur.named stage node))
  | .group w' g _ => !(w' = w ∧ (s.wing w).trie.wrote.contains g)
  | _ => true

theorem execTrieSwitch_switches {v : TrieVer} (hc : (s.wing w).trie.commit = some false)
    (ho : (s.wing w).trie.other = some v) (hcopy : (s.wing w).trie.copying = []) :
    exec (.trieSwitch w) s = .next (State.modTrie { s with upsets := s.upsets.filter (s.keptBySwitch w v) } w fun t =>
      { t with cur := v, other := some t.cur, bank := !t.bank, commit := some true, wrote := [],
               oldBad := s.upsets.filter fun e => !s.keptBySwitch w v e }) := by
  show execTrieSwitch w s = _
  have hnot : ¬(!(s.wing w).trie.copying.isEmpty) = true := by simp [hcopy]
  simp only [execTrieSwitch, hc, ho, if_neg hnot]
  rfl

theorem State.reportCommit_one {ch : Fin 8} {res : List Word} (h : s.chans[ch].waiting = some (.ptCommit w false res)) :
    s.reportCommit w ch = s.finish ch .ok (res ++ (s.wing w).trie.result) := by
  simp only [State.reportCommit, h]
  simp

theorem execTrieCommitComplete_reports {ch : Fin 8} {u : State} (hc : (s.wing w).trie.commit = some true)
    (hch : (s.wing w).trie.commitCh = some ch)
    (hu : u = s.modTrie w fun t => { t with other := none, commit := none, commitCh := none, oldBad := [] }) :
    exec (.trieCommitComplete w) s = .next (State.nextCommit 9 w (u.reportCommit w ch)) := by
  show execTrieCommitComplete w s = _
  simp only [execTrieCommitComplete, hc, hch, hu]

end Commits

/-- Settles O11: the commit starts, the banks switch, and the report frees the version before. -/
theorem trieCommits : Obligations.TrieCommits := by
  unfold Obligations.TrieCommits
  refine fun s ch p w => ⟨fun h hw hc hcopy hb => ?commit, fun v hc ho hcopy => ?switch, fun res hc hch hwait => ?report⟩
  case commit =>
    rw [← took_wing s ch] at hc hcopy hb
    refine waits_oneWing h hw ((State.commitRes_starts hc hcopy (State.buildTrie_ok hb) _ _).trans ?_)
    rw [took_wing]
    rfl
  case switch =>
    refine ⟨_, execTrieSwitch_switches hc ho hcopy, ?_⟩
    rw [State.modTrie_wing, State.modTrie_wing_other]
    refine ⟨rfl, by cases w <;> rfl, by cases w <;> rfl, rfl, fun g m hg => ?_, by cases w <;> rfl, by cases w <;> rfl⟩
    have hgone : s.keptBySwitch w v (.group w g m) = false := by simpa [State.keptBySwitch] using hg
    simp [State.modTrie, hgone]
  case report =>
    refine ⟨_, rfl, ?_⟩
    rw [execTrieCommitComplete_reports hc hch rfl, State.reportCommit_one]
    simpa [State.modTrie] using hwait

end Sys2Proof.Machine
end

section
/-! The Box Office and the Green Room (O12, O13): their commands by what a lookup or a handle finds. -/

namespace Sys2Proof.Machine

open Sys2Proof.Safety Sys2Proof.Laws

/-! ## Lookup (R106, R111) -/

theorem State.bad_of_boxHits {s : State} {w : Wing} {kt : Nat} {key : Bytes} {x : Nat × BoxEnt} (h : x ∈ s.boxHits w kt key) :
    s.bad (.box w x.1) = false := by
  obtain ⟨i, -, hi⟩ := List.mem_filterMap.1 h
  split at hi
  · cases hi
  · next hgood =>
    split at hi
    · split at hi
      · cases hi
        exact Bool.eq_false_iff.2 hgood
      · cases hi
    · cases hi

/-- A lookup finds an entry in a slot whose parity is good (R111). -/
theorem State.bad_of_boxFind {s : State} {w : Wing} {kt slot : Nat} {key : Bytes} {e : BoxEnt}
    (h : s.boxFind w kt key = some (slot, e)) : s.bad (.box w slot) = false := by
  suffices (slot, e) ∈ s.boxHits w kt key from State.bad_of_boxHits this
  unfold State.boxFind at h
  split at h
  · next hl =>
    rw [hl]
    split at h <;> cases h <;> simp
  · exact List.mem_of_mem_head? h

/-- An entry that a lookup finds is written with no repair of its slot. -/
theorem State.boxPut_of_boxFind {s : State} {w : Wing} {kt slot : Nat} {key : Bytes} {old : BoxEnt}
    (h : s.boxFind w kt key = some (slot, old)) (e : BoxEnt) :
    s.boxPut w slot e = s.modBox w fun b => { b with slots := tput b.slots slot e } := by
  rw [State.boxPut, if_neg (Bool.eq_false_iff.1 (State.bad_of_boxFind h))]

/-! ## BOX_INSERT (R105) -/

/-- Whether a request to the arbiter is the command of a channel. -/
def BoxReq.ofChan (ch : Fin 8) : BoxReq → Bool
  | .command c _ => c = ch
  | .learned _ _ _ _ => false

theorem BoxReq.ofChan_eq_false {ch : Fin 8} {r : BoxReq} : r.ofChan ch = false ↔ ∀ e, r ≠ .command ch e := by
  cases r with
  | command c e => simp [BoxReq.ofChan]
  | learned => simp [BoxReq.ofChan]

/-- The earlier requests of a channel are withdrawn. -/
def State.boxWithdrawn (s : State) (ch : Fin 8) : State :=
  s.eachWing fun s w => s.modBox w fun b => { b with reqs := b.reqs.filter fun r => !r.ofChan ch }

theorem State.mem_boxWithdrawn {s : State} {ch : Fin 8} {v : Wing} {r : BoxReq} :
    r ∈ ((s.boxWithdrawn ch).wing v).box.reqs ↔ r ∈ (s.wing v).box.reqs ∧ ∀ e, r ≠ .command ch e := by
  rw [← BoxReq.ofChan_eq_false, ← Bool.not_eq_true']
  cases v <;> exact List.mem_filter

section Box

variable {s : State} {ch : Fin 8} {p : Place} {w : Wing}

theorem execBoxInsert_waits (h : Served s ch { op := 0x080, lenMin := 8, lenMax := 8, wing := 2 } p)
    (hw : p.wings { op := 0x080, lenMin := 8, lenMax := 8, wing := 2 } (home s ch) = [w]) (hk : boxEntOk p.words 2 = true) :
    Waits (exec (.boxInsert ch) s) (((took s ch).boxWithdrawn ch).modBox w fun b =>
      { b with reqs := b.reqs ++ [.command ch (boxGiven p.words 2)] }) ch .box :=
  waits_oneWing h hw (if_pos hk)

/-! ## Entries found and absent (R102, R108) -/

/-- What a command does with the entry that a lookup of its key finds; NOT_FOUND where none is. -/
def State.onFound (s : State) (w : Wing) (e : BoxEnt) (act : Nat → BoxEnt → Res) : Res :=
  match s.boxFind w e.ktype e.key with
  | some (slot, old) => act slot old
  | none => failed s .notFound

theorem State.onFound_some {t : State} {e old : BoxEnt} {slot : Nat} (h : t.boxFind w e.ktype e.key = some (slot, old))
    (act : Nat → BoxEnt → Res) : t.onFound w e act = act slot old := by
  rw [State.onFound, h]

theorem State.onFound_none {t : State} {e : BoxEnt} (h : t.boxFind w e.ktype e.key = none) (act : Nat → BoxEnt → Res) :
    t.onFound w e act = failed t .notFound := by
  rw [State.onFound, h]

theorem execBoxUpdate_served (h : Served s ch { op := 0x081, lenMin := 8, lenMax := 8, wing := 1 } p)
    (hw : p.wings { op := 0x081, lenMin := 8, lenMax := 8, wing := 1 } (home s ch) = [w]) (hk : boxEntOk p.words 2 = true) :
    exec (.boxUpdate ch) s = .next (((took s ch).onFound w (boxGiven p.words 2) fun slot old =>
      good ((took s ch).boxPut w slot { old with
        state := (boxGiven p.words 2).state
        sai := (boxGiven p.words 2).sai
        port := (boxGiven p.words 2).port
        lock := (boxGiven p.words 2).lock
        conflict := false })).settle ch s.chans[ch].expect) :=
  congrArg Host.Outcome.next ((runCmd_oneWing h hw).trans (congrArg (Res.settle ch _) (if_pos hk)))

theorem execBoxRemove_served (h : Served s ch { op := 0x082, lenMin := 8, lenMax := 8, wing := 1 } p)
    (hw : p.wings { op := 0x082, lenMin := 8, lenMax := 8, wing := 1 } (home s ch) = [w]) (hk : boxNamed p.words 2 = true) :
    exec (.boxRemove ch) s = .next (((took s ch).onFound w (BoxEnt.ofWords p.words 2) fun slot _ =>
      good ((took s ch).boxClear w slot)).settle ch s.chans[ch].expect) :=
  congrArg Host.Outcome.next ((runCmd_oneWing h hw).trans (congrArg (Res.settle ch _) (if_pos hk)))

theorem execBoxLookup_served (h : Served s ch { op := 0x083, lenMin := 8, lenMax := 8, wing := 2 } p)
    (hw : p.wings { op := 0x083, lenMin := 8, lenMax := 8, wing := 2 } (home s ch) = [w]) (hk : boxNamed p.words 2 = true) :
    exec (.boxLookup ch) s = .next (((took s ch).onFound w (BoxEnt.ofWords p.words 2) fun slot x =>
      .done (took s ch) .ok (x.words false ++ [wd (locator slot)])).settle ch s.chans[ch].expect) :=
  congrArg Host.Outcome.next ((runCmd_oneWing h hw).trans (congrArg (Res.settle ch _) (if_pos hk)))

end Box

/-- Settles O12: each command by whether its entry is well formed and its key is found. -/
theorem boxOffice : Obligations.BoxOffice := by
  unfold Obligations.BoxOffice
  refine ⟨fun s ch p w o ho h hw => ⟨fun hk => ?insert, fun hk => ?malformed⟩, fun s ch p w o h hw => ⟨?update, ?remove, ?lookup,
    ?lookupAbsent, ?updateAbsent, ?removeAbsent, ?readSlot⟩⟩
  case insert =>
    subst ho
    exact ⟨_, _, execBoxInsert_waits h hw hk, rfl, rfl, fun v r => by rw [State.mem_boxWithdrawn, took_wing]⟩
  case malformed =>
    subst ho
    exact answers_oneWing h hw (if_neg (Bool.eq_false_iff.1 hk))
  case update =>
    rintro e slot old rfl hk rfl hf
    refine ⟨_, rfl, ?_⟩
    rw [execBoxUpdate_served h hw hk, State.onFound_some hf, State.boxPut_of_boxFind hf]
    rfl
  case remove =>
    rintro e slot old rfl hk rfl hf
    rw [execBoxRemove_served h hw hk, State.onFound_some hf]
    rfl
  case lookup =>
    rintro e slot x rfl hk rfl hf
    rw [execBoxLookup_served h hw hk, State.onFound_some hf]
    rfl
  case lookupAbsent =>
    rintro e rfl hk rfl hf
    rw [execBoxLookup_served h hw hk, State.onFound_none hf]
    rfl
  case updateAbsent =>
    rintro e rfl hk rfl hf
    rw [execBoxUpdate_served h hw hk, State.onFound_none hf]
    rfl
  case removeAbsent =>
    rintro e rfl hk rfl hf
    rw [execBoxRemove_served h hw hk, State.onFound_none hf]
    rfl
  case readSlot =>
    rintro slot rfl hslot
    refine answers_oneWing h hw ?_
    simp only [ctxOf_w, ctxOf_wing, hslot, took_wing, took_bad]

/-! ## Frames released from the Green Room (R115, R134) -/

/-- A held frame as GRQ_RELEASE sends it on: its earlier selection forgotten, under the SAI that its word gives, where one is. -/
def GFrame.released (f : GFrame) (word : Nat) : GFrame :=
  { f with
    reason := 0
    tag := 0
    sai := 0xFFFFF
    cls := if f.inb then 0 else f.clsIn
    saiIn := if !f.inb ∧ bitOf word 20 then fld word 19 0 else f.saiIn }

theorem GFrame.released_inbound {f : GFrame} (h : f.inb = true) (word : Nat) :
    f.released word = { f with reason := 0, tag := 0, sai := 0xFFFFF, cls := 0 } := by
  simp [GFrame.released, h]

theorem GFrame.released_outbound {f : GFrame} (h : f.inb = false) (word : Nat) :
    f.released word = { f with
      reason := 0
      tag := 0
      sai := 0xFFFFF
      cls := f.clsIn
      saiIn := if bitOf word 20 then fld word 19 0 else f.saiIn } := by
  simp [GFrame.released, h]

/-- A frame is looked up again, or admitted again. -/
def State.sendOn (s : State) (g : GFrame) : State := if g.inb then s.takeIn g else s.selectFrame g

theorem State.readmitFits_congr {s t : State} (h : t.ports = s.ports) (g : GFrame) : t.readmitFits g = s.readmitFits g := by
  simp only [State.readmitFits, h]

theorem State.modPort_id (s : State) (p : Fin 64) : (s.modPort p fun x => x) = s := by
  simp [State.modPort]

/-- A port on which no other released frame waits sends a frame on at once where its staging has room, else keeps it. -/
theorem State.readmit_first {t : State} {g : GFrame} (h : t.ports[g.port].readmit = []) :
    (t.modPort g.port fun x => { x with readmit := x.readmit ++ [g] }).readmit g.port
      = if t.readmitFits g then t.sendOn g else t.modPort g.port fun x => { x with readmit := [g] } := by
  have hq : (t.modPort g.port fun x => { x with readmit := x.readmit ++ [g] }) = t.modPort g.port fun x => { x with readmit := [g] } := by
    simp only [State.modPort, h, List.nil_append]
  have hback : ((t.modPort g.port fun x => { x with readmit := [g] }).modPort g.port fun x => { x with readmit := [] }) = t := by
    rw [State.modPort_modPort, ← h]
    exact t.modPort_id g.port
  have hfits : (t.modPort g.port fun x => { x with readmit := [g] }).readmitFits g = t.readmitFits g := by
    simp only [State.readmitFits, State.modPort_self]
    rfl
  have hlist : (t.modPort g.port fun x => { x with readmit := [g] }).ports[g.port].readmit = [g] := by
    rw [State.modPort_self]
  rw [hq]
  simp only [State.readmit, hlist, hfits, hback]
  rfl

/-- A port that is open, with no tamper hold, takes a released frame. -/
theorem State.releaseRefused_none {s : State} {p : Fin 64} (ha : s.ports[p].absent = false) (hs : s.ports[p].st = .opened)
    (hh : s.vlt.hold = false) : s.releaseRefused p = none := by
  simp only [State.releaseRefused, ha, hs, hh]
  rfl

section Release

variable {s : State} {ch : Fin 8} {p : Place} {w : Wing} {f : GFrame}

theorem execGrqRelease_sends (h : Served s ch { op := 0x0A3, lenMin := 2, lenMax := 2, wing := 2 } p)
    (hw : p.wings { op := 0x0A3, lenMin := 2, lenMax := 2, wing := 2 } (home s ch) = [w])
    (h2 : wordAt p.words 2 < 2 ^ 16) (h3 : wordAt p.words 3 < 2 ^ 21) (hf : (s.wing w).grq.held (wordAt p.words 2) = some f)
    (hfree : (took s ch).releaseRefused f.port = none) {t : State} {g : GFrame} (ht : t = (took s ch).grqTake w (wordAt p.words 2))
    (hg : g = f.released (wordAt p.words 3)) (hnone : s.ports[f.port].readmit = []) :
    Answers (exec (.grqRelease ch) s)
      (if s.readmitFits g then t.sendOn g else t.modPort f.port fun x => { x with readmit := [g] }) ch .ok [] := by
  have hports : t.ports = s.ports := by rw [ht]; exact State.modWing_ports _ w _
  have hfirst := State.readmit_first (t := t) (g := g) (by subst hg; rwa [hports])
  rw [State.readmitFits_congr hports] at hfirst
  subst hg
  refine answers_oneWing h hw ((Res.need_of ?_ _ _).trans ?_)
  · rw [ctxOf_clean h2, ctxOf_clean h3, Bool.and_self]
  · simp only [ctxOf_w, ctxOf_wing, took_wing, hf, hfree, ← ht]
    exact congrArg good hfirst

theorem execGrqRelease_gone (h : Served s ch { op := 0x0A3, lenMin := 2, lenMax := 2, wing := 2 } p)
    (hw : p.wings { op := 0x0A3, lenMin := 2, lenMax := 2, wing := 2 } (home s ch) = [w])
    (h2 : wordAt p.words 2 < 2 ^ 16) (h3 : wordAt p.words 3 < 2 ^ 21) (hf : (s.wing w).grq.held (wordAt p.words 2) = none) :
    Answers (exec (.grqRelease ch) s) (took s ch) ch .grqGone [] := by
  refine answers_oneWing h hw ((Res.need_of ?_ _ _).trans ?_)
  · rw [ctxOf_clean h2, ctxOf_clean h3, Bool.and_self]
  · simp only [ctxOf_w, ctxOf_wing, took_wing, hf, failed]

end Release

/-- Settles O13: each command by what its handle names, a release by what waits on the frame's port and the room there. -/
theorem greenRoom : Obligations.GreenRoom := by
  unfold Obligations.GreenRoom
  refine ⟨fun s ch p w o h hw => ⟨?list, ?read, ?drop, ?dropGone⟩,
    fun s ch p w f => fun h hw h2 h3 => ⟨fun hf ha hs hh t g ht hin hout => ?release, execGrqRelease_gone h hw h2 h3⟩⟩
  case list =>
    rintro rfl hq
    exact ⟨_, _, rfl, rfl, answers_oneWing h hw ((Res.need_of (decide_eq_true hq) _ _).trans (by rw [ctxOf_wing, took_wing]; rfl))⟩
  case read =>
    rintro f rfl h2 h3 hf
    refine answers_oneWing h hw ((Res.need_of ?_ _ _).trans ?_)
    · rw [ctxOf_clean h2, ctxOf_clean h3, Bool.and_self]
    · simp only [ctxOf_w, ctxOf_wing, took_wing, hf]
  case drop =>
    rintro f rfl h2 hf
    refine answers_oneWing h hw ((Res.need_of (ctxOf_clean h2 ..) _ _).trans ?_)
    simp only [ctxOf_w, ctxOf_wing, took_wing, hf]
    rfl
  case dropGone =>
    rintro rfl h2 hf
    refine answers_oneWing h hw ((Res.need_of (ctxOf_clean h2 ..) _ _).trans ?_)
    simp only [ctxOf_w, ctxOf_wing, took_wing, hf, failed]
  case release =>
    have hg : g = f.released (wordAt p.words 3) := by
      cases hi : f.inb with
      | true => rw [GFrame.released_inbound hi, hin hi]
      | false => rw [GFrame.released_outbound hi, hout hi]
    have hinb : g.inb = f.inb := by rw [hg]; rfl
    have hsends := execGrqRelease_sends h hw h2 h3 hf (State.releaseRefused_none ha hs hh) ht hg
    refine ⟨fun hnone hfits => ?_, fun hnone hfull => ?_⟩
    · have hgo := hsends hnone
      rw [if_pos hfits, State.sendOn, hinb] at hgo
      exact ⟨fun hi => by rwa [if_pos hi] at hgo, fun hi => by rwa [if_neg (Bool.eq_false_iff.1 hi)] at hgo⟩
    · have hgo := hsends hnone
      rwa [if_neg (Bool.eq_false_iff.1 hfull)] at hgo

end Sys2Proof.Machine
end

section
/-! Timed events of frames, leases and rekeys (O42): each where it is due, and where it is not. -/

namespace Sys2Proof.Machine

/-! ## The arbiter of insertions (R105) -/

/-- The answer to a BOX_INSERT: the locator of its slot, or BOX_FULL. -/
def State.answerInsert (s : State) (ch : Fin 8) : Option Nat → State
  | some slot => s.finish ch .ok [wd (locator slot)]
  | none => s.finish ch .boxFull []

section Insertion

variable {s : State} {w : Wing} {rest : List BoxReq}

theorem execBoxInsertion_command {ch : Fin 8} {e : BoxEnt} {r : Option Nat} {t g : State}
    (hq : (s.wing w).box.reqs = .command ch e :: rest) (hg : g = if rest.isEmpty then s else s.rhlGrant w 14 true)
    (hi : (g.modBox w fun b => { b with reqs := rest }).boxInstall w e = (r, t)) :
    exec (.boxInsertion w) s = .next (if t.chans[ch].waiting = some .box then t.answerInsert ch r else t) := by
  show execBoxInsertion w s = _
  rw [hg] at hi
  simp only [execBoxInsertion, hq, hi]
  cases r <;> rfl

theorem execBoxInsertion_learned {kt : Nat} {key : Bytes} {c : PortCls} {f : GFrame} {g : State}
    (hq : (s.wing w).box.reqs = .learned kt key c f :: rest) (hg : g = if rest.isEmpty then s else s.rhlGrant w 14 false) :
    exec (.boxInsertion w) s = .next ((g.modBox w fun b => { b with reqs := rest }).boxLearn w kt key c f) := by
  show execBoxInsertion w s = _
  simp only [execBoxInsertion, hq, hg]

end Insertion

/-! ## Entries and frames past their time (R107, R113, R233) -/

section Aged

variable {s : State} {w : Wing}

theorem execUnkeyedTtl_due {slot : Nat} {e : BoxEnt} (he : tget (s.wing w).box.slots slot = some e) (hs : e.state = 1)
    (hb : s.bad (.box w slot) = false) (hd : e.at' + (s.wing w).unkeyedTtl * 1000000000 < s.rt) :
    exec (.unkeyedTtl w slot) s = .next (s.boxClear w slot) := by
  show execUnkeyedTtl w slot s = _
  have hgo : e.state = 1 ∧ (!s.bad (.box w slot)) = true ∧ e.at' + (s.wing w).unkeyedTtl * 1000000000 < s.rt :=
    ⟨hs, by rw [hb]; rfl, hd⟩
  simp only [execUnkeyedTtl, he, if_pos hgo]

theorem execGrqHoldTimeout_due {h : Nat} {f : GFrame} {q : Fin 3} (hf : (s.wing w).grq.frames.find? (fun f => f.handle = h) = some f)
    (hq : q = Fin.ofNat 3 f.queue) (hd : f.admRt + (s.wing w).grq.timeout[q] * 1000 ≤ s.rt) :
    exec (.grqHoldTimeout w h) s = .next (s.modWing w fun x => { x with grq := { x.grq with
      frames := x.grq.frames.filter fun f => f.handle ≠ h
      timedOut := bumpAt x.grq.timedOut q 1
      sumTo := bumpAt x.grq.sumTo q 1 } }) := by
  show execGrqHoldTimeout w h s = _
  subst hq
  simp only [execGrqHoldTimeout, hf, if_pos hd]

theorem State.modWing_congr {f k : WingSt → WingSt} (h : f (s.wing w) = k (s.wing w)) : s.modWing w f = s.modWing w k := by
  rw [State.modWing, State.modWing, h]

/-- The queues that lost frames since the last summary. -/
def Grq.lost (g : Grq) : List (Fin 3) := (List.finRange 3).filter fun q => g.sumFull[q] + g.sumTo[q] ≠ 0

/-- Whether the last summary of a wing is less than a millisecond old. -/
def State.summedLately (s : State) (w : Wing) : Bool := (s.wing w).grq.sumAt.any fun t => decide (s.rt < t + 1000000)

theorem State.summedLately_of_some {t : Nat} (h : (s.wing w).grq.sumAt = some t) :
    s.summedLately w = decide (s.rt < t + 1000000) := by
  rw [State.summedLately, h, Option.any_some]

theorem execGrqSummary_lately (h : s.summedLately w = true) : exec (.grqSummary w) s = .next s := if_pos h

theorem execGrqSummary_nothing (h : (s.wing w).grq.lost = []) : exec (.grqSummary w) s = .next s := by
  show execGrqSummary w s = _
  have hempty : (s.wing w).grq.lost.isEmpty = true := by rw [h]; rfl
  unfold execGrqSummary
  dsimp only
  split
  · rfl
  · exact if_pos hempty

theorem execGrqSummary_names (hl : s.summedLately w = false) (h : (s.wing w).grq.lost ≠ []) :
    exec (.grqSummary w) s = .next (((s.wing w).grq.lost.foldl (fun t q =>
      t.log w .grqSummary q.val 0 (s.wing w).grq.sumFull[q] (s.wing w).grq.sumTo[q]) s).modWing w fun x => { x with grq :=
        { x.grq with sumFull := Vector.replicate 3 0, sumTo := Vector.replicate 3 0, sumAt := some s.rt } }) := by
  have hlost : ¬(s.wing w).grq.lost.isEmpty = true := by simpa using h
  have hrt : ((s.wing w).grq.lost.foldl (fun t q =>
      t.log w .grqSummary q.val 0 (s.wing w).grq.sumFull[q] (s.wing w).grq.sumTo[q]) s).rt = s.rt :=
    foldl_keeps State.rt _ (fun t q => congrArg Vault.rt (by simp)) _ _
  exact (if_neg (Bool.eq_false_iff.1 hl)).trans ((if_neg hlost).trans (by rw [← hrt]; rfl))

theorem State.summedLately_eq_false (h : (s.wing w).grq.sumAt = none ∨ ∃ t, (s.wing w).grq.sumAt = some t ∧ t + 1000000 ≤ s.rt) :
    s.summedLately w = false := by
  rcases h with h | ⟨t, h, ht⟩
  · simp [State.summedLately, h]
  · rw [State.summedLately_of_some h, decide_eq_false_iff_not, Nat.not_lt]
    exact ht

end Aged

/-! ## Leases and rekeys (R141 to R143, R271) -/

section Leases

variable {s : State} {w : Wing} {sai : Nat} {x : Sa} (hx : s.sa w sai = some x)

include hx

theorem execLeaseGrant_commits {cut : JCut} {a b : Nat} {body : Bytes} (hg : x.r.groupPn = true) (ha : x.leaseAsk.isSome = true)
    (hh : x.leaseHeld = false) (hp : s.pathLost w = false) (hk : s.vlt.keys.ret.isSome = true)
    (hroom : s.vlt.leaseIx sai = none → s.vlt.leaseFree.isSome = true)
    (hnext : a = ((s.vlt.leaseIx sai).bind fun i => s.vlt.lease i).elim 1 (fun e => e.2.2)) (h0 : a ≠ 0) (hl : a ≤ x.r.lastPn)
    (hb : b = min (a + 65536) (x.r.lastPn + 1)) (hbody : body = leBytes 4 (sai + b2n x.r.pn64 * 2 ^ 20) ++ leBytes 8 b) :
    exec (.leaseGrant w sai cut) s = .next (s.commitRecord 2 0 s.vlt.updCtr s.vlt.kumDigest body cut fun u =>
      (u.modVlt fun v => v.applySlot v.activeSlot).leaseGiven w sai a b) := by
  have hasked : ¬((!x.r.groupPn) = true ∨ x.leaseAsk.isNone = true ∨ x.leaseHeld = true ∨ s.pathLost w = true) := by
    simp [hg, ← Option.not_isSome, ha, hh, hp]
  have hable : ¬(s.vlt.keys.ret.isNone = true ∨ (s.vlt.leaseIx sai).isNone = true ∧ s.vlt.leaseFree.isNone = true) := by
    rw [not_or, not_and]
    refine ⟨by simp [← Option.not_isSome, hk], fun hix => ?_⟩
    simp [← Option.not_isSome, hroom (Option.isNone_iff_eq_none.1 hix)]
  have hleft : ¬(x.r.lastPn < a ∨ a = 0 ∧ (s.vlt.leaseIx sai).isSome = true) := by
    rintro (hlt | ⟨hz, -⟩)
    · exact Nat.not_lt.2 hl hlt
    · exact h0 hz
  show execLeaseGrant w sai cut s = _
  simp only [execLeaseGrant, hx, if_neg hasked, if_neg hable, ← hnext, if_neg hleft, hb, hbody]

theorem execLeaseRefreshRetry_due {t : Nat} (ha : x.leaseAsk = some t) (hd : t + 1000000000 ≤ s.rt) :
    exec (.leaseRefreshRetry w sai) s = .next ((s.modSa w sai fun x => { x with leaseAsk := some s.rt, leaseHeld := false }).log w
      .leaseHold 0 sai (x.leaseEnd % 2 ^ 32) (x.leaseEnd / 2 ^ 32)) := by
  show execLeaseRefreshRetry w sai s = _
  simp only [execLeaseRefreshRetry, hx, ha, if_pos hd]

theorem execRekeyOverlap_over {t : Nat} (ha : x.st = .active) (ho : x.r.overlapMs ≠ 0) (ht : x.overlapAt = some t)
    (hd : t + x.r.overlapMs * 1000000 ≤ s.rt) : exec (.rekeyOverlap w sai) s = .next (s.startSaClose w sai) := by
  have hover : x.st = .active ∧ x.r.overlapMs ≠ 0
      ∧ (x.overlapAt.any fun t => decide (t + x.r.overlapMs * 1000000 ≤ s.rt)) = true :=
    ⟨ha, ho, by rwa [ht, Option.any_some, decide_eq_true_eq]⟩
  show execRekeyOverlap w sai s = _
  simp only [execRekeyOverlap, hx, if_pos hover]

end Leases

/-! ## The statement -/

/-- Settles O42: each event by what it finds and whether its time has come. -/
theorem timers : Obligations.Timers := by
  unfold Obligations.Timers
  refine ⟨fun s w => ⟨?inserted, ?full, ?overtaken, ?learned, ?unkeyed, ?held, ?summary, fun h => if_pos h, ?ushSummary⟩,
    fun s w sai x hx => ⟨?grant, fun t ha hd => execLeaseRefreshRetry_due hx ha hd,
      fun t ha ho ht hd => execRekeyOverlap_over hx ha ho ht hd⟩⟩
  case inserted =>
    intro ch e rest slot t g hq hg hi hwait
    rw [execBoxInsertion_command hq hg hi, if_pos hwait]
    rfl
  case full =>
    intro ch e rest t g hq hg hi hwait
    rw [execBoxInsertion_command hq hg hi, if_pos hwait]
    rfl
  case overtaken =>
    intro ch e rest r t g hq hg hi hwait
    rw [execBoxInsertion_command hq hg hi, if_neg hwait]
  case learned =>
    intro kt key c f rest g hq hg
    exact execBoxInsertion_learned hq hg
  case unkeyed =>
    intro slot e he hs hb hd
    exact execUnkeyedTtl_due he hs hb hd
  case held =>
    intro h f q hf hq hd
    exact ⟨_, rfl, (execGrqHoldTimeout_due hf hq hd).trans (congrArg _ (State.modWing_congr rfl))⟩
  case summary =>
    rintro g qs rfl rfl
    refine ⟨fun t ht hlt => execGrqSummary_lately ?_, execGrqSummary_nothing, fun hne hold => ?_⟩
    · rwa [State.summedLately_of_some ht, decide_eq_true_eq]
    · exact execGrqSummary_names (State.summedLately_eq_false hold) hne
  case ushSummary =>
    intro hd ht
    exact if_neg (not_or.2 ⟨hd, Nat.not_lt.2 ht⟩)
  case grant =>
    intro cut a b body hg ha hh hp hk hroom hnext h0 hl hb hbody
    exact execLeaseGrant_commits hx hg ha hh hp hk hroom hnext h0 hl hb hbody

end Sys2Proof.Machine
end

section
/-! The receive window (O41): what an SA with replay protection accepts once a number has been received under it. -/

namespace Sys2Proof.Machine

section Window

variable {x : Sa} {n m : Nat}

/-- A number that is not above TOP, and is received where it lies in the window, is not accepted. -/
theorem Sa.not_accepts_of_received (hr : x.r.replay = true) (hm : m ≤ x.pn)
    (h : x.pn - m < x.r.window → x.received m = true) : x.accepts m = false := by
  have habove : ¬x.pn < m := Nat.not_lt.2 hm
  rw [Sa.accepts, if_pos hr]
  by_cases hwin : x.pn - m < x.r.window
  · simp [habove, h hwin]
  · simp [habove, hwin]

theorem Sa.received_iff : x.received m = true ↔ m < x.floor ∨ m ∈ x.recv := by
  simp [Sa.received]

/-- The last 1,024 numbers keep their marks when another is received. -/
theorem Sa.markReceived_received (h : m = n ∨ x.received m = true) (hlast : max x.pn n < m + 1024) :
    (x.markReceived n).received m = true := by
  rw [Sa.received_iff] at h ⊢
  rcases h with rfl | hfloor | hrecv
  · exact .inr (List.mem_filter.2 ⟨List.mem_append_right _ List.mem_cons_self, decide_eq_true hlast⟩)
  · exact .inl hfloor
  · exact .inr (List.mem_filter.2 ⟨List.mem_append_left _ hrecv, decide_eq_true hlast⟩)

/-- A number received, now or before, is not accepted once another has been received. -/
theorem Sa.markReceived_not_accepts (hr : x.r.replay = true) (hw : x.r.window ≤ 1024) (hm : m ≤ max x.pn n)
    (h : m = n ∨ x.received m = true) : (x.markReceived n).accepts m = false := by
  refine Sa.not_accepts_of_received hr hm fun hwin => Sa.markReceived_received h ?_
  have hin : max x.pn n - m < x.r.window := hwin
  omega

end Window

/-- Settles O41: a number within the window is among the last 1,024, whose marks are kept. -/
theorem replayWindow : Obligations.ReplayWindow := by
  unfold Obligations.ReplayWindow
  intro x n m hr hw
  exact ⟨rfl, Sa.markReceived_not_accepts hr hw (Nat.le_max_right _ _) (.inl rfl),
    fun hm h => Sa.markReceived_not_accepts hr hw (hm.trans (Nat.le_max_left _ _)) (.inr h)⟩

end Sys2Proof.Machine
end

section
/-! Security associations (O8, O9): the copies that a command finds, their records, switches and closes. -/

namespace Sys2Proof.Machine

open Sys2Proof.Safety Sys2Proof.Laws

/-! ## Copies of an SA -/

theorem tget_tmod_self {α : Type} (t : Tbl α) (k : Nat) (f : α → α) : tget (tmod t k f) k = (tget t k).map f := by
  induction t with
  | nil => rfl
  | cons e t ih =>
    obtain ⟨k', v⟩ := e
    by_cases hk : k' = k
    · simp [tmod, tget, hk]
    · simp [tmod, tget, hk, ih]

theorem State.modSa_sa (s : State) (w : Wing) (sai : Nat) (f : Sa → Sa) : (s.modSa w sai f).sa w sai = (s.sa w sai).map f := by
  rw [State.sa, State.modSa, State.modWing_wing, tget_tmod_self, State.sa]

theorem took_sa (s : State) (ch : Fin 8) (w : Wing) (sai : Nat) : (took s ch).sa w sai = s.sa w sai := by
  rw [State.sa, took_wing, State.sa]

theorem took_saCopies (s : State) (ch : Fin 8) (sai : Nat) : (took s ch).saCopies sai = s.saCopies sai := by
  simp only [State.saCopies, took_sa]

/-- A wing's own copy is the one that is found for it. -/
theorem State.find_saCopies {s : State} {w : Wing} {sai : Nat} {x : Sa} (h : s.sa w sai = some x) :
    (s.saCopies sai).find? (fun x => x.1 = w) = some (w, x) := by
  cases w with
  | sl => simp [State.saCopies, h]
  | sr => cases hsl : s.sa .sl sai <;> simp [State.saCopies, h, hsl]

/-! ## A close begins (R144, R345) -/

theorem State.rhlGrant_keeps {γ : Type} {g : WingSt → γ} (h : Apart g) (s : State) (w v : Wing) (a : Nat) (b : Bool) :
    g ((s.rhlGrant w a b).wing v) = g (s.wing v) := by
  unfold State.rhlGrant
  dsimp only
  split
  · split
    · exact s.modWing_keeps w v _ fun _ => h.2.1 _ _
    · rw [State.rhlPut_keeps h]
      exact s.modWing_keeps w v _ fun _ => h.2.1 _ _
  · rfl

theorem State.closeGrant_sa (s : State) (w : Wing) (met : Bool) (sai : Nat) : (s.closeGrant w met).sa w sai = s.sa w sai := by
  cases met with
  | false => rfl
  | true => exact congrArg (tget · sai) (s.rhlGrant_keeps ⟨fun _ _ => rfl, fun _ _ => rfl, fun _ _ => rfl⟩ w w 18 false)

theorem State.askOwn_sa (s : State) (w : Wing) (u : OwnUse) (c : Nat) (sai : Nat) : (s.askOwn w u c).sa w sai = s.sa w sai := by
  unfold State.askOwn
  split
  · rfl
  · exact congrArg (tget · sai) (s.modWing_keeps w w _ fun _ => rfl)

theorem State.needSa_sa (s : State) (w : Wing) (sai : Nat) : (s.needSa w sai).sa w sai = s.sa w sai := by
  unfold State.needSa
  split
  · rfl
  · split
    · rfl
    · exact s.askOwn_sa w _ 3 sai

theorem State.startSaClose_active {s : State} {w : Wing} {sai : Nat} {x : Sa} (h : s.sa w sai = some x) (ha : x.st = .active) :
    (s.startSaClose w sai).sa w sai = some { x with st := .closing, closeAt := s.rt } := by
  rw [State.startSaClose, State.modSa_sa, State.needSa_sa, State.closeGrant_sa, h, Option.map_some, if_pos ha]

/-! ## Commands on every copy of an SA (R138, R139, R144) -/

/-- The serving wing of a channel stays that of its map while a command is carried out. -/
theorem took_home (s : State) (ch : Fin 8) : (took s ch).chans[ch].mapWing = home s ch := took_mapWing s ch

section Copies

variable {s : State} {ch : Fin 8} {pl : Place} {sai : Nat} {xs : List (Wing × Sa)}
  (hw : wordAt pl.words 2 = sai) (hsai : sai < 2 ^ 20) (hxs : s.saCopies sai = xs) (hne : xs ≠ [])
  (hr : ∀ x ∈ xs, s.reach (home s ch) x.1 = true)

include hw hsai hxs hne hr

/-- A command on an installed SA whose copies are all in reach is carried out on them. -/
theorem State.onSa_copies (ws : List Wing) (w : Wing) (f : List (Wing × Sa) → Res) :
    (took s ch).onSa (ctxOf ch pl ws w) f = f xs := by
  subst hw
  have hclean : (ctxOf ch pl ws w).clean 2 20 = true := ctxOf_clean hsai ch ws w
  have hfound : ¬xs.isEmpty = true := by simpa using hne
  have hreach : ¬(xs.any fun x => !(took s ch).reach (home s ch) x.1) = true := by simpa [took_reach] using hr
  simp only [State.onSa, Res.need_of hclean, ctxOf_w, ctxOf_ch, took_saCopies, took_home, hxs]
  rw [if_neg hfound, if_neg hreach]

theorem execSaSwitch_switches (h : Served s ch { op := 0x043, lenMin := 1, lenMax := 1 } pl)
    (hgo : ∀ x ∈ xs, x.2.st = .active ∧ x.2.switched = false ∧ x.2.r.inb = false ∧ x.2.r.nextValid = true
      ∧ (took s ch).nextOk x.1 x.2.r.nextSai none = true) :
    Answers (exec (.saSwitch ch) s) (xs.foldl (fun t x => t.switchSa x.1 sai x.2.r.nextSai) (took s ch)) ch .ok [] := by
  have hfirst : ¬(xs.all fun x => x.2.switched) = true := by
    obtain ⟨x, hx⟩ := List.exists_mem_of_ne_nil xs hne
    exact fun hall => Bool.eq_false_iff.1 (hgo x hx).2.1 (List.all_eq_true.1 hall x hx)
  have hactive : ¬(xs.any fun x => x.2.st ≠ .active) = true := by
    simpa using fun w x hx => (hgo (w, x) hx).1
  have hnext : ¬(xs.any fun x => x.2.r.inb ∨ !x.2.r.nextValid ∨ !(took s ch).nextOk x.1 x.2.r.nextSai none) = true := by
    simpa using fun w x hx => (hgo (w, x) hx).2.2
  refine answers_oneWing h rfl ((State.onSa_copies hw hsai hxs hne hr _ _ _).trans ?_)
  rw [if_neg hfirst, if_neg hactive, if_neg hnext, ctxOf_w, hw]
  rfl

theorem execSaClose_closed (h : Served s ch { op := 0x044, lenMin := 1, lenMax := 1, close := true } pl)
    (hall : ∀ x ∈ xs, x.2.st = .closed) : Answers (exec (.saClose ch) s) (took s ch) ch .ok [] := by
  refine answers_oneWing h rfl ((State.onSa_copies hw hsai hxs hne hr _ _ _).trans (if_pos ?_))
  simpa using fun w x hx => hall (w, x) hx

theorem execSaClose_waits (h : Served s ch { op := 0x044, lenMin := 1, lenMax := 1, close := true } pl)
    (hopen : ∃ x ∈ xs, x.2.st ≠ .closed) (hf : pl.force = false) :
    Waits (exec (.saClose ch) s) (xs.foldl (fun t x => t.startSaClose x.1 sai) (took s ch)) ch (.sa sai) := by
  have hsome : ¬(xs.all fun x => x.2.st = .closed) = true := by simpa using hopen
  refine waits_oneWing h rfl ((State.onSa_copies hw hsai hxs hne hr _ _ _).trans ((if_neg hsome).trans ?_))
  rw [ctxOf_w, hw]
  exact if_neg (Bool.eq_false_iff.1 hf)

theorem execSaClose_forced (h : Served s ch { op := 0x044, lenMin := 1, lenMax := 1, close := true } pl)
    (hopen : ∃ x ∈ xs, x.2.st ≠ .closed) (hf : pl.force = true) :
    Answers (exec (.saClose ch) s) (xs.foldl (fun t x => t.forceSa x.1 sai) (took s ch)) ch .ok [] := by
  have hsome : ¬(xs.all fun x => x.2.st = .closed) = true := by simpa using hopen
  refine answers_oneWing h rfl ((State.onSa_copies hw hsai hxs hne hr _ _ _).trans ((if_neg hsome).trans ?_))
  rw [ctxOf_w, hw]
  exact if_pos hf

theorem execSaRemove_removes (h : Served s ch { op := 0x045, lenMin := 1, lenMax := 1 } pl) (hall : ∀ x ∈ xs, x.2.st = .closed) :
    Answers (exec (.saRemove ch) s) (xs.foldl (fun t x =>
      (t.modWing x.1 fun y => { y with sas := tdel y.sas sai }).fix (.sa x.1 sai)) (took s ch)) ch .ok [] := by
  have hnone : ¬(xs.any fun x => x.2.st ≠ .closed) = true := by simpa using fun w x hx => hall (w, x) hx
  refine answers_oneWing h rfl ((State.onSa_copies hw hsai hxs hne hr _ _ _).trans ((if_neg hnone).trans ?_))
  rw [ctxOf_w, hw]
  rfl

theorem execSaRemove_refused (h : Served s ch { op := 0x045, lenMin := 1, lenMax := 1 } pl) (hopen : ∃ x ∈ xs, x.2.st ≠ .closed) :
    Answers (exec (.saRemove ch) s) (took s ch) ch .unitClosing [] :=
  answers_oneWing h rfl ((State.onSa_copies hw hsai hxs hne hr _ _ _).trans (if_pos (by simpa using hopen)))

end Copies

/-- Settles O9: each command by the states of the copies that it is carried out on. -/
theorem saSwitchClose : Obligations.SaSwitchClose := by
  unfold Obligations.SaSwitchClose
  refine ⟨fun t w sai x => State.startSaClose_active, fun s ch pl sai xs hw hsai hxs hne hr => ⟨?switch, fun h => ?close,
    fun h => ?remove⟩⟩
  case switch => exact execSaSwitch_switches hw hsai hxs hne hr
  case close =>
    exact ⟨execSaClose_closed hw hsai hxs hne hr h, execSaClose_waits hw hsai hxs hne hr h,
      execSaClose_forced hw hsai hxs hne hr h⟩
  case remove => exact ⟨execSaRemove_removes hw hsai hxs hne hr h, execSaRemove_refused hw hsai hxs hne hr h⟩

end Sys2Proof.Machine
end

section
/-! SA records (O8): what an install checks of its key, a change of each copy, and a read. -/

namespace Sys2Proof.Machine

open Sys2Proof.Safety Sys2Proof.Laws

/-! ## The key of an install (R120, R253, R254) -/

theorem kLoc_sess {ref j : Nat} (h : kLoc ref = some (.sess j)) : fld ref 19 0 = j := by
  unfold kLoc at h
  split at h
  · split at h <;> cases h
    rfl
  · split at h <;> cases h
  · split at h <;> cases h
  · cases h

/-- A session key whose cell is good is read over a wing's path that has not lost its copy. -/
theorem State.readKey_sess {s : State} {w : Wing} {j : Nat} {k : Key} (hk : s.vlt.keyAt (.sess j) = some k)
    (hb : s.bad (.key w 1 j) = false) (hl : (s.wing w).klost.contains j = false) :
    s.readKey w (.sess j) = (some k, s) := by
  have hgood : ¬((s.vlt.keyAt (.sess j)).isSome ∧ s.bad ((KLoc.sess j).ent w)) :=
    fun h => Bool.eq_false_iff.1 hb h.2
  refine (if_neg (Bool.eq_false_iff.1 hl)).trans ((if_neg hgood).trans ?_)
  rw [hk]

theorem State.installKey_good {s : State} {w : Wing} {sai j : Nat} {r : SaRec} {k : Key} (hj : kLoc r.keyRef = some (.sess j))
    (hread : s.readKey w (.sess j) = (some k, s)) (hsuite : saSuiteOk r k.attr = true) (hfree : s.keyNamed sai r.keyRef = false)
    (hallow : k.allows .stream s.vlt.lcCode none = true) (hend : k.ended s.rt = false) :
    s.installKey w sai r = (none, s) := by
  simp [State.installKey, hj, hread, hsuite, hfree, hallow, hend]

theorem took_isSpilled (s : State) (ch : Fin 8) (l : KLoc) : (took s ch).isSpilled (home s ch) l = s.isSpilled (home s ch) l := by
  cases l with
  | sess j => simp only [State.isSpilled, took_wing]; rfl
  | slot k => rfl
  | classA id => rfl

section Records

variable {s : State} {ch : Fin 8} {pl : Place} {sai pn : Nat} {r : SaRec} (hw : wordAt pl.words 2 = sai) (hsai : sai < 2 ^ 20)

include hw hsai

theorem execSaInstall_stages (h : Served s ch { op := 0x040, lenMin := 33, lenMax := 33 } pl)
    (hclean : saClean (wordsAt pl.words 3 32) = true) (hrec : SaRec.ofWords (wordsAt pl.words 3 32) = (r, pn))
    (hok : saRecOk sai r pn = true) (hwings : ∀ w ∈ r.wings, s.reach (home s ch) w = true ∧ (s.wing w).store.isSome = true
      ∧ (r.pin = true → (took s ch).pinRoom ch w sai = true))
    (hnew : ((took s ch).view ch).saCopies sai = []) (hback : s.isSpilled (home s ch) (.sess (fld r.keyRef 19 0)) = false)
    (hkey : (took s ch).installKey (home s ch) sai r = (none, took s ch)) :
    Answers (exec (.saInstall ch) s)
      ((took s ch).modChan ch fun c => { c with staged := c.staged ++ r.wings.map fun w => (w, .saInstall sai r pn) }) ch .ok [] := by
  have hreach : ¬(r.wings.any fun w => !(took s ch).reach (home s ch) w) = true := by
    simpa [took_reach] using fun w hm => (hwings w hm).1
  have hstore : ¬(r.wings.any fun w => ((took s ch).wing w).store.isNone) = true := by
    simpa [took_wing, ← Option.isSome_iff_ne_none] using fun w hm => (hwings w hm).2.1
  have hroom : ¬(r.pin ∧ r.wings.any fun w => !(took s ch).pinRoom ch w sai) := by
    simpa using fun hp w hm => (hwings w hm).2.2 hp
  have hspill : ¬(took s ch).isSpilled (home s ch) (.sess (fld r.keyRef 19 0)) = true := by
    rw [took_isSpilled, hback]
    exact Bool.false_ne_true
  refine answers_oneWing h rfl ?_
  simp only [Res.keyBack, ctxOf_w, ctxOf_words, ctxOf_ch, took_home, hw, hrec]
  rw [Res.need_of (ctxOf_clean (by rwa [hw]) ..)]
  simp only [hclean, hok, hnew, hkey, hreach, hstore, hroom, hspill]
  rfl

theorem execSaModify_stages {xs : List (Wing × Sa)} {mask : Nat}
    (h : Served s ch { op := 0x041, lenMin := 34, lenMax := 34 } pl) (hxs : ((took s ch).view ch).saCopies sai = xs) (hne : xs ≠ [])
    (hr : ∀ x ∈ xs, s.reach (home s ch) x.1 = true) (hm : wordAt pl.words 3 = mask) (hmask : mask < 2 ^ 9)
    (hclean : saClean (wordsAt pl.words 4 32) = true) (hrec : SaRec.ofWords (wordsAt pl.words 4 32) = (r, pn))
    (hok : ∀ x ∈ xs, x.2.modifyOk sai mask r pn = true
      ∧ (bitOf mask 7 = true → r.pin = true → (took s ch).pinRoom ch x.1 sai = true)) :
    Answers (exec (.saModify ch) s)
      ((took s ch).modChan ch fun c => { c with staged := c.staged ++ xs.map fun x => (x.1, .saModify sai mask r pn) }) ch .ok [] := by
  have hfound : ¬xs.isEmpty = true := by simpa using hne
  have hreach : ¬(xs.any fun x => !(took s ch).reach (home s ch) x.1) = true := by simpa [took_reach] using hr
  have hfits : ¬(!saClean (wordsAt pl.words 4 32) ∨ xs.any fun x => !x.2.modifyOk sai mask r pn) := by
    simpa [hclean] using fun w x hx => (hok (w, x) hx).1
  have hroom : ¬(xs.any fun x => bitOf mask 7 ∧ r.pin ∧ !(took s ch).pinRoom ch x.1 sai) = true := by
    simpa using fun w x hx => (hok (w, x) hx).2
  have hwords (ws : List Wing) (w : Wing) : ((ctxOf ch pl ws w).clean 2 20 && (ctxOf ch pl ws w).clean 3 9) = true := by
    rw [ctxOf_clean (by rwa [hw]), ctxOf_clean (by rwa [hm]), Bool.and_self]
  refine answers_oneWing h rfl ?_
  simp only [ctxOf_w, ctxOf_words, ctxOf_ch, took_home, hw, hm, hrec, hxs]
  rw [Res.need_of (hwords _ _), if_neg hfound, if_neg hreach, if_neg hfits, if_neg hroom]
  simp only [State.stage, List.map_map]
  rfl

theorem execSaRead_answers {x : Sa} (h : Served s ch { op := 0x042, lenMin := 1, lenMax := 1 } pl)
    (hr : ∀ x ∈ ((took s ch).view ch).saCopies sai, s.reach (home s ch) x.1 = true)
    (hx : ((took s ch).view ch).sa (home s ch) sai = some x) :
    Answers (exec (.saRead ch) s) ((took s ch).needSa (home s ch) sai) ch .ok (x.words (s.bad (.sa (home s ch) sai))) := by
  have hreach : ¬(((took s ch).view ch).saCopies sai).any (fun x => !(took s ch).reach (home s ch) x.1) = true := by
    simpa [took_reach] using hr
  refine answers_oneWing h rfl ((Res.need_of (ctxOf_clean (by rwa [hw]) ..) _ _).trans ?_)
  simp only [ctxOf_w, ctxOf_ch, took_home, hw]
  rw [if_neg hreach, State.find_saCopies hx, ← took_bad s ch]
  rfl

end Records

/-- Settles O8: an install whose key passes its checks, a change that each copy allows, and the serving wing's copy. -/
theorem saRecords : Obligations.SaRecords := by
  unfold Obligations.SaRecords
  refine ⟨?install, fun s ch pl sai xs hw hsai hxs hne hr => ⟨?modify, ?read⟩⟩
  case install =>
    intro s ch pl sai j pn r k h hw hsai hclean hrec hok hwings hnew hj hk hb hspill hlost hsuite hfree hallow hend
    have hread : (took s ch).readKey (home s ch) (.sess j) = (some k, took s ch) :=
      State.readKey_sess hk (by rw [took_bad, hb]) (by rw [took_wing, hlost])
    exact execSaInstall_stages hw hsai h hclean hrec hok hwings hnew (by rw [kLoc_sess hj, hspill])
      (State.installKey_good hj hread hsuite hfree hallow hend)
  case modify =>
    intro mask pn r h hm hmask hclean hrec hgo
    exact execSaModify_stages hw hsai h hxs hne hr hm hmask hclean hrec hgo
  case read =>
    intro x h hx
    subst hxs
    exact execSaRead_answers hw hsai h hr hx

end Sys2Proof.Machine
end

section
/-! Staged and inbound frames (O40): their release, their tag check, the record that they wait for, and their time limits. -/

namespace Sys2Proof.Machine

/-! ## Release (R133, R149) -/

section Release

variable {s : State} {p : Fin 64} {id : Nat} {f : OutFrame}

/-- A frame that waits for nothing is released. -/
theorem execFrameRelease_goes (hf : s.ports[p].staging.find? (fun f => f.id = id) = some f) (ha : s.ports[p].absent = false)
    (hl : (f.ltime.any fun t => decide (t + s.ports[p].sp.launchTol * 2 ^ 32 < (s.wing (portWing p)).prm.t)) = false)
    (hm : s.mayRelease p f = true) : exec (.frameRelease p id) s = .next (s.releaseOut p f) := by
  have hgo : ¬(s.ports[p].absent ∨ (f.ltime.any fun t => decide (t + s.ports[p].sp.launchTol * 2 ^ 32 < (s.wing (portWing p)).prm.t))
      ∨ !s.mayRelease p f) := by simp only [ha, hl, hm]; decide
  show execFrameRelease p id s = _
  simp only [execFrameRelease, hf, if_neg hgo]

variable {out : Bytes} (hout : out = ptpCorrect s.ports[p].ptp true s.ports[p].ptp.asym (s.residence (portWing p) f.resIn) f.bytes)

include hout

theorem State.releaseOut_bypassed (hs : f.sai = none) (hc : cells out.length ≤ s.ports[p].lsOCred) :
    s.releaseOut p f = s.presentLs p f out none 0 := by
  simp only [State.releaseOut, hs, ← hout]
  exact if_neg (Nat.not_lt.2 hc)

/-- A frame leaves sealed under its SA, whose number it binds. -/
theorem State.releaseOut_sealed {a : Nat} {x : Sa} {k : Key} {form : Sealing} (hs : f.sai = some a)
    (hx : s.sa (portWing p) a = some x) (hb : s.bad (.sa (portWing p) a) = false) (hg : x.gone = false) (hr : x.resident = true)
    (hbind : x.canBind = true) (hk : s.saKey (portWing p) x.r = (some k, s)) (he : k.ended s.rt = false)
    (hform : outForm x.r (s.wing (portWing p)).meshEtype x.pn out = some form) (hlen : form.length ≤ 16383)
    (hc : cells form.length ≤ s.ports[p].lsOCred) (hks : f.ks = some (a, x.pn)) :
    s.releaseOut p f = (s.presentLs p f (sealFrame x.r k x.pn form) (some a) x.pn).bindPn (portWing p) a form.octets
      (if f.orig = some a then f.thresh else x.r.thresh) p := by
  have hgood : ¬(s.bad (.sa (portWing p) a) ∨ x.gone) := by rw [hb, hg]; decide
  have hready : ¬(!x.resident ∨ !x.canBind) := by rw [hr, hbind]; decide
  have hlive : ¬k.ended s.rt = true := Bool.eq_false_iff.1 he
  simp only [State.releaseOut, hs, hx, if_neg hgood, if_neg hready, hk, if_neg hlive, ← hout, hform, if_neg (Nat.not_lt.2 hlen),
    if_neg (Nat.not_lt.2 hc), if_pos hks]

end Release

/-! ## The tag check (R145, R146) -/

section TagCheck

variable {s : State} {p : Fin 64} {id : Nat} {f : InFrame}

/-- A frame whose lane work is done, and which no earlier frame goes before, is checked. -/
theorem execFrameTagCheck_checks (hf : s.ports[p].inbound.find? (fun f => f.id = id) = some f) (ha : s.ports[p].absent = false)
    (hw : f.wait = false) (hd : s.itemDone (.inb p id) = true) (hb : s.ports[p].inBehind f = false) :
    exec (.frameTagCheck p id) s = .next (s.checkIn p f) := by
  have hgo : ¬(s.ports[p].absent ∨ f.wait ∨ !s.itemDone (.inb p id) ∨ s.ports[p].inBehind f) := by
    simp only [ha, hw, hd, hb]; decide
  show execFrameTagCheck p id s = _
  simp only [execFrameTagCheck, hf, if_neg hgo]

theorem State.checkIn_unprotected (hs : f.sai = none) (hm : s.ports[p].mayDeliver f f.bytes.length = true) :
    s.checkIn p f = s.deliverIn p f f.bytes 2 := by
  simp only [State.checkIn, hs, if_pos hm]

variable {a : Nat} {x : Sa} {k : Key} (hs : f.sai = some a) (hx : s.sa (portWing p) a = some x)
  (hk : s.saKey (portWing p) x.r = (some k, s))

include hs hx hk

theorem State.checkIn_verified {bytes : Bytes} {octets : Nat} (ho : openFrame x.r k f.pn f.bytes = .ok bytes octets)
    (hm : s.ports[p].mayDeliver f bytes.length = true) :
    s.checkIn p f = (((((s.verified (portWing p) a f.pn f.thresh).countSa (portWing p) a .inOk 1).countSa (portWing p) a .inOctets
      octets).useIn (portWing p) a x.r).deliverIn p f bytes 0) := by
  simp only [State.checkIn, hs, hx, hk, ho, if_pos hm]

theorem State.checkIn_badTag_held (ho : openFrame x.r k f.pn f.bytes = .badTag) (hh : f.held = true) :
    s.checkIn p f = (((s.unpend p f).countSa (portWing p) a .badTag 1).useIn (portWing p) a x.r).unInbound p f.id := by
  simp only [State.checkIn, hs, hx, hk, ho, if_pos hh]

theorem State.checkIn_badTag_cut (ho : openFrame x.r k f.pn f.bytes = .badTag) (hh : f.held = false)
    (hm : s.ports[p].mayDeliver f (openedBytes x.r k f.pn f.bytes).length = true) :
    s.checkIn p f = (((s.unpend p f).countSa (portWing p) a .badTag 1).useIn (portWing p) a x.r).deliverIn p f
      (openedBytes x.r k f.pn f.bytes) 1 := by
  simp only [State.checkIn, hs, hx, hk, ho, if_neg (Bool.eq_false_iff.1 hh), if_pos hm]

end TagCheck

/-! ## Fetches (R122, R124, R249) -/

/-- A record that was read enters the cache of its wing with its key (R122, R247). -/
def State.fetched (t : State) (w : Wing) (sai j cls : Nat) : State :=
  (((t.ownTaken w (.saRead sai)).evictSa w cls).modSa w sai fun x => { x with resident := true, used := t.rt }).cacheKey w j

section Fetch

variable {s : State} {w : Wing} {sai st : Nat} {x : Sa} {bytes : Bytes} (tagOk keyOk : Bool) (hx : s.sa w sai = some x)
  (hr : x.resident = false) (hg : x.gone = false)

include hx hr hg

theorem execSaFetch_enters (ho : s.ownGot w (.saRead sai) = some (0, bytes)) {j : Nat} {t : State} (hj : j = fld x.r.keyRef 19 0)
    (ht : t = s.takeKey w j) (hkey : (t.sa w sai).any Sa.keyGone = false) (hspill : (t.wing w).kspill.contains j = false) :
    exec (.saFetch w sai tagOk keyOk) s = .next ((if x.r.inb then
        (t.fetched w sai j (((t.waitSa w).find? (·.1 = sai)).elim 3 (·.2))).countSa w sai .windowCollapse 1
      else t.fetched w sai j (((t.waitSa w).find? (·.1 = sai)).elim 3 (·.2))).fetchDone w sai) := by
  have hgo : ¬(x.resident ∨ x.gone) := by rw [hr, hg]; decide
  subst hj ht
  show execSaFetch w sai tagOk keyOk s = _
  simp only [execSaFetch, hx, ho, if_neg hgo, if_neg (Bool.eq_false_iff.1 hkey), if_neg (Bool.eq_false_iff.1 hspill)]
  rfl

theorem execSaFetch_badTag (ho : s.ownGot w (.saRead sai) = some (2, bytes)) :
    exec (.saFetch w sai tagOk keyOk) s = .next ((((s.ownTaken w (.saRead sai)).modSa w sai fun x =>
      { x with gone := true }).log w .saStoreTag 0 sai 0 0).fetchFail w sai) := by
  have hgo : ¬(x.resident ∨ x.gone) := by rw [hr, hg]; decide
  show execSaFetch w sai tagOk keyOk s = _
  simp only [execSaFetch, hx, ho, if_neg hgo, if_true]

theorem execSaFetch_unread (ho : s.ownGot w (.saRead sai) = some (st, bytes)) (h0 : st ≠ 0) (h2 : st ≠ 2) :
    exec (.saFetch w sai tagOk keyOk) s = .next ((s.ownTaken w (.saRead sai)).askOwn w (.saRead sai) 3) := by
  have hgo : ¬(x.resident ∨ x.gone) := by rw [hr, hg]; decide
  show execSaFetch w sai tagOk keyOk s = _
  simp only [execSaFetch, hx, ho, if_neg hgo, if_neg h2, if_pos h0]

end Fetch

/-! ## Time limits (R135, R136) -/

theorem execLateFrame_late {s : State} {p : Fin 64} {id t : Nat} {f : OutFrame}
    (hf : s.ports[p].staging.find? (fun f => f.id = id) = some f) (ht : f.ltime = some t)
    (hl : t + s.ports[p].sp.launchTol * 2 ^ 32 < (s.wing (portWing p)).prm.t) :
    exec (.lateFrame p id) s = .next (s.discardOut p f .late) := by
  have hlate : (f.ltime.any fun t => decide (t + s.ports[p].sp.launchTol * 2 ^ 32 < (s.wing (portWing p)).prm.t)) = true := by
    rw [ht, Option.any_some, decide_eq_true hl]
  show execLateFrame p id s = _
  simp only [execLateFrame, hf, if_pos hlate]

theorem execLsHoldLimit_due {s : State} {p : Fin 64} (hc : s.cpUp = true) (hh : s.ports[p].hold = true)
    (hs : s.ports[p].holdSpent = false) (hd : s.ports[p].holdSince + s.ports[p].sp.holdLimit * 1000 ≤ s.rt) :
    exec (.lsHoldLimit p) s
      = .next ((s.ports[p].staging.foldl (fun t f => (t.toGrq (portWing p) (f.toG p 0xC)).unstage p f.id)
          ((s.modPort p fun x => { x with holdSpent := true }).countPort p .lsHoldLimit)).log (portWing p)
        .lsHoldLimit p.val 0 s.ports[p].staging.length 0) :=
  if_pos ⟨hc, hh, by rw [hs]; rfl, hd⟩

/-! ## The statement -/

/-- Settles O40: each frame by what its SA, its key and its tag come to, once it is the frame's turn. -/
theorem frameMoves : Obligations.FrameMoves := by
  unfold Obligations.FrameMoves
  rintro s p id w rfl
  refine ⟨fun f out hf ha hl hm hout => ⟨?bypassed, ?sealed⟩,
    fun f hf ha hw hd hb => ⟨?unprotected, ?verified, ?badTag, ?badTagCut⟩,
    fun sai x st bytes tagOk keyOk hx hr hg ho => ⟨?enters, ?lost, execSaFetch_unread tagOk keyOk hx hr hg ho⟩,
    fun f t => execLateFrame_late, execLsHoldLimit_due⟩
  case bypassed =>
    intro hs hc
    rw [execFrameRelease_goes hf ha hl hm, State.releaseOut_bypassed hout hs hc]
  case sealed =>
    rintro a x k form _ hs hx hbad hg hr hbind hk he hform hlen hc hks rfl
    rw [execFrameRelease_goes hf ha hl hm, State.releaseOut_sealed hout hs hx hbad hg hr hbind hk he hform hlen hc hks]
  case unprotected =>
    intro hs hm
    rw [execFrameTagCheck_checks hf ha hw hd hb, State.checkIn_unprotected hs hm]
  case verified =>
    intro a x k bytes octets hs hx hk ho hm
    rw [execFrameTagCheck_checks hf ha hw hd hb, State.checkIn_verified hs hx hk ho hm]
  case badTag =>
    intro a x k hs hx hk ho hh
    rw [execFrameTagCheck_checks hf ha hw hd hb, State.checkIn_badTag_held hs hx hk ho hh]
  case badTagCut =>
    rintro a x k _ hs hx hk ho hh rfl hm
    rw [execFrameTagCheck_checks hf ha hw hd hb, State.checkIn_badTag_cut hs hx hk ho hh hm]
  case enters =>
    rintro j t cls u rfl hj ht hkey hspill rfl rfl
    exact execSaFetch_enters tagOk keyOk hx hr hg ho hj ht hkey hspill
  case lost =>
    rintro rfl
    exact execSaFetch_badTag tagOk keyOk hx hr hg ho

end Sys2Proof.Machine
end

section
/-! Lane status and regions (O15): reading, removing, closing and pinning the region that a command names. -/

namespace Sys2Proof.Machine

open Sys2Proof.Safety Sys2Proof.Laws

/-! ## Lanes (R152, R336) -/

theorem State.laneWord_unreached {s : State} {w : Wing} {l : Fin 28} (h : s.reach w (laneWing l) = false) :
    s.laneWord w l = wd 7 := if_neg (Bool.eq_false_iff.1 h)

theorem execLaneStatus_answers {s : State} {ch : Fin 8} {pl : Place}
    (h : Served s ch { op := 0x0C1, lenMin := 0, lenMax := 0 } pl) :
    Answers (exec (.laneStatus ch) s) (took s ch) ch .ok ((List.finRange 28).map ((took s ch).laneWord (home s ch))) :=
  answers_oneWing h rfl (congrArg (fun w => Res.done (took s ch) .ok ((List.finRange 28).map ((took s ch).laneWord w)))
    (took_home s ch))

/-! ## A removed region (R204, R374) -/

/-- What a wing's store names once a region is removed. -/
def WingSt.unstore (x : WingSt) (r : Fin 64) : WingSt := if x.store = some r then { x with store := none } else x

theorem WingSt.unstore_store (x : WingSt) (r : Fin 64) : (x.unstore r).store ≠ some r := by
  unfold WingSt.unstore
  split
  · simp
  · assumption

theorem WingSt.unstore_other {x : WingSt} {r : Fin 64} (h : x.store ≠ some r) : x.unstore r = x := if_neg h

theorem State.modWing_unstore (s : State) (w : Wing) (r : Fin 64) :
    (if (s.wing w).store = some r then s.modWing w fun x => { x with store := none } else s) = s.modWing w (·.unstore r) := by
  by_cases h : (s.wing w).store = some r
  · rw [if_pos h]
    cases w <;> exact congrArg (State.setWing s _) (if_pos h).symm
  · rw [if_neg h, State.modWing, WingSt.unstore_other h]
    cases w <;> rfl

theorem State.unspill_eq (s : State) (r : Fin 64) :
    (if s.spill = some r then { s with spill := none } else s)
      = { s with spill := if s.spill = some r then none else s.spill } := by
  split <;> rfl

/-- A removed region leaves its index with its counts and its failed metadata lines, its descriptor's parity good, the spill naming
another region or none, and each wing's store likewise. -/
theorem State.removeRegion_eq (s : State) (r : Fin 64) : s.removeRegion r =
    { (s.modRegion r fun x => { cnt := x.cnt, badMeta := x.badMeta }).fix (.region s.regions[r].d.owner r.val) with
      spill := if s.spill = some r then none else s.spill
      sl := s.sl.unstore r
      sr := s.sr.unstore r } := by
  simp only [State.removeRegion, State.eachWing, State.modWing_unstore, State.unspill_eq]
  rfl

theorem State.removeRegion_wing (s : State) (r : Fin 64) (w : Wing) : (s.removeRegion r).wing w = (s.wing w).unstore r := by
  rw [State.removeRegion_eq]
  cases w <;> rfl

theorem State.removeRegion_self (s : State) (r : Fin 64) :
    (s.removeRegion r).regions[r] = { cnt := s.regions[r].cnt, badMeta := s.regions[r].badMeta } := by
  rw [State.removeRegion_eq]
  exact s.modRegion_self r fun x => { cnt := x.cnt, badMeta := x.badMeta }

theorem State.removeRegion_ne (s : State) {r q : Fin 64} (h : q ≠ r) : (s.removeRegion r).regions[q] = s.regions[q] := by
  rw [State.removeRegion_eq]
  exact s.modRegion_ne r q (fun x => { cnt := x.cnt, badMeta := x.badMeta }) h.symm

theorem State.removeRegion_fixed (s : State) (r : Fin 64) :
    (s.removeRegion r).upsets.contains (.region s.regions[r].d.owner r.val) = false := by
  rw [State.removeRegion_eq]
  simp

theorem State.removeRegion_spill (s : State) (r : Fin 64) : (s.removeRegion r).spill ≠ some r := by
  rw [State.removeRegion_eq]
  show ¬(if s.spill = some r then none else s.spill) = some r
  split
  · simp
  · assumption

/-! ## Changes of a pin (R190) -/

theorem State.modRegion_modRegion (s : State) (r : Fin 64) (f g : Region → Region) :
    (s.modRegion r f).modRegion r g = s.modRegion r fun x => g (f x) := by
  simp [State.modRegion]

theorem took_pinnedBytes (s : State) (ch : Fin 8) (w : Wing) : (took s ch).pinnedBytes w = s.pinnedBytes w := by
  have hlocks (r : Fin 64) : (took s ch).holdsLocks r = s.holdsLocks r := by
    rw [State.holdsLocks, took_wing]
    rfl
  simp only [State.pinnedBytes, hlocks]
  rfl

/-- The accesses that a change of a region's pin waits for: those with a line of it still under way. -/
def State.inFlight (s : State) (r : Fin 64) : List (Fin 4 × Nat) :=
  (List.finRange 4).flatMap fun q => (s.rqps[q].accs.filter fun a =>
    a.region = some r.val ∧ a.lines.any (·.phase ≠ .done)).map fun a => (q, a.seq)

theorem State.mem_inFlight {s : State} {r : Fin 64} {q : Fin 4} {n : Nat} : (q, n) ∈ s.inFlight r ↔
    ∃ a ∈ s.rqps[q].accs, a.region = some r.val ∧ a.seq = n ∧ ∃ l ∈ a.lines, l.phase ≠ .done := by
  simp only [State.inFlight, List.mem_flatMap, List.mem_finRange, true_and, List.mem_map, List.mem_filter, Prod.mk.injEq,
    decide_eq_true_eq, List.any_eq_true]
  constructor
  · rintro ⟨_, a, ⟨ha, hreg, hl⟩, rfl, hn⟩
    exact ⟨a, ha, hreg, hn, hl⟩
  · rintro ⟨a, ha, hreg, hn, hl⟩
    exact ⟨q, a, ⟨ha, hreg, hl⟩, rfl, hn⟩

/-- A change of a region's pin as its descriptor shows it. -/
def State.setPin (s : State) (r : Fin 64) (pin : Bool) : State := s.modRegion r fun x => { x with d := { x.d with pin := pin } }

/-- A change of the pin of an ACTIVE region, which the accesses in flight hold up. -/
def State.changePin (s : State) (r : Fin 64) (pin : Bool) : State := s.modRegion r fun x =>
  { x with d := { x.d with pin := pin }, pinWait := some (s.inFlight r), closeAt := s.rt,
           fillIx := if pin then x.fillIx else none }

/-- What REGION_PIN comes to once its region is named. -/
def State.tryPin (s : State) (r : Fin 64) (pin : Bool) : Res :=
  let x := s.regions[r]
  if x.st = .closing ∨ x.st = .closed then failed s .unitClosing
  else if x.d.mode = 0 then good (s.setPin r pin)
  else if pin ∧ !x.d.pin ∧ 2 ^ 28 < s.pinnedBytes x.d.owner + (x.d.last + 1 - x.d.base) then failed s .pinFull
  else if x.st = .init then (if pin then .wait (s.setPin r pin) (.pin r) else good (s.setPin r pin))
  else if x.pinned = pin ∧ x.d.pin = pin ∧ x.fillIx.isNone then good s
  else .wait (s.changePin r pin) (.pin r)

section TryPin

variable {s : State} {r : Fin 64} (hm : s.regions[r].d.mode ≠ 0)

include hm

theorem State.tryPin_unpinned (hst : s.regions[r].st = .active) (hd : s.regions[r].d.pin = false) (hp : s.regions[r].pinned = false)
    (hfill : s.regions[r].fillIx = none) : s.tryPin r false = good s := by
  simp only [State.tryPin, if_neg hm, hst, hd, hp, hfill]
  rfl

variable (hroom : s.pinnedBytes s.regions[r].d.owner + (s.regions[r].d.last + 1 - s.regions[r].d.base) ≤ 2 ^ 28)

include hroom

theorem State.tryPin_init (hst : s.regions[r].st = .init) : s.tryPin r true = .wait (s.setPin r true) (.pin r) := by
  simp only [State.tryPin, if_neg hm, hst, Nat.not_lt.2 hroom, and_false]
  rfl

theorem State.tryPin_active (hst : s.regions[r].st = .active) (hp : s.regions[r].pinned = false) :
    s.tryPin r true = .wait (s.changePin r true) (.pin r) := by
  simp only [State.tryPin, if_neg hm, hst, hp, Nat.not_lt.2 hroom, and_false]
  rfl

end TryPin

theorem bitOf_pinWord (r : Fin 64) : bitOf (r.val + 64) 6 = true := by
  rw [bitOf, Nat.testBit_eq_decide_div_mod_eq]
  exact decide_eq_true (by omega)

theorem bitOf_unpinWord (r : Fin 64) : bitOf r.val 6 = false := Nat.testBit_lt_two_pow r.isLt

/-! ## A region that a command names -/

section Named

variable {s : State} {ch : Fin 8} {pl : Place} {r : Fin 64} (hi : s.regions[r].st ≠ .notInstalled)
  (hr : s.reach (home s ch) s.regions[r].d.owner = true)

include hi hr

/-- A command on an installed region in reach does that region's work. -/
theorem Res.region_named {n : Nat} (hn : wordAt pl.words 2 < 2 ^ n) (hw : Fin.ofNat 64 (wordAt pl.words 2) = r) (ws : List Wing)
    (w : Wing) (f : Fin 64 → Res) : Res.region (took s ch) (ctxOf ch pl ws w) n f = f r := by
  have hreach : (took s ch).reach (took s ch).chans[ch].mapWing s.regions[r].d.owner = true := by
    rw [took_reach, took_home]
    exact hr
  simp only [Res.region, Res.need_of (ctxOf_clean hn ch ws w), ctxOf_w, hw]
  exact (if_neg hi).trans (if_pos hreach)

section Plain

variable (hw : wordAt pl.words 2 = r.val)

include hw

theorem Res.region_plain (ws : List Wing) (w : Wing) (f : Fin 64 → Res) : Res.region (took s ch) (ctxOf ch pl ws w) 6 f = f r :=
  Res.region_named hi hr (by rw [hw]; exact r.isLt) (by rw [hw, Fin.ofNat_val_eq_self]) ws w f

theorem execRegionRead_answers (h : Served s ch { op := 0x0E1, lenMin := 1, lenMax := 1 } pl) :
    Answers (exec (.regionRead ch) s) (took s ch) ch .ok (s.regions[r].d.words r.val s.regions[r].st.code
      s.regions[r].d.depth (s.bad (.region s.regions[r].d.owner r.val)) s.regions[r].root) :=
  answers_oneWing h rfl ((Res.region_plain hi hr hw _ _ _).trans (by simp only [took_bad]; rfl))

theorem execRegionRemove_removes (h : Served s ch { op := 0x0E3, lenMin := 1, lenMax := 1 } pl) (hst : s.regions[r].st = .closed) :
    Answers (exec (.regionRemove ch) s) ((took s ch).removeRegion r) ch .ok [] :=
  answers_oneWing h rfl ((Res.region_plain hi hr hw _ _ _).trans (if_pos hst))

theorem execRegionRemove_refused (h : Served s ch { op := 0x0E3, lenMin := 1, lenMax := 1 } pl)
    (hst : s.regions[r].st ≠ .closed) :
    Answers (exec (.regionRemove ch) s) (took s ch) ch .unitClosing [] :=
  answers_oneWing h rfl ((Res.region_plain hi hr hw _ _ _).trans (if_neg hst))

theorem execRegionClose_closed (h : Served s ch { op := 0x0E2, lenMin := 1, lenMax := 1, close := true } pl)
    (hst : s.regions[r].st = .closed) : Answers (exec (.regionClose ch) s) (took s ch) ch .ok [] :=
  answers_oneWing h rfl ((Res.region_plain hi hr hw _ _ _).trans (if_pos hst))

theorem execRegionClose_waits (h : Served s ch { op := 0x0E2, lenMin := 1, lenMax := 1, close := true } pl)
    (hst : s.regions[r].st ≠ .closed) (hf : pl.force = false) :
    Waits (exec (.regionClose ch) s) ((took s ch).startRegionClose r) ch (.region r) :=
  waits_oneWing h rfl ((Res.region_plain hi hr hw _ _ _).trans ((if_neg hst).trans (if_neg (Bool.eq_false_iff.1 hf))))

theorem execRegionClose_forced (h : Served s ch { op := 0x0E2, lenMin := 1, lenMax := 1, close := true } pl)
    (hst : s.regions[r].st ≠ .closed) (hf : pl.force = true) :
    Answers (exec (.regionClose ch) s) ((took s ch).forceRegion r) ch .ok [] :=
  answers_oneWing h rfl ((Res.region_plain hi hr hw _ _ _).trans ((if_neg hst).trans (if_pos hf)))

end Plain

theorem execRegionPin_served {pin : Bool} (h : Served s ch { op := 0x0E4, lenMin := 1, lenMax := 1 } pl)
    (hw : wordAt pl.words 2 = if pin then r.val + 64 else r.val) :
    exec (.regionPin ch) s = .next (((took s ch).tryPin r pin).settle ch s.chans[ch].expect) := by
  have hn : wordAt pl.words 2 < 2 ^ 7 := by rw [hw]; split <;> omega
  have hix : Fin.ofNat 64 (wordAt pl.words 2) = r := by cases pin <;> exact Fin.ext (by simp [hw])
  have hbit : bitOf (wordAt pl.words 2) 6 = pin := by
    cases pin
    · exact hw ▸ bitOf_unpinWord r
    · exact hw ▸ bitOf_pinWord r
  refine congrArg Host.Outcome.next ((runCmd_oneWing h rfl).trans (congrArg (Res.settle ch _) ?_))
  refine (Res.region_named hi hr hn hix _ _ _).trans ?_
  simp only [ctxOf_w, hbit, State.modRegion_modRegion]
  rfl

end Named

/-! ## The statement -/

/-- Settles O15: each command's meaning once it is served, by the state of the region that it names. -/
theorem regionCommands : Obligations.RegionCommands := by
  unfold Obligations.RegionCommands
  refine ⟨fun s ch pl r => ⟨fun h => ?lanes, fun hw hi hr => ⟨execRegionRead_answers hi hr hw, fun h => ?remove⟩⟩,
    fun s ch pl r hi hr => ⟨fun h hw => ?close, fun h hst hm hp hpin hfill => ?pin, fun h hst hm _ hw hroom => ?pinInit⟩⟩
  case lanes =>
    refine ⟨_, execLaneStatus_answers h, by simp, fun l hl => ?_⟩
    simp [State.laneWord_unreached ((took_reach s ch _ _).trans hl)]
  case remove =>
    refine ⟨fun hst => ⟨_, execRegionRemove_removes hi hr hw h hst, State.removeRegion_self _ r, State.removeRegion_fixed _ r,
      fun q => State.removeRegion_ne _, State.removeRegion_spill _ r, fun w => ?_⟩, execRegionRemove_refused hi hr hw h⟩
    rw [State.removeRegion_wing, took_wing]
    exact ⟨WingSt.unstore_store _ r, WingSt.unstore_other⟩
  case close =>
    exact ⟨execRegionClose_closed hi hr hw h, execRegionClose_waits hi hr hw h, execRegionClose_forced hi hr hw h⟩
  case pin =>
    refine ⟨fun hw hroom => ⟨_, ?_, fun q n => State.mem_inFlight⟩, fun hw => ?_⟩
    · rw [execRegionPin_served (pin := true) hi hr h hw,
        State.tryPin_active (s := took s ch) hm (by rw [took_pinnedBytes]; exact hroom) hst hp]
      rfl
    · rw [execRegionPin_served (pin := false) hi hr h hw, State.tryPin_unpinned (s := took s ch) hm hst hpin hp hfill]
      rfl
  case pinInit =>
    rw [execRegionPin_served (pin := true) hi hr h hw,
      State.tryPin_init (s := took s ch) hm (by rw [took_pinnedBytes]; exact hroom) hst]
    rfl

end Sys2Proof.Machine
end

section
/-! Installing a region and setting a store (O14): the checks of R176 that an install passes, and the region that it leaves. -/

namespace Sys2Proof.Machine

open Sys2Proof.Safety Sys2Proof.Laws

/-! ## The checks of an install (R176) -/

/-- An install of a region's descriptor passes the checks that its key and its record have no part in. -/
structure State.Installable (s : State) (serving : Wing) (r : Fin 64) (d : RDesc) : Prop where
  iron : s.vlt.ironHeld = false
  lifeCycle : s.vlt.lcCode ≠ 6
  reach : s.reach serving d.owner = true
  free : s.regions[r].st = .notInstalled
  valid : s.rdescOk d = true
  apart : areasClash (s.areas d) = false
  clear : ∀ a ∈ s.areas d, ∀ x ∈ s.installed, ∀ b ∈ s.areas x.d, areasMeet a b = false
  room : d.mode ≠ 0 → s.protectedBytes + (d.last + 1 - d.base) ≤ 2 ^ 36
  pinRoom : d.mode ≠ 0 → d.pin = true → s.pinnedBytes d.owner + (d.last + 1 - d.base) ≤ 2 ^ 28

section Install

variable {s : State} {c : Ctx} {r : Fin 64} {d : RDesc} {use : RUse}

theorem State.Installable.noOverlap {w : Wing} (h : s.Installable w r d) :
    ((s.areas d).any fun a => s.installed.any fun x => (s.areas x.d).any (areasMeet a)) = false := by
  simpa only [List.any_eq_false, Bool.not_eq_true] using h.clear

theorem State.treeKeyCheck_allowed {k : Key} (hk : s.slotKey d.owner (fld d.treeKey 11 0) = (some k, s))
    (ha : k.allows .memory s.vlt.lcCode none = true) (he : k.ended s.rt = false) : s.treeKeyCheck d = (none, s) := by
  simp [State.treeKeyCheck, hk, ha, he]

/-- An install that passes puts its region in place: a key of a slot, which a region of the host asks for that is not UNPROTECTED,
passes its own check, and so does the record of a region that resumes. -/
theorem State.installRegion_passes (h : s.Installable s.chans[c.ch].mapWing r d)
    (hkey : use = .host → d.mode ≠ 0 → fld d.treeKey 23 22 = 1 ∧ fld d.treeKey 21 12 = 0 ∧ s.treeKeyCheck d = (none, s))
    (hrec : d.resume = true → (s.vlt.regionRec r.val).drop 8 = s.descCheck r d) :
    s.installRegion c r d use true = good (s.putRegion r d use) := by
  have hinvalid : ¬(s.regions[r].st ≠ .notInstalled ∨ (!true) ∨ (!s.rdescOk d)
      ∨ (use = .host ∧ d.mode ≠ 0 ∧ (fld d.treeKey 23 22 ≠ 1 ∨ fld d.treeKey 21 12 ≠ 0))) := by
    rintro (hst | htrue | hvalid | ⟨hu, hm, hword⟩)
    · exact hst h.free
    · simp at htrue
    · simp [h.valid] at hvalid
    · obtain ⟨htop, hrest, -⟩ := hkey hu hm
      exact hword.elim (· htop) (· hrest)
  have hclosing : s.regions[r].st ≠ .closing := by rw [h.free]; simp
  have hroom : ¬(d.mode ≠ 0 ∧ 2 ^ 36 < s.protectedBytes + (d.last + 1 - d.base)) := fun ⟨hm, hlt⟩ =>
    Nat.not_lt.2 (h.room hm) hlt
  have hpin : ¬(d.mode ≠ 0 ∧ d.pin ∧ 2 ^ 28 < s.pinnedBytes d.owner + (d.last + 1 - d.base)) := fun ⟨hm, hp, hlt⟩ =>
    Nat.not_lt.2 (h.pinRoom hm hp) hlt
  rw [State.installRegion, if_neg (Bool.eq_false_iff.1 h.iron), if_neg h.lifeCycle, Res.reaching, if_pos h.reach,
    if_neg hclosing, if_neg hinvalid, if_neg (by simp [h.apart, h.noOverlap]), if_neg hroom, if_neg hpin,
    if_neg fun ⟨hres, hne⟩ => hne (hrec hres)]
  split
  · rename_i hkeyed
    obtain ⟨-, -, hk⟩ := hkey hkeyed.1 hkeyed.2
    simp only [hk]
  · rfl

/-! ## The region that an install leaves (R179) -/

theorem State.putRegion_new (hres : d.resume = false) : s.putRegion r d use =
    s.modRegion r fun x => { st := .init, d := d, use := use, cnt := x.cnt } := if_neg (Bool.eq_false_iff.1 hres)

/-- A region that resumes from its record. -/
def State.resumedRegion (s : State) (r : Fin 64) (d : RDesc) (use : RUse) : Region :=
  let fill := d.pin && decide (d.mode ≠ 0)
  { st := .active, d := d, use := use, root := leNat ((s.vlt.regionRec r.val).take 8), fillIx := if fill then some 0 else none,
    readyLate := fill, cnt := s.regions[r].cnt, badMeta := s.regions[r].badMeta }

theorem State.putRegion_resumed (hres : d.resume = true) :
    OnlyWings (s.modRegion r fun _ => s.resumedRegion r d use) (s.putRegion r d use) := by
  have heq : s.putRegion r d use = if d.pin && decide (d.mode ≠ 0) then s.modRegion r fun _ => s.resumedRegion r d use
      else (s.modRegion r fun _ => s.resumedRegion r d use).log d.owner .regionReady r.val 0 0 0 := if_pos hres
  rw [heq]
  split
  · exact .refl _
  · exact State.log_only ..

/-- A state that differs from one region's change in its wings at most differs from the state before in the regions and the wings. -/
theorem OnlyWings.modRegion_eq {t : State} {f : Region → Region} (h : OnlyWings (s.modRegion r f) t) :
    t = { s with regions := t.regions, sl := t.sl, sr := t.sr } := by
  rw [h.regions]
  exact h

end Install

/-! ## The commands -/

section Commands

variable {s : State} {ch : Fin 8} {p : Place} {r : Fin 64} {d : RDesc}

theorem execRegionInstall_put (h : Served s ch { op := 0x0E0, lenMin := 16, lenMax := 16 } p)
    (hw : rdescOfWords p.words 2 = (r, d)) (hc : rdescClean p.words 2 = true)
    (hi : (took s ch).installRegion (ctxOf ch p [home s ch] (home s ch)) r d .host true = good ((took s ch).putRegion r d .host)) :
    Answers (exec (.regionInstall ch) s) ((took s ch).putRegion r d .host) ch .ok [] := by
  refine answers_oneWing h rfl (Eq.trans ?_ hi)
  simp only [ctxOf, hw, hc]

/-- What STORE_SET adds to the install: the spill names the region, or its wing's store. -/
def State.nameStore (s : State) (r : Fin 64) (w : Wing) (spill : Bool) : State :=
  if spill then { s with spill := some r } else s.modWing w fun x => { x with store := some r }

/-- The use of a region that STORE_SET installs. -/
def RUse.stored (spill : Bool) : RUse := if spill then .spill else .saStore

/-- What STORE_SET does with the region that its words name. -/
def State.setStore (s : State) (c : Ctx) (r : Fin 64) (d : RDesc) (spill clean : Bool) : Res :=
  if (if spill then s.spill.isSome else (s.wing d.owner).store.isSome) then failed s .alreadyExists
  else match s.installRegion c r d (.stored spill) (clean && decide (d.mode = 2 ∧ 272 * 2 ^ 20 ≤ d.last + 1 - d.base)) with
    | .done s .ok _ => good (s.nameStore r d.owner spill)
    | x => x

theorem State.setStore_put {c : Ctx} {spill : Bool} (hi : s.Installable s.chans[c.ch].mapWing r d) (hm : d.mode = 2)
    (hres : d.resume = false) (hsize : 272 * 2 ^ 20 ≤ d.last + 1 - d.base)
    (hnew : (if spill then s.spill.isSome else (s.wing d.owner).store.isSome) = false) :
    s.setStore c r d spill true = good ((s.putRegion r d (.stored spill)).nameStore r d.owner spill) := by
  have hhost : RUse.stored spill ≠ .host := by cases spill <;> simp [RUse.stored]
  have hput : s.installRegion c r d (.stored spill) (true && decide (d.mode = 2 ∧ 272 * 2 ^ 20 ≤ d.last + 1 - d.base))
      = good (s.putRegion r d (.stored spill)) := by
    rw [decide_eq_true ⟨hm, hsize⟩]
    exact State.installRegion_passes hi (fun hu => absurd hu hhost) (by simp [hres])
  rw [State.setStore, if_neg (Bool.eq_false_iff.1 hnew), hput]
  rfl

theorem execStoreSet_put {d0 : RDesc} {spill : Bool} (h : Served s ch { op := 0x007, lenMin := 17, lenMax := 17 } p)
    (hw : rdescOfWords p.words 2 = (r, d0)) (hd : d = { d0 with treeKey := 0 }) (hc : rdescClean p.words 2 = true)
    (hspill : wordAt p.words 18 = b2n spill) (hi : (took s ch).Installable (home s ch) r d) (hm : d.mode = 2)
    (hres : d.resume = false) (hsize : 272 * 2 ^ 20 ≤ d.last + 1 - d.base)
    (hnew : (if spill then s.spill.isSome else (s.wing d.owner).store.isSome) = false) :
    Answers (exec (.storeSet ch) s) (((took s ch).putRegion r d (.stored spill)).nameStore r d.owner spill) ch .ok [] := by
  have hclean : wordAt p.words 18 < 2 ^ 1 := by rw [hspill]; cases spill <;> decide
  have hbit : bitOf (wordAt p.words 18) 0 = spill := by rw [hspill]; cases spill <;> rfl
  have hput : (took s ch).setStore (ctxOf ch p [home s ch] (home s ch)) (rdescOfWords p.words 2).1
      { (rdescOfWords p.words 2).2 with treeKey := 0 } (bitOf (wordAt p.words 18) 0) (rdescClean p.words 2)
      = good (((took s ch).putRegion r d (.stored spill)).nameStore r d.owner spill) := by
    rw [hw, hbit, hc, ← hd]
    exact State.setStore_put ((took_home s ch).symm ▸ hi) hm hres hsize (by rw [took_wing]; exact hnew)
  exact answers_oneWing h rfl ((Res.need_of (ctxOf_clean hclean ch _ _) _ _).trans hput)

end Commands

/-- Settles O14: the install's checks pass, and the region that it puts in place is new or resumes from its record. -/
theorem regionInstalls : Obligations.RegionInstalls := by
  unfold Obligations.RegionInstalls
  intro s ch p r d hiron hlc hreach hst hvalid hapart hclear hroom hpin
  have hin : (took s ch).Installable (home s ch) r d := {
    iron := hiron
    lifeCycle := hlc
    reach := (took_reach s ch _ _).trans hreach
    free := hst
    valid := hvalid
    apart := hapart
    clear := hclear
    room := hroom
    pinRoom := fun hm hp => (took_pinnedBytes s ch d.owner).symm ▸ hpin hm hp }
  have hctx : (took s ch).Installable (took s ch).chans[(ctxOf ch p [home s ch] (home s ch)).ch].mapWing r d :=
    (took_home s ch).symm ▸ hin
  refine ⟨fun hserved hw hc => ⟨fun hm hres => ?unprotected, fun k hm htop hrest hk ha he => ?keyed⟩,
    fun d0 hserved hw hd hc hm hres hsize => ⟨fun hword hnone => ?store, fun hword hnone => ?spill⟩⟩
  case unprotected =>
    rw [← State.putRegion_new hres]
    exact execRegionInstall_put hserved hw hc (State.installRegion_passes hctx (fun _ hm' => absurd hm hm') (by simp [hres]))
  case keyed =>
    have hput (hrec : d.resume = true → (s.vlt.regionRec r.val).drop 8 = s.descCheck r d) :=
      execRegionInstall_put hserved hw hc (State.installRegion_passes hctx (fun _ _ =>
        ⟨htop, hrest, State.treeKeyCheck_allowed (s := took s ch) hk ha he⟩) hrec)
    refine ⟨fun hres => ?_, fun hres hrec => ?_⟩
    · rw [← State.putRegion_new hres]
      exact hput (by simp [hres])
    · have honly := State.putRegion_resumed (s := took s ch) (r := r) (use := .host) hres
      have hself : ((took s ch).putRegion r d .host).regions[r] = (took s ch).resumedRegion r d .host := by
        rw [honly.regions]
        exact State.modRegion_self ..
      refine ⟨_, hput fun _ => hrec, congrArg Region.st hself, congrArg Region.d hself, congrArg Region.root hself,
        (congrArg Region.cnt hself :), (congrArg Region.badMeta hself :), fun q hq => ?_, honly.modRegion_eq⟩
      rw [honly.regions]
      exact State.modRegion_ne _ r q _ hq.symm
  case store =>
    rw [← State.putRegion_new hres]
    exact execStoreSet_put (spill := false) hserved hw hd hc hword hin hm hres hsize (by simp [hnone])
  case spill =>
    rw [← State.putRegion_new hres]
    exact execStoreSet_put (spill := true) hserved hw hd hc hword hin hm hres hsize (by simp [hnone])

end Sys2Proof.Machine
end

section
/-! The checks of lines (O45): each check's outcome by what the line's tag comes to. -/

namespace Sys2Proof.Machine

section Checks

variable {s t u : State} {q : Fin 4} {tid : BitVec 7} {n plain : Nat} {a : Access} {l : MLine} {r : Fin 64} {key : Bytes}

/-- A line that is found is one of those looked for. -/
theorem State.lineOf_spec {tid : Nat} {f : Access → MLine → Bool} (h : s.lineOf q tid n f = some (a, l, r)) : f a l = true := by
  obtain ⟨b, -, hb⟩ := List.exists_of_findSome?_eq_some h
  split at hb
  · split at hb
    · rename_i hf
      obtain ⟨rfl, rfl, -⟩ := by simpa using hb
      exact hf.2.2
    · cases hb
  · cases hb

/-! ## What a check comes to (R193, R203, R206) -/

theorem State.judgeLine_passed (pass : State → State) : s.judgeLine q a n l r true pass = pass s := rfl

theorem State.judgeLine_searches (pass : State → State) (h : s.regions[r].d.repair = true) :
    s.judgeLine q a n l r false pass = s.modLine q a.seq n fun l => { l with phase := .repairing } := if_pos h

theorem State.judgeLine_failed (pass : State → State) (h : s.regions[r].d.repair = false) :
    s.judgeLine q a n l r false pass = s.tagFailed q a n l r := if_neg (Bool.eq_false_iff.1 h)

theorem State.tagFailed_read (h : a.op = 0) : s.tagFailed q a n l r
    = ((((s.countRegion r 3 1).logAddr r .memTagFail l.addr a.mid q (s.lineKix r l.slot)).raiseAlarm .memIntegrity).modLine q a.seq n
        fun l => { l with verified := !l.released }).failLine q a.seq n 2 := if_neg (by simp [h])

theorem State.tagFailed_write (h : a.op = 1) :
    s.tagFailed q a n l r = (s.poison r l.addr a.mid q (s.lineKix r l.slot)).failLine q a.seq n 2 := if_pos h

theorem State.verifiedLine_fresh (h : l.released = false) : s.verifiedLine q a n l plain
    = (s.modLine q a.seq n fun l => { l with plain := plain, verified := true, released := true, status := 0 }).endLine q a.seq n id :=
  if_neg (Bool.eq_false_iff.1 h)

theorem State.verifiedLine_released (h : l.released = true) : s.verifiedLine q a n l plain = s.endLine q a.seq n id := if_pos h

/-! ## A read line (R193, R203) -/

theorem execLineVerify_found (h : s.lineOf q tid.toNat n (fun a l => a.op = 0 ∧ l.phase = .gotData ∧ l.known) = some (a, l, r)) :
    exec (.lineVerify q tid n) s = .next (s.verifyLine q a n l r).pump := by
  show execLineVerify q tid n s = _
  simp only [execLineVerify, h]

theorem State.verifyLine_waits (h : s.itemDone (.mem q a.seq n) = false ∨ l.metaOk = false ∨ l.tagged = false) :
    s.verifyLine q a n l r = s := if_pos (by simpa using h)

/-- A line's check has what it needs: its lane work is done, its counters are verified and its stored tag is at hand. -/
def State.checkReady (s : State) (q : Fin 4) (a : Access) (n : Nat) (l : MLine) : Prop :=
  s.itemDone (.mem q a.seq n) = true ∧ l.metaOk = true ∧ l.tagged = true

theorem State.checkReady.proceeds (h : s.checkReady q a n l) : ¬((!s.itemDone (.mem q a.seq n)) ∨ (!l.metaOk) ∨ (!l.tagged)) := by
  obtain ⟨hdone, hmeta, htag⟩ := h
  simp [hdone, hmeta, htag]

theorem State.verifyLine_checked {ok : Bool} (hr : s.checkReady q a n l) (hk : s.lineKey r l.slot = (some key, t))
    (hu : u = if l.released then t else t.useSlot t.regions[r].d.owner l.slot) (hc : u.checkLine r l key = (plain, ok)) :
    s.verifyLine q a n l r = u.judgeLine q a n l r ok fun s => s.verifiedLine q a n l plain := by
  rw [State.verifyLine, if_neg hr.proceeds]
  simp only [hk, ← hu, hc]

/-! ## A partial write (R195) -/

theorem execPartialWrite_found
    (h : s.lineOf q tid.toNat n (fun a l => a.op = 1 ∧ (l.phase = .repaired ∨ (l.phase = .gotData ∧ l.known))) = some (a, l, r)) :
    exec (.partialWrite q tid n) s = .next (s.mergePartial q a n l r).pump := by
  show execPartialWrite q tid n s = _
  simp only [execPartialWrite, h]

theorem State.mergePartial_repaired (h : l.phase = .repaired) : s.mergePartial q a n l r = s.merge q a n l.plain := if_pos h

theorem State.mergePartial_checked {ok : Bool} (hp : l.phase = .gotData) (hr : s.checkReady q a n l)
    (hk : s.lineKey r l.slot = (some key, t)) (hu : u = t.useSlot t.regions[r].d.owner l.slot)
    (hc : u.checkLine r l key = (plain, ok)) :
    s.mergePartial q a n l r = u.judgeLine q a n l r ok fun s => s.merge q a n plain := by
  rw [State.mergePartial, if_neg (by simp [hp]), if_neg hr.proceeds]
  simp only [hk, ← hu, hc]

/-! ## A repair (R206) -/

theorem execTagRepair_found (h : s.lineOf q tid.toNat n (fun _ l => l.phase = .repairing) = some (a, l, r)) :
    exec (.tagRepair q tid n) s = .next (s.repairLine q a n l r).pump := by
  show execTagRepair q tid n s = _
  simp only [execTagRepair, h]

/-- Whether a line's counters are still those it was read under, so that its repair is written back (R206). -/
def State.unmoved (t : State) (m : Fin 4) (l : MLine) (c : Nat) : Bool :=
  decide (majorOf c = l.major ∧ minorOf c (lineIx l.addr) = l.minor) && t.mps[m].alive

/-- The state in which a line goes on that its one candidate repairs: the repair is reported, and the line rewritten where its
counters have not moved. -/
def State.repairMade (s t : State) (q : Fin 4) (a : Access) (l : MLine) (r : Fin 64) (mask arg c : Nat) : State :=
  let m := s.regions[r].d.port l.addr
  let v := (t.logAddr r .tagRepaired l.addr a.mid q arg).countRegion r 5 1
  if t.unmoved m l c then v.mpIssue m (.wback s.regions[r].d.owner l.addr) l.addr true (l.cipher ^^^ mask) l.tag a.clsIn else v

section Search

/- The search stands here as a variable: checking the branches of `repairLine` on it must not evaluate it. -/
variable {search : Bytes → Nat → Nat → Nat → Nat → Nat → Nat → List (Nat × Nat)} (hsearch : search = repairs)

include hsearch

/-- A search that finds none or more than one says so, and the tag has failed. -/
theorem State.repairLine_unsettled {ks : List (Nat × Nat)} {arg : Nat} (hk : s.lineKey r l.slot = (some key, t))
    (hks : search key (s.lineKix r l.slot) l.addr l.major l.minor l.cipher l.tag = ks)
    (h : (ks = [] ∧ arg = 0) ∨ (2 ≤ ks.length ∧ arg = 1)) :
    s.repairLine q a n l r = (t.logAddr r .repairFailed l.addr a.mid q arg).tagFailed q a n l r := by
  rw [State.repairLine, ← hsearch]
  simp only [hk, hks]
  obtain ⟨rfl, rfl⟩ | ⟨hmany, rfl⟩ := h
  · rfl
  · match ks, hmany with
    | _ :: _ :: _, _ => rfl

theorem State.repairLine_found {mask arg c : Nat} (hk : s.lineKey r l.slot = (some key, t))
    (hks : search key (s.lineKix r l.slot) l.addr l.major l.minor l.cipher l.tag = [(mask, arg)]) (hc : t.ctrLine r l.addr = some c)
    (hfree : t.unmoved (s.regions[r].d.port l.addr) l c = true → t.mps[s.regions[r].d.port l.addr].free l.addr = true)
    (hu : u = s.repairMade t q a l r mask arg c)
    (hp : plain = lineCipher key (s.lineKix r l.slot) l.addr l.major l.minor (l.cipher ^^^ mask)) :
    s.repairLine q a n l r =
      if a.op = 1 then u.modLine q a.seq n fun l => { l with phase := .repaired, plain := plain }
      else if l.released then u.failLine q a.seq n 2
      else u.verifiedLine q a n l plain := by
  have hroom : ¬(t.unmoved (s.regions[r].d.port l.addr) l c = true ∧ (!t.mps[s.regions[r].d.port l.addr].free l.addr) = true) :=
    fun ⟨hsame, hfull⟩ => by rw [hfree hsame] at hfull; cases hfull
  rw [State.repairLine, ← hsearch]
  simp only [hk, hks, hc]
  rw [hu, hp]
  exact if_neg hroom

end Search

end Checks

/-- Settles O45: each event's line by whether its tag matches, and a repair by its candidates. -/
theorem lineChecks : Obligations.LineChecks := by
  unfold Obligations.LineChecks
  intro s t u q tid n plain a l r key hk
  refine ⟨fun hl hu => ⟨fun hw => ?waits, fun hd hm ht => ?verify⟩,
    fun hl => ⟨fun m hp hm => ?merge, fun hp hd hm ht hu => ⟨fun m hc hplain => ?mergeChecked, fun hc hrep => ?poison⟩⟩,
    fun ks kix hl hkix hks => ⟨fun mask arg c same m v hone hc hm hsame hfree hv hu hplain => ?found, fun arg hks' => ?unsettled⟩⟩
  case waits => rw [execLineVerify_found hl, State.verifyLine_waits hw]
  case verify =>
    have hop : a.op = 0 := by simpa using (of_decide_eq_true (State.lineOf_spec hl)).1
    have check {ok : Bool} (hc : u.checkLine r l key = (plain, ok)) : exec (.lineVerify q tid n) s
        = .next (u.judgeLine q a n l r ok fun s => s.verifiedLine q a n l plain).pump := by
      rw [execLineVerify_found hl, State.verifyLine_checked ⟨hd, hm, ht⟩ hk hu hc]
    refine ⟨fun hc hrel => ?_, fun hc hrel => ?_, fun hc hrep => ?_, fun hc hrep => ?_⟩
    · rw [check hc, State.judgeLine_passed, State.verifiedLine_fresh hrel]
    · rw [check hc, State.judgeLine_passed, State.verifiedLine_released hrel]
    · rw [check hc, State.judgeLine_searches _ hrep]
    · rw [check hc, State.judgeLine_failed _ hrep, State.tagFailed_read hop]
  case merge => rw [execPartialWrite_found hl, State.mergePartial_repaired hp, hm]; rfl
  case mergeChecked =>
    rw [execPartialWrite_found hl, State.mergePartial_checked hp ⟨hd, hm, ht⟩ hk hu hc, State.judgeLine_passed, hplain]
    rfl
  case poison =>
    have hop : a.op = 1 := by simpa using (of_decide_eq_true (State.lineOf_spec hl)).1
    rw [execPartialWrite_found hl, State.mergePartial_checked hp ⟨hd, hm, ht⟩ hk hu hc, State.judgeLine_failed _ hrep,
      State.tagFailed_write hop]
  case found =>
    have hmade : u = s.repairMade t q a l r mask arg c := by
      rw [hu, hv, hsame, hm]
      rfl
    rw [hsame, hm] at hfree
    rw [hkix] at hks hplain
    rw [execTagRepair_found hl, State.repairLine_found rfl hk (hks ▸ hone) hc hfree hmade hplain]
    refine ⟨fun hop hrel => ?_, fun hop hrel => ?_, fun hop => ?_⟩
    · rw [if_neg (by simp [hop]), if_neg (by simp [hrel]), State.verifiedLine_fresh hrel]
    · rw [if_neg (by simp [hop]), if_pos hrel]
    · rw [if_pos hop]
  case unsettled =>
    rw [hkix] at hks
    rw [execTagRepair_found hl, State.repairLine_unsettled rfl hk hks.symm hks']

end Sys2Proof.Machine
end

section
/-! The three memory curtains (O46): when each of them completes, and what its completion does to the port. -/

namespace Sys2Proof.Machine

section Curtains

variable {s : State} {q : Fin 4} {tid : BitVec 7} {a : Access}

theorem State.modRqp_id (s : State) (q : Fin 4) : (s.modRqp q fun x => x) = s := by
  simp [State.modRqp]

theorem RqPort.mem_before {x : RqPort} {b : Access} : b ∈ x.before a ↔ b ∈ x.accs ∧ b.seq < a.seq ∧ b.mid = a.mid := by
  simp [RqPort.before]

/-! ## The failures that a curtain covers -/

theorem covered_none {l : List (Nat × Nat)} (h : ∀ e ∈ l, e.1 ≠ a.mid) : covered a l = (false, l) := by
  refine Prod.ext (List.any_eq_false.2 fun e he => ?_) (List.filter_eq_self.2 fun e he => ?_)
  · simp [h e he]
  · simp [h e he]

theorem covered_some {l : List (Nat × Nat)} (h : ∃ e ∈ l, e.1 = a.mid ∧ e.2 < a.seq) : (covered a l).1 = true := by
  simpa [covered] using h

theorem mem_covered {l : List (Nat × Nat)} (e : Nat × Nat) : e ∈ (covered a l).2 ↔ e ∈ l ∧ ¬(e.1 = a.mid ∧ e.2 < a.seq) := by
  simp only [covered, List.mem_filter, decide_eq_true_eq]

/-! ## CURTAIN_ISSUE (R199) -/

theorem execCurtainIssue_ends (hc : s.curtainOf q tid.toNat 1 = some a)
    (h : ∀ b ∈ s.rqps[q].accs, b.seq < a.seq → b.mid = a.mid → s.accIssued q b = true) :
    exec (.curtainIssue q tid) s = .next (s.endCurtain q a 0).pump := by
  have hall : (s.rqps[q].before a).all (s.accIssued q) = true := List.all_eq_true.2 fun b hb =>
    have ⟨hmem, hseq, hmid⟩ := RqPort.mem_before.1 hb
    h b hmem hseq hmid
  show execCurtainIssue q tid s = _
  simp only [execCurtainIssue, hc, hall, if_true]

theorem execCurtainIssue_waits {b : Access} (hc : s.curtainOf q tid.toNat 1 = some a) (hb : b ∈ s.rqps[q].before a)
    (h : s.accIssued q b = false) : exec (.curtainIssue q tid) s = .next s := by
  have hall : (s.rqps[q].before a).all (s.accIssued q) = false := List.all_eq_false.2 ⟨b, hb, by simp [h]⟩
  show execCurtainIssue q tid s = _
  simp only [execCurtainIssue, hc, hall]
  rfl

/-! ## CURTAIN_VERIFY (R200) -/

/-- The earlier reads have ended, and none of them was cut off: the curtain completes by whether one failed after its release, whose
failure it takes. -/
theorem execCurtainVerify_ends (hc : s.curtainOf q tid.toNat 2 = some a)
    (h : ∀ b ∈ s.rqps[q].accs, b.seq < a.seq → b.mid = a.mid →
      b.op ≠ 0 ∨ b.fixed.isSome = true ∨ ∀ l ∈ b.lines, l.phase = .done)
    (hlost : ∀ e ∈ s.rqps[q].vlost, e.1 ≠ a.mid) :
    exec (.curtainVerify q tid) s = .next ((s.modRqp q fun x => { x with vfails := (covered a s.rqps[q].vfails).2 }).endCurtain q a
      (if (covered a s.rqps[q].vfails).1 then 2 else 0)).pump := by
  have hall : ((s.rqps[q].before a).all fun b => b.op ≠ 0 ∨ b.fixed.isSome ∨ b.lines.all (·.phase = .done)
      ∨ s.rqps[q].vlost.contains (b.mid, b.seq)) = true := List.all_eq_true.2 fun b hb => by
    obtain ⟨hmem, hseq, hmid⟩ := RqPort.mem_before.1 hb
    obtain hop | hfix | hdone := h b hmem hseq hmid
    · simp [hop]
    · simp [hfix]
    · have : b.lines.all (·.phase = .done) = true := List.all_eq_true.2 fun l hl => decide_eq_true (hdone l hl)
      simp [this]
  show execCurtainVerify q tid s = _
  simp only [execCurtainVerify, hc]
  rw [if_pos hall, covered_none hlost]
  rfl

/-! ## CURTAIN_PERSIST (R201) -/

theorem execCurtainPersist_ends (hc : s.curtainOf q tid.toNat 3 = some a) (hw : s.rqps[q].writesDone a = true)
    (hp : s.persisted a = true) (hfail : ∀ e ∈ s.rqps[q].pfails, e.1 ≠ a.mid) (hlost : ∀ e ∈ s.rqps[q].plost, e.1 ≠ a.mid) :
    exec (.curtainPersist q tid) s = .next ((s.modRqp q fun x =>
      { x with wregs := s.rqps[q].wregs.filter fun e => ¬(e.1 = a.mid ∧ e.2.2.1 < a.seq) }).endCurtain q a
        (if a.flushErr || s.flushLost s.rqps[q] a then 5 else 0)).pump := by
  show execCurtainPersist q tid s = _
  simp only [execCurtainPersist, hc, State.modRqp]
  rw [if_pos ⟨hw, .inr hp⟩, covered_none hfail, covered_none hlost]
  rfl

end Curtains

/-- Settles O46: each curtain by the earlier requests of its master and the failures that it covers. -/
theorem memoryCurtains : Obligations.MemoryCurtains := by
  unfold Obligations.MemoryCurtains
  intro s q tid a
  refine ⟨execCurtainIssue_ends, fun b hc hmem hseq hmid => execCurtainIssue_waits hc (RqPort.mem_before.2 ⟨hmem, hseq, hmid⟩),
    fun hc hread hlost => ⟨fun hnone => ?verified, fun hsome => ?failed⟩,
    fun hc hw hflush hsaves hfail hlost => ?persisted, fun hreg st => ?bare, fun rn hreg hfix hop => ?performed⟩
  case verified =>
    have hsame : (s.modRqp q fun x => { x with vfails := s.rqps[q].vfails }) = s := s.modRqp_id q
    rw [execCurtainVerify_ends hc hread hlost, covered_none hnone, hsame]
    rfl
  case failed =>
    refine ⟨_, ?_, mem_covered⟩
    rw [execCurtainVerify_ends hc hread hlost, covered_some hsome]
    rfl
  case persisted =>
    have hp : s.persisted a = true := by simpa [State.persisted, hflush] using hsaves
    exact ⟨_, execCurtainPersist_ends hc hw hp hfail hlost, fun e => by simp only [List.mem_filter, decide_eq_true_eq]⟩
  case bare => simp only [State.endCurtain, hreg]
  case performed =>
    simp [State.endCurtain, hreg, hfix, hop]

end Sys2Proof.Machine
end

section
/-! The longer work of the memory side (O47): re-encryption, INIT, the pin fill and the Usher's drain. -/

namespace Sys2Proof.Machine

/-! ## Re-encryption (R207, R209) -/

section Reencryption

variable {s : State} {w : Wing} {e : Reenc} {page : Nat}

/-- A re-encryption leaves those of its wing, and its lane work with it. -/
def State.reencEnded (s : State) (w : Wing) (page : Nat) : State :=
  (s.modMpe w fun m => { m with reencs := m.reencs.filter (·.page ≠ page) }).dropPage w page

theorem execPageReencrypted_abandoned (he : s.reencOf w page = some e) (ho : s.pageOut w page = false) (hf : e.failed = true) :
    exec (.pageReencrypted w page) s = .next ((s.reencEnded w page).abandon e page).pump := by
  show execPageReencrypted w page s = _
  simp only [execPageReencrypted, he, ho, hf]
  rfl

theorem execPageReencrypted_done {major : Nat} (he : s.reencOf w page = some e) (ho : s.pageOut w page = false)
    (hf : e.failed = false) (hd : e.draining = true) (hw : e.writes = [])
    (ht : ((s.access e.q e.seq).any fun a => a.lines.any (·.starts page)) = false)
    (hm : major = (s.ctrLine (Fin.ofNat 64 e.region) page).elim 0 majorOf) (hlt : major < 2 ^ 64 - 1) :
    exec (.pageReencrypted w page) s = .next (((s.reencEnded w page).countRegion (Fin.ofNat 64 e.region) 7 1).logAddr
      (Fin.ofNat 64 e.region) .pageReencrypted page e.mid e.q (major % 2 ^ 32)).pump := by
  show execPageReencrypted w page s = _
  simp only [execPageReencrypted, he, ho, hf, hd, hw, ht, ← hm, if_neg (Nat.ne_of_lt hlt)]
  rfl

end Reencryption

/-! ## INIT and the pin fill (R179, R190) -/

section Pins

variable {s : State} {r : Fin 64}

theorem execRegionReady_ready {t : State} {pin : Bool} (hst : s.regions[r].st = .init) (hix : s.initCount r ≤ s.regions[r].initIx)
    (ho : s.initOut r = false) (hpin : pin = (s.regions[r].d.pin && decide (s.regions[r].d.mode ≠ 0)))
    (ht : t = (if pin then (s.modRegion r fun x => { x with st := .active, root := 0 }).holdZeros r
      else s.modRegion r fun x => { x with st := .active, root := 0 }).log s.regions[r].d.owner .regionReady r.val 0 0 0) :
    exec (.regionReady r) s = .next (if t.regions[r].fillIx.isSome then t else t.answerWaiters (.pin r) .ok []).pump := by
  have hdue : ¬(s.regions[r].st ≠ .init ∨ s.regions[r].initIx < s.initCount r ∨ s.initOut r) := by
    simp [-Fin.getElem_fin, hst, ho, hix]
  subst hpin ht
  exact if_neg hdue

theorem State.pinFill_proceeds (hst : s.regions[r].st = .active) (hw : s.regions[r].pinWait = none) :
    ¬(s.regions[r].st ≠ .active ∨ s.regions[r].pinWait.isSome) := by
  simp [-Fin.getElem_fin, hst, hw]

theorem execPinFill_filled {i : Nat} (hst : s.regions[r].st = .active) (hw : s.regions[r].pinWait = none)
    (hi : s.regions[r].fillIx = some i) (hfull : s.regions[r].d.mlines ≤ i) (hp : s.regions[r].d.pin = true) {t : State}
    (ht : t = s.modRegion r fun x => { x with fillIx := none, pinned := true, readyLate := false }) :
    exec (.pinFill r) s = .next (State.answerWaiters (if s.regions[r].readyLate then
      t.log s.regions[r].d.owner .regionReady r.val 0 0 0 else t) (.pin r) .ok []).pump := by
  subst ht
  show execPinFill r s = _
  rw [execPinFill, if_neg (State.pinFill_proceeds hst hw)]
  simp only [hi, if_neg (Nat.not_lt.2 hfull), hp, if_true]

theorem execPinFill_unpinned (hst : s.regions[r].st = .active) (hw : s.regions[r].pinWait = none)
    (hi : s.regions[r].fillIx = none) (hpinned : s.regions[r].pinned = true) (hp : s.regions[r].d.pin = false)
    (hu : s.unflushed r = false) :
    exec (.pinFill r) s = .next ((s.unpin r).answerWaiters (.pin r) .ok []).pump := by
  show execPinFill r s = _
  rw [execPinFill, if_neg (State.pinFill_proceeds hst hw)]
  simp [-Fin.getElem_fin, hi, hp, hpinned, hu]

end Pins

/-! ## The Usher's drain (R230) -/

section Drain

variable {s : State} {w : Wing} {t0 : Nat} {q : Fin 4} {a : Access}

/-- A drain that has lasted past its time is blocked by the port of its oldest access. -/
theorem State.pumpDrain_blocked (hh : (s.wing w).ush.hold = some t0) (hb : (s.wing w).ush.blocked = none)
    (hd : (s.wing w).ush.drained = false) (ho : oldest (s.undrained w) = some (q, a)) (ht : t0 + 1500 ≤ s.rt) :
    s.pumpDrain w = s.modUsh w fun u => { u with blocked := some (s.blockPort q a) } := by
  simp only [State.pumpDrain, hh, hb, hd, ho, if_neg (Nat.not_lt.2 ht)]
  rfl

theorem State.modUsh_modUsh (s : State) (w : Wing) (f g : Usher → Usher) :
    (s.modUsh w f).modUsh w g = s.modUsh w fun u => g (f u) := by
  cases w <;> rfl

theorem State.modUsh_ush (s : State) (w : Wing) (f : Usher → Usher) : ((s.modUsh w f).wing w).ush = f (s.wing w).ush := by
  rw [State.modUsh, State.modWing_wing]

theorem State.modUsh_chans (s : State) (w : Wing) (f : Usher → Usher) : (s.modUsh w f).chans = s.chans := by
  cases w <;> rfl

theorem execUshDrainTimeout_fails {ch : Fin 8} {u : State} (hh : (s.wing w).ush.hold = some t0)
    (hb : (s.wing w).ush.blocked = none) (hd : (s.wing w).ush.drained = false) (ho : oldest (s.undrained w) = some (q, a))
    (ht : t0 + 1500 ≤ s.rt) (hc : (s.wing w).ush.commitCh = some ch) (hw : s.chans[ch].waiting = some (.ushCommit w false))
    (hu : u = ((s.modUsh w fun u => { u with hold := none, commitCh := none, drained := false, blocked := none }).countWing w
      .commitFailed).log w .ushCommitFail 0 (s.blockPort q a) 0 0) :
    exec (.ushDrainTimeout w) s = .next (State.nextUsh 8 w (u.finish ch .ushDrainTimeout [wd (s.blockPort q a)])) := by
  have hwait : u.chans[ch].waiting = some (.ushCommit w false) := by
    rw [hu, State.log_chans, State.countWing_chans, State.modUsh_chans]
    exact hw
  show execUshDrainTimeout w s = _
  simp only [execUshDrainTimeout, State.pumpDrain_blocked hh hb hd ho ht, State.modUsh_modUsh, State.modUsh_ush, hh, hc, ← hu,
    hwait, if_true]

end Drain

/-- Settles O47: each event where its work is done, or has failed. -/
theorem memoryEvents : Obligations.MemoryEvents := by
  unfold Obligations.MemoryEvents
  intro s t w r
  refine ⟨fun e page he hr ho ht => ⟨fun major hf hd hw hn hm hlt => ?done, fun hf => ?abandoned⟩,
    fun pin u hst hix ho hpin hu ht => ?ready, fun i hst hw hi hfull hp => execPinFill_filled hst hw hi hfull hp,
    execPinFill_unpinned, fun t0 q a ch u hh hb hd ho ht hc hw => execUshDrainTimeout_fails hh hb hd ho ht hc hw⟩
  case done =>
    rw [ht, hr]
    rw [hr] at hm
    exact execPageReencrypted_done he ho hf hd hw hn hm hlt
  case abandoned =>
    rw [ht]
    exact execPageReencrypted_abandoned he ho hf
  case ready =>
    rw [hu] at ht
    exact execRegionReady_ready hst hix ho hpin ht

end Sys2Proof.Machine
end

section
/-! The Usher (O16, O17): staging, reading, and commits with their bank switch. -/

namespace Sys2Proof.Machine

open Sys2Proof.Safety Sys2Proof.Laws

/-! ## Staging (R216, R228) -/

theorem State.fix_wing (s : State) (e : Ent) (w : Wing) : (s.fix e).wing w = s.wing w := by cases w <;> rfl

/-- With no commit holding, a staging command goes straight to its channel (R231). -/
theorem State.stageUsh_free {s : State} (hl : s.sl.ush.hold = none) (hr : s.sr.ush.hold = none) (ch : Fin 8) (o : OpSpec)
    (body : State → Ctx → Res) : s.stageUsh ch o body = s.runCmd ch o body :=
  if_neg (by simp [State.ushBusy, hl, hr])

/-- A staging command whose body succeeds on each wing that it names. -/
theorem answers_stagesUsh {s : State} {ch : Fin 8} {o : OpSpec} {p : Place} {body : State → Ctx → Res}
    {E : State → Wing → State} (hl : s.sl.ush.hold = none) (hr : s.sr.ush.hold = none) (h : Served s ch o p) (h3 : o.wing ≠ 3)
    (hb : ∀ t w, body t (ctxOf ch p (p.wings o (home s ch)) w) = good (E t w)) :
    Answers (.next (s.stageUsh ch o body)) ((p.wings o (home s ch)).foldl E (took s ch)) ch .ok [] := by
  rw [State.stageUsh_free hl hr]
  exact congrArg Host.Outcome.next (runCmd_wings body h h3 E hb)

/-- Giving MG_MAP entries good parity does not move the bank that they stand in. -/
theorem State.foldl_fix_mg (w : Wing) (g : Nat → Nat) (l : List Nat) {s : State} {b : Bool} (hb : (s.wing w).ush.bank = b) :
    l.foldl (fun v j => v.fix (.mg w (!(v.wing w).ush.bank) (g j))) s = l.foldl (fun v j => v.fix (.mg w (!b) (g j))) s := by
  induction l generalizing s with
  | nil => rfl
  | cons j l ih =>
    rw [List.foldl_cons, List.foldl_cons, hb]
    exact ih (by rw [State.fix_wing, hb])

/-- The mode word: 0 is service mode (R227). -/
theorem not_bitOf_zero {x : Nat} (hx : x < 2) : (!bitOf x 0) = decide (x = 0) := by
  obtain rfl | rfl : x = 0 ∨ x = 1 := by omega
  · rfl
  · rfl

/-- The word by which USH_MGMAP names its MG_MAP words, within its bounds (R216). -/
structure MapWord (x first n : Nat) : Prop where
  eq : x = first + n * 256
  first_lt : first < 64
  pos : 1 ≤ n
  le : n ≤ 60
  last_le : first + n ≤ 64

/-- An MG_MAP word's own fields pass the checks of USH_MGMAP. -/
theorem MapWord.checks {x first n : Nat} (h : MapWord x first n) :
    fld x 5 0 = first ∧ fld x 13 8 = n ∧ fld x 7 6 = 0 ∧ fld x 31 14 = 0 := by
  obtain ⟨hx, hf, -, hn, -⟩ := h
  simp only [fld_eq]
  omega

theorem execUshMgmap_answers {s : State} {ch : Fin 8} {p : Place} {o : OpSpec} {first n : Nat}
    (ho : o = { op := 0x102, lenMin := 2, lenMax := 61, wing := 1 }) (hl : s.sl.ush.hold = none) (hr : s.sr.ush.hold = none)
    (h : Served s ch o p) (hx : MapWord (wordAt p.words 2) first n) (hlen : p.len = n + 1)
    (hclean : ∀ x ∈ wordsAt p.words 3 n, x &&& 0x80808080 = 0) :
    Answers (exec (.ushMgmap ch) s) ((p.wings o (home s ch)).foldl (fun t w => (List.range n).foldl (fun t k =>
      (List.range 4).foldl (fun v j => v.fix (.mg w (!(t.wing w).ush.bank) (4 * (first + k) + j)))
        (t.modUsh w fun u => { u with stMg := overlay u.stMg (mgEntries (4 * (first + k)) (wordAt (wordsAt p.words 3 n) k)) })) t)
        (took s ch)) ch .ok [] := by
  subst ho
  refine answers_stagesUsh hl hr h (by decide) fun t w => ?_
  obtain ⟨hfirst, hn, h76, hhi⟩ := hx.checks
  have hlen' : fld (wordAt p.words 0) 21 16 = n + 1 := hlen
  have hall : ((wordsAt p.words 3 n).all fun x => x &&& 0x80808080 = 0) = true :=
    List.all_eq_true.2 fun x hm => decide_eq_true (hclean x hm)
  simp only [ctxOf_w, ctxOf_words, ctxOf_wing, hfirst, hn, h76, hhi, hlen', hall, Bool.and_true]
  rw [Res.need_of (decide_eq_true ⟨trivial, trivial, hx.pos, hx.le, hx.last_le, trivial⟩)]
  congr 2
  funext t k
  exact State.foldl_fix_mg w _ _ (by rw [State.modUsh_ush]; rfl)

/-! ## Reading (R228) -/

/-- The word by which USH_READ names an entry, within its bounds (R228). -/
structure UshWord (x kind : Nat) (staging : Bool) (ix : Nat) : Prop where
  eq : x = kind + b2n staging * 4 + ix * 8
  kind_lt : kind < 4
  ix_lt : ix < 128

section UshWord

variable {x kind ix : Nat} {staging : Bool} (h : UshWord x kind staging ix)

include h

theorem UshWord.fields : fld x 1 0 = kind ∧ fld x 9 3 = ix ∧ x < 2 ^ 10 := by
  obtain ⟨hx, hk, hi⟩ := h
  have hb : b2n staging ≤ 1 := by cases staging <;> decide
  simp only [fld_eq]
  omega

theorem UshWord.staging_eq : bitOf x 2 = staging := by
  obtain ⟨hx, hk, -⟩ := h
  have hb : b2n staging ≤ 1 := by cases staging <;> decide
  have hbit : x / 2 ^ 2 % 2 = b2n staging := by omega
  rw [bitOf, Nat.testBit_eq_decide_div_mod_eq, hbit]
  cases staging <;> rfl

end UshWord

theorem took_ushWords (s : State) (ch : Fin 8) (w : Wing) (kind : Nat) (staging : Bool) (ix : Nat) :
    (took s ch).ushWords w kind staging ix = s.ushWords w kind staging ix := by
  simp only [State.ushWords, took_bad, took_wing]

theorem execUshRead_answers {s : State} {ch : Fin 8} {p : Place} {w : Wing} {kind ix : Nat} {staging : Bool}
    (h : Served s ch { op := 0x105, lenMin := 1, lenMax := 1, wing := 2 } p)
    (hw : p.wings { op := 0x105, lenMin := 1, lenMax := 1, wing := 2 } (home s ch) = [w])
    (hx : UshWord (wordAt p.words 2) kind staging ix) (h1 : kind = 1 → ix < 8) (h2 : kind = 2 → ix < 64) :
    Answers (exec (.ushRead ch) s) (took s ch) ch .ok (s.ushWords w kind staging ix) := by
  obtain ⟨hkind, hix, hlt⟩ := hx.fields
  refine answers_oneWing h hw ?_
  simp only [ctxOf_w, ctxOf_wing, hkind, hix, hx.staging_eq, took_ushWords, ctxOf_clean hlt, Bool.true_and]
  exact Res.need_of (decide_eq_true ⟨h1, h2⟩) _ _

/-- Settles O16: each command's body on the wings that it names, its checks met by the hypotheses. -/
theorem usherStages : Obligations.UsherStages := by
  unfold Obligations.UsherStages
  refine ⟨fun s ch p o hl hr h => ⟨?rule, ?dflt, ?mode, ?discard⟩, fun s ch p o h => ⟨?mgmap, ?read⟩⟩
  case rule =>
    rintro rfl hok
    exact answers_stagesUsh hl hr h (by decide) fun t w => if_pos hok
  case dflt =>
    rintro rfl hok
    exact answers_stagesUsh hl hr h (by decide) fun t w => if_pos hok
  case mode =>
    rintro rfl hx
    refine answers_stagesUsh hl hr h (by decide) fun t w => ?_
    rw [Res.need_of (ctxOf_clean hx ..), ctxOf_w, not_bitOf_zero hx, ctxOf_wing]
  case discard =>
    rintro rfl
    exact answers_stagesUsh hl hr h (by decide) fun _ _ => rfl
  case mgmap =>
    intro first n ho hl hr hx hf h1 h60 hlast hlen hclean
    exact execUshMgmap_answers ho hl hr h ⟨hx, hf, h1, h60, hlast⟩ hlen hclean
  case read =>
    rintro w kind ix staging rfl hw hx hk hi h1 h2
    exact execUshRead_answers h hw ⟨hx, hk, hi⟩ h1 h2

/-! ## Reports of bad parity (R234) -/

/-- An Usher without its marks of the bad entries reported. -/
def Usher.unlogged (u : Usher) : Usher := { u with parLogged := [] }

/-- What a report of bad parity leaves: the channels, the vault, and of each Usher all but its marks of what is reported. -/
structure ParityReport (s t : State) : Prop where
  chans : t.chans = s.chans
  vlt : t.vlt = s.vlt
  ush : ∀ v, (t.wing v).ush.unlogged = (s.wing v).ush.unlogged

section Reports

theorem apart_unlogged : Apart fun x => x.ush.unlogged := ⟨fun _ _ => rfl, fun _ _ => rfl, fun _ _ => rfl⟩

theorem ParityReport.refl (s : State) : ParityReport s s := ⟨rfl, rfl, fun _ => rfl⟩

theorem ParityReport.trans {s t u : State} (h : ParityReport s t) (k : ParityReport t u) : ParityReport s u :=
  ⟨k.chans.trans h.chans, k.vlt.trans h.vlt, fun v => (k.ush v).trans (h.ush v)⟩

theorem ParityReport.rt {s t : State} (h : ParityReport s t) : t.rt = s.rt := congrArg Vault.rt h.vlt

theorem ParityReport.foldl {β : Type} {f : State → β → State} (h : ∀ s e, ParityReport s (f s e)) (l : List β)
    (s : State) : ParityReport s (l.foldl f s) := by
  induction l generalizing s with
  | nil => exact .refl s
  | cons e l ih => exact (h s e).trans (ih _)

theorem ParityReport.eachWing {f : State → Wing → State} (h : ∀ s w, ParityReport s (f s w)) (s : State) :
    ParityReport s (s.eachWing f) := (h s .sl).trans (h _ .sr)

theorem State.log_report (s : State) (w : Wing) (e : Ev) (u a b c : Nat) : ParityReport s (s.log w e u a b c) :=
  ⟨State.log_chans .., State.log_vlt .., fun v => s.log_keeps apart_unlogged w v e u a b c⟩

theorem State.countWing_report (s : State) (w : Wing) (c : WCnt) : ParityReport s (s.countWing w c) :=
  ⟨State.countWing_chans .., State.countWing_vlt .., fun v => s.countWing_keeps apart_unlogged w v c⟩

theorem State.rhlFault_report (s : State) (w : Wing) (k u : Nat) : ParityReport s (s.rhlFault w k u) :=
  ⟨State.rhlFault_chans .., State.rhlFault_vlt .., fun v => s.rhlFault_keeps apart_unlogged w v k u⟩

theorem State.raiseAlarm_report (s : State) (a : Alarm) : ParityReport s (s.raiseAlarm a) :=
  ⟨State.raiseAlarm_chans .., State.raiseAlarm_vlt .., fun v => s.raiseAlarm_keeps apart_unlogged v a⟩

theorem State.markCritical_report (s : State) (w : Wing) (name : Nat) : ParityReport s (s.markCritical w name) :=
  ⟨rfl, rfl, fun v => by cases v <;> rfl⟩

theorem State.rows_report (s : State) (r : Tbl (List (Nat × Nat))) : ParityReport s { s with rows := r } :=
  ⟨rfl, rfl, fun v => by cases v <;> rfl⟩

theorem State.rowErrs_report (s : State) (r : List (Nat × Nat × Nat)) : ParityReport s { s with rowErrs := r } :=
  ⟨rfl, rfl, fun v => by cases v <;> rfl⟩

theorem State.remapRow_report (s : State) (w : Wing) (bank row : Nat) : ParityReport s (s.remapRow w bank row) := by
  unfold State.remapRow
  dsimp only
  split
  · exact (s.rows_report _).trans (State.log_report ..)
  · exact ((s.log_report ..).trans (State.markCritical_report ..)).trans (State.raiseAlarm_report ..)

theorem State.parityHit_report (s : State) (w : Wing) (e : Ent) : ParityReport s (s.parityHit w e) := by
  unfold State.parityHit
  dsimp only
  split
  · exact ((s.rhlFault_report ..).trans (State.rowErrs_report ..)).trans (State.remapRow_report ..)
  · exact (s.rhlFault_report ..).trans (State.rowErrs_report ..)

theorem State.markLogged_report (s : State) (w : Wing) (id : Nat) :
    ParityReport s (s.modWing w fun x => { x with ush := { x.ush with parLogged := x.ush.parLogged ++ [id] } }) :=
  ⟨State.modWing_chans .., State.modWing_vlt .., fun v =>
    State.modWing_keeps (g := fun x => x.ush.unlogged) s w v _ fun _ => rfl⟩

theorem State.logUsher_report (s : State) (w : Wing) (kind ix : Nat) (e : Ent) (bank : Bool) :
    ParityReport s (s.logUsher w kind ix e bank) := by
  unfold State.logUsher
  dsimp only
  generalize kind * 256 + ix + (if bank = (s.wing w).ush.bank then 0 else 1024) = id
  split
  · exact .refl s
  · exact (((s.markLogged_report w id).trans (State.log_report ..)).trans (State.countWing_report ..)).trans
      (State.parityHit_report ..)

theorem State.mgCompare_report (s : State) (w : Wing) : ParityReport s (s.mgCompare w) := by
  unfold State.mgCompare
  split
  · exact .refl s
  · dsimp only
    generalize hu : s.eachWing _ = u
    have hboth : ParityReport s u := by
      rw [← hu]
      refine .eachWing (fun t v => .foldl (fun t e => ?_) _ _) s
      split
      · split
        · exact State.logUsher_report ..
        · exact .refl t
      · exact .refl t
    split
    · exact hboth.trans (State.log_report ..)
    · exact hboth

end Reports

/-! ## Beginning a commit (R227, R229) -/

section Start

variable {s : State} {w : Wing} {ch : Fin 8} {both : Bool}

/-- The rules that a commit's check leaves out, as they are reported. -/
def State.reportStaged (s : State) (w : Wing) (bad : List (Nat × Bool)) : State :=
  bad.foldl (fun t e => t.logUsher w 0 e.1 (.rule w e.2 e.1) e.2) s

theorem State.reportStaged_report (s : State) (w : Wing) (bad : List (Nat × Bool)) : ParityReport s (s.reportStaged w bad) :=
  ParityReport.foldl (fun _ _ => State.logUsher_report ..) _ _

/-- The rules of the staged set that a commit's check reads. -/
def State.stagedGood (s : State) (w : Wing) : Tbl URule :=
  (s.wing w).ush.staged.rules.filter fun e => !(s.stagedBad w).any (·.1 = e.1)

/-- A commit that would leave service mode in SERVICE is refused (R227). -/
def State.leavesService (s : State) (w : Wing) : Prop :=
  (s.wing w).ush.staged.service = false ∧ (s.wing w).ush.force.service = true ∧ s.vlt.lcCode = 4

theorem State.ushStart_waits (hh : (s.wing w).ush.hold.isSome = true) : s.ushStart w ch both = .wait s (.ushCommit w both) :=
  if_pos hh

theorem State.ushStart_refused (hh : (s.wing w).ush.hold = none) (h : s.leavesService w) :
    s.ushStart w ch both = failed (s.countWing w .commitFailed) .lcRefused := by
  obtain ⟨hst, hf, hlc⟩ := h
  simp [State.ushStart, hh, hst, hf, hlc]

/-- In service mode two of the rules read overlap (R227). -/
theorem State.ushStart_overlaps {i j : Nat} (hh : (s.wing w).ush.hold = none) (hst : (s.wing w).ush.staged.service = true)
    (ho : overlapPair (s.stagedGood w) = some (i, j)) :
    s.ushStart w ch both =
      .done ((s.reportStaged w (s.stagedBad w)).countWing w .commitFailed) .ushOverlap [wd (i + j * 2 ^ 8)] := by
  rw [State.stagedGood] at ho
  simp [State.ushStart, hh, hst, ho, State.reportStaged]

/-- In service mode no two of the rules read overlap, and the hold begins. -/
theorem State.ushStart_service (hh : (s.wing w).ush.hold = none) (hst : (s.wing w).ush.staged.service = true)
    (ho : overlapPair (s.stagedGood w) = none) :
    s.ushStart w ch both = .wait ((s.reportStaged w (s.stagedBad w)).modUsh w fun u =>
      { u with hold := some s.rt, commitCh := some ch }) (.ushCommit w both) := by
  rw [← (s.reportStaged_report w (s.stagedBad w)).rt]
  rw [State.stagedGood] at ho
  simp [State.ushStart, hh, hst, ho, State.reportStaged]

/-- A commit in dress mode begins the hold without a check of its rules. -/
theorem State.ushStart_dress (hh : (s.wing w).ush.hold = none) (hst : (s.wing w).ush.staged.service = false)
    (h : ¬s.leavesService w) :
    s.ushStart w ch both = .wait (s.modUsh w fun u => { u with hold := some s.rt, commitCh := some ch }) (.ushCommit w both) := by
  simp only [State.leavesService, hst, true_and] at h
  simp [State.ushStart, hh, hst, h]

end Start

theorem took_stagedBad (s : State) (ch : Fin 8) (w : Wing) : (took s ch).stagedBad w = s.stagedBad w := by
  simp only [State.stagedBad, took_bad, took_wing]

theorem took_stagedGood (s : State) (ch : Fin 8) (w : Wing) : (took s ch).stagedGood w = s.stagedGood w := by
  simp only [State.stagedGood, took_stagedBad, took_wing]

section Commit

variable {s t : State} {ch : Fin 8} {p : Place} {w : Wing}
  (h : Served s ch { op := 0x104, lenMin := 0, lenMax := 0, wing := 3 } p)
  (hw : p.wings { op := 0x104, lenMin := 0, lenMax := 0, wing := 3 } (home s ch) = [w])

include h hw

theorem execUshCommit_holds (hh : (s.wing w).ush.hold = none)
    (ht : t = if (s.wing w).ush.staged.service then (took s ch).reportStaged w (s.stagedBad w) else took s ch)
    (ho : (s.wing w).ush.staged.service = true → overlapPair (s.stagedGood w) = none) (hmode : ¬s.leavesService w) :
    Waits (exec (.ushCommit ch) s) (t.modUsh w fun u => { u with hold := some s.rt, commitCh := some ch }) ch
      (.ushCommit w false) := by
  rw [← took_wing s ch] at hh
  refine waits_oneWing h hw ?_
  show (took s ch).ushStart w ch false = _
  cases hst : (s.wing w).ush.staged.service with
  | true =>
    rw [State.ushStart_service hh (by rwa [took_wing]) (by rw [took_stagedGood]; exact ho hst),
      took_stagedBad, ht, hst, if_pos rfl]
    rfl
  | false =>
    rw [ht, hst]
    exact State.ushStart_dress hh (by rwa [took_wing]) (by rwa [State.leavesService, took_wing])

theorem execUshCommit_overlaps {i j : Nat} (hh : (s.wing w).ush.hold = none)
    (hst : (s.wing w).ush.staged.service = true) (ho : overlapPair (s.stagedGood w) = some (i, j)) :
    Answers (exec (.ushCommit ch) s) (((took s ch).reportStaged w (s.stagedBad w)).countWing w .commitFailed) ch .ushOverlap
      [wd (i + j * 2 ^ 8)] := by
  refine answers_oneWing h hw ?_
  show (took s ch).ushStart w ch false = _
  rw [State.ushStart_overlaps (by rwa [took_wing]) (by rwa [took_wing]) (by rwa [took_stagedGood]), took_stagedBad]

end Commit

/-! ## The bank switch (R229) -/

section Switch

variable {s : State} {w : Wing}

/-- An Usher after the bank switch: the staged set is in force under the next generation, and nothing is staged. -/
def Usher.switched (u : Usher) : Usher :=
  { u.discard with
    force := u.staged, gen := (u.gen + 1) % 65536, hold := none, commitCh := none, drained := false, blocked := none,
    parLogged := [] }

theorem State.usherSwitch_ush (s : State) (w : Wing) : ((s.usherSwitch w).wing w).ush = (s.wing w).ush.switched := by
  cases w <;> rfl

theorem State.usherSwitch_chans (s : State) (w : Wing) : (s.usherSwitch w).chans = s.chans := by cases w <;> rfl

/-- The switch does not depend on the mark that the old set has drained. -/
theorem State.usherSwitch_drained (s : State) (w : Wing) :
    (s.modUsh w fun u => { u with drained := true }).usherSwitch w = s.usherSwitch w := by
  cases w <;> rfl

theorem State.modUsh_self {f : Usher → Usher} (h : f (s.wing w).ush = (s.wing w).ush) : s.modUsh w f = s := by
  cases w <;> simp only [State.modUsh, State.modWing, h] <;> rfl

/-- With no access left under the old set, the drain ends (R229). -/
theorem State.pumpDrain_ends (hh : (s.wing w).ush.hold.isSome = true) (hb : (s.wing w).ush.blocked = none)
    (hd : (s.wing w).ush.drained = true ∨ s.undrained w = []) :
    s.pumpDrain w = s.modUsh w fun u => { u with drained := true } := by
  obtain ⟨t0, ht0⟩ := Option.isSome_iff_exists.1 hh
  cases hdr : (s.wing w).ush.drained with
  | true =>
    rw [State.modUsh_self (by rw [← hdr])]
    simp [State.pumpDrain, ht0, hdr]
  | false =>
    have hnone : s.undrained w = [] := hd.resolve_left (by simp [hdr])
    simp only [State.pumpDrain, ht0, hdr, hb, hnone, oldest]
    rfl

/-- The report of a commit, on the channel that asked for it: the generations, or the commit of SR. -/
def State.reportUsh (s : State) (w : Wing) : Option (Fin 8) → State
  | none => s
  | some ch => match s.chans[ch].waiting with
    | some (.ushCommit w' both) =>
      if w' ≠ w then s
      else if both ∧ w = .sl then (s.ushStart .sr ch false).settle ch s.chans[ch].expect
      else s.finish ch .ok s.gens
    | _ => s

theorem State.reportUsh_one {ch : Fin 8} (h : s.chans[ch].waiting = some (.ushCommit w false)) :
    s.reportUsh w (some ch) = s.finish ch .ok s.gens := by
  simp only [State.reportUsh, h]
  simp

theorem State.reportUsh_both {ch : Fin 8} (h : s.chans[ch].waiting = some (.ushCommit .sl true)) :
    s.reportUsh .sl (some ch) = (s.ushStart .sr ch false).settle ch s.chans[ch].expect := by
  simp only [State.reportUsh, h]
  simp

theorem execUshBankSwitch_switches {t : State} (hh : (s.wing w).ush.hold.isSome = true) (hb : (s.wing w).ush.blocked = none)
    (hd : (s.wing w).ush.drained = true ∨ s.undrained w = []) (ht : t = (s.usherSwitch w).mgCompare w) :
    exec (.ushBankSwitch w) s = .next (State.nextUsh 8 w (t.reportUsh w (s.wing w).ush.commitCh)) := by
  show execUshBankSwitch w s = _
  have hgo : ¬((s.wing w).ush.hold.isNone = true ∨ (!true) = true) := by simp [Option.isSome_iff_ne_none.1 hh]
  simp only [execUshBankSwitch, State.pumpDrain_ends hh hb hd, State.modUsh_ush, State.usherSwitch_drained, ← ht]
  rw [if_neg hgo]
  cases (s.wing w).ush.commitCh <;> rfl

theorem State.switched_report (s : State) (w : Wing) : ((s.usherSwitch w).mgCompare w).chans = s.chans
    ∧ (((s.usherSwitch w).mgCompare w).wing w).ush.unlogged = (s.wing w).ush.switched := by
  have h := (s.usherSwitch w).mgCompare_report w
  refine ⟨h.chans.trans (s.usherSwitch_chans w), (h.ush w).trans ?_⟩
  rw [State.usherSwitch_ush]
  rfl

end Switch

/-- Settles O17: a commit by what its check comes to, and its bank switch by who waits for the report. -/
theorem usherCommits : Obligations.UsherCommits := by
  unfold Obligations.UsherCommits
  rintro s ch p w u rfl
  refine ⟨fun h hw => ⟨fun good t hh hg ht => ⟨fun ho hmode => ?holds, fun i j hst ho => ?overlaps⟩,
    fun hh hst hf hlc => ?refused, fun hh => ?waits⟩, fun t hh hb hd ht => ?switch⟩
  case holds =>
    subst hg
    refine execUshCommit_holds h hw hh ht ho ?_
    rintro ⟨hst, hf, hlc⟩
    simp [hst, hf, hlc] at hmode
  case overlaps =>
    subst hg
    rw [ht, if_pos hst]
    exact execUshCommit_overlaps h hw hh hst ho
  case refused =>
    exact answers_oneWing h hw (State.ushStart_refused (by rwa [took_wing])
      (by rw [State.leavesService, took_wing]; exact ⟨hst, hf, hlc⟩))
  case waits => exact waits_oneWing h hw (State.ushStart_waits (by rwa [took_wing]))
  case switch =>
    obtain ⟨hchans, hush⟩ := s.switched_report w
    rw [← ht] at hchans hush
    have hnext := execUshBankSwitch_switches hh hb hd ht
    refine ⟨congrArg Usher.hold hush, congrArg Usher.force hush, congrArg Usher.gen hush, congrArg Usher.stRules hush,
      congrArg Usher.stDefs hush, congrArg Usher.stMg hush, congrArg Usher.stMode hush, fun hc => ?_, fun hc hwait => ?_,
      fun v x hc hwait hsl hstart => ?_⟩
    · rw [hnext, hc]
      rfl
    · rw [← hchans] at hwait
      rw [hnext, hc, State.reportUsh_one hwait]
      rfl
    · subst hsl
      rw [← hchans] at hwait
      rw [hnext, hc, State.reportUsh_both hwait, hstart]
      rfl

end Sys2Proof.Machine
end

section
/-! SUPPORT. What no step undoes: the canonical form of the retention SRAM (R238) and what is burnt of the fuses (R236, R277). A
function that answers a later state of the machine has one lemma, named after it, which follows its definition. -/

namespace Sys2Proof.Machine

/-- What the vault does not lose: the canonical form of the retention SRAM, a copy of a life-cycle bit that is burnt, the epoch
reached, an owner hash that is burnt. -/
def Vault.Lasts (v v' : Vault) : Prop :=
  (Memory.wf v.sram = true → Memory.wf v'.sram = true)
    ∧ (∀ i : Fin 20, (v.lc[i].c0 = true → v'.lc[i].c0 = true) ∧ (v.lc[i].c1 = true → v'.lc[i].c1 = true)
      ∧ (v.lc[i].c2 = true → v'.lc[i].c2 = true))
    ∧ v.epoch ≤ v'.epoch
    ∧ ∀ (i : Fin 4) h, v.owner[i] = some h → v'.owner[i] = some h

theorem Vault.Lasts.refl (v : Vault) : v.Lasts v := ⟨id, fun _ => ⟨id, id, id⟩, le_rfl, fun _ _ => id⟩

theorem Vault.Lasts.trans {u v w : Vault} (h : u.Lasts v) (k : v.Lasts w) : u.Lasts w := by
  obtain ⟨hm, hl, he, ho⟩ := h
  obtain ⟨km, kl, ke, ko⟩ := k
  exact ⟨fun x => km (hm x), fun i => ⟨fun x => (kl i).1 ((hl i).1 x), fun x => (kl i).2.1 ((hl i).2.1 x),
    fun x => (kl i).2.2 ((hl i).2.2 x)⟩, he.trans ke, fun i h x => ko i h (ho i h x)⟩

/-- The retention SRAM alone is written. -/
theorem Vault.Lasts.of_sram {v v' : Vault} (hm : Memory.wf v.sram = true → Memory.wf v'.sram = true)
    (hf : (v'.lc, v'.epoch, v'.owner) = (v.lc, v.epoch, v.owner)) : v.Lasts v' := by
  obtain ⟨hl, he, ho⟩ : v'.lc = v.lc ∧ v'.epoch = v.epoch ∧ v'.owner = v.owner := by simpa using hf
  exact ⟨hm, fun i => by rw [hl]; exact ⟨id, id, id⟩, he.ge, fun i h x => by rw [ho]; exact x⟩

/-- Neither the retention SRAM nor a fuse is written. -/
theorem Vault.Lasts.of_eq {v v' : Vault} (h : (v'.sram, v'.lc, v'.epoch, v'.owner) = (v.sram, v.lc, v.epoch, v.owner)) :
    v.Lasts v' := by
  obtain ⟨hm, hf⟩ := Prod.mk.inj h
  exact .of_sram (fun x => by rwa [hm]) hf

/-! What the vault's own writes keep. -/

theorem Vault.Lasts.macHeader (v : Vault) : v.Lasts v.macHeader := by
  unfold Vault.macHeader
  split
  · exact .of_sram (memPut_wf _ _ _) (by rfl)
  · exact .refl v

theorem Vault.Lasts.newHeader (v : Vault) (p : Nat) (i : Bool) : v.Lasts (v.newHeader p i) := by
  unfold Vault.newHeader
  exact .trans (.of_sram (memPut_wf _ _ _) (by rfl)) (.macHeader _)

theorem Vault.Lasts.setIron (v : Vault) (x : Bool) : v.Lasts (v.setIron x) := by
  unfold Vault.setIron
  exact .trans (.of_sram (memWr32_wf _ _ _) (by rfl)) (.macHeader _)

theorem Vault.Lasts.setVersion (v : Vault) (i x : Nat) : v.Lasts (v.setVersion i x) := .of_sram (v.setVersion_wf i x) rfl

theorem Vault.Lasts.setLease (v : Vault) (i n : Nat) (p : Bool) (x : Nat) : v.Lasts (v.setLease i n p x) :=
  .of_sram (v.setLease_wf i n p x) rfl

theorem Vault.Lasts.setRegionRec (v : Vault) (r : Nat) (b : Bytes) : v.Lasts (v.setRegionRec r b) :=
  .of_sram (v.setRegionRec_wf r b) rfl

theorem Vault.Lasts.applyRoots (n : Nat) (v : Vault) (b : Bytes) : v.Lasts (Vault.applyRoots n v b) := by
  induction n generalizing v b with
  | zero => exact .refl v
  | succ n ih => exact (Vault.Lasts.setRegionRec _ _ _).trans (ih _ _)

theorem Vault.Lasts.applySlot (v : Vault) (i : Nat) : v.Lasts (v.applySlot i) := by
  unfold Vault.applySlot
  dsimp only
  split
  · split
    · exact .setVersion _ _ _
    · exact .refl v
  · split
    · exact .setLease _ _ _ _ _
    · exact .refl v
  · exact .applyRoots _ _ _
  · exact .refl v

theorem Vault.Lasts.prepare (v : Vault) (t c u : Nat) (d b : Bytes) : v.Lasts (v.prepare t c u d b) :=
  .of_sram (v.prepare_wf t c u d b) rfl

theorem Vault.Lasts.commit (v : Vault) : v.Lasts v.commit := .of_sram v.commit_wf rfl

theorem Vault.Lasts.setMac (v : Vault) : v.Lasts v.setMac := by
  have h := v.setMac_wf
  unfold Vault.setMac at h ⊢
  generalize memPut _ _ _ = m at h ⊢
  exact .of_sram h rfl

theorem Vault.Lasts.defaultSettings (v : Vault) : v.Lasts v.defaultSettings := by
  unfold Vault.defaultSettings
  generalize padTo 240 _ = b
  exact .trans (.of_sram (memPut_wf _ _ _) (by rfl)) (.setMac _)

theorem Vault.Lasts.setKeys (v : Vault) (k : Derived) : v.Lasts { v with keys := k } := .of_eq rfl

theorem Vault.Lasts.iron (v : Vault) : v.Lasts v.iron := by
  unfold Vault.iron
  generalize List.replicate 192 (0 : Byte) = b
  exact .trans (.trans (.of_sram (memPut_wf _ _ _) (by rfl)) (.setIron _ _)) (.setKeys _ _)

theorem Vault.Lasts.recover (v : Vault) (i : Nat) : v.Lasts (v.recover i) := by
  unfold Vault.recover
  exact .trans (.of_sram (memWr32_wf _ _ _) (by rfl)) (.applySlot _ _)

theorem Vault.Lasts.ite {c : Prop} {_ : Decidable c} {u a b : Vault} (ha : u.Lasts a) (hb : u.Lasts b) :
    u.Lasts (if c then a else b) := by
  split
  · exact ha
  · exact hb

theorem Vault.Lasts.setLost (v : Vault) (b : Bool) : v.Lasts { v with setLost := b } := .of_eq rfl

theorem Vault.Lasts.deriveAll (v : Vault) : v.Lasts v.deriveAll := .of_eq rfl

theorem Vault.Lasts.restoreOff (v : Vault) (x : Nat) :
    v.Lasts (if v.lcCode = 4 then { v with sram := memWr32 v.sram 0xF28 x } else v) := by
  generalize 0xF28 = a
  exact .ite (.of_sram (memWr32_wf _ _ _) (by rfl)) (.refl v)

theorem Vault.Lasts.moveContext (v : Vault) (held : Bool) : v.Lasts (v.moveContext held) := by
  unfold Vault.moveContext
  generalize List.replicate 0xC00 (0 : Byte) = b
  extract_lets old iron wiped keyed digest journal ctr signed header
  have h1 : v.Lasts wiped := .of_sram (memPut_wf _ _ _) (by rfl)
  have h2 : v.Lasts keyed := h1.trans (.setKeys _ _)
  have h3 : v.Lasts journal := h2.trans ((Vault.Lasts.prepare _ _ _ _ _ _).trans (.commit _))
  have h4 : v.Lasts ctr := h3.trans (.restoreOff _ _)
  have h5 : v.Lasts signed := h4.trans (.setMac _)
  clear_value signed
  have h6 : v.Lasts header := h5.trans ((Vault.Lasts.setLost _ _).trans (.newHeader _ _ _))
  exact .ite (h6.trans (.setKeys _ _)) (.ite h6 (h6.trans (.deriveAll _)))

/-- A state later than `s` that has lost nothing of its vault. -/
def Kept (s t : State) : Prop := s.vlt.Lasts t.vlt

/-- An outcome whose next state, if it has one, has lost nothing. -/
def KeptBy (s : State) (o : Host.Outcome State Fault Refusal) : Prop := ∀ t, o = .next t → Kept s t

/-- The state with which a command's work ends. -/
def Res.state : Res → State
  | .done s _ _ => s
  | .wait s _ => s
  | .later s => s

variable {s t u : State}

theorem Kept.refl (s : State) : Kept s s := Vault.Lasts.refl _

theorem Kept.same (h : Kept s t) (e : u.vlt = t.vlt) : Kept s u := by
  unfold Kept
  rwa [e]

theorem Kept.lasts (h : Kept s t) (hu : t.vlt.Lasts u.vlt) : Kept s u := Vault.Lasts.trans h hu

theorem Kept.modVlt (h : Kept s t) {f : Vault → Vault} (hf : t.vlt.Lasts (f t.vlt)) : Kept s (t.modVlt f) :=
  Vault.Lasts.trans h hf

theorem Kept.ite {c : Prop} {_ : Decidable c} {a b : State} (ha : Kept s a) (hb : Kept s b) : Kept s (if c then a else b) := by
  split
  · exact ha
  · exact hb

theorem Kept.ite_snd {α : Type} {c : Prop} {_ : Decidable c} {a b : α × State} (ha : Kept s a.2) (hb : Kept s b.2) :
    Kept s (if c then a else b).2 := by
  split
  · exact ha
  · exact hb

theorem Kept.ite_res {c : Prop} {_ : Decidable c} {a b : Res} (ha : Kept s a.state) (hb : Kept s b.state) :
    Kept s (if c then a else b).state := by
  split
  · exact ha
  · exact hb

theorem KeptBy.ite {c : Prop} {_ : Decidable c} {a b : Host.Outcome State Fault Refusal} (ha : KeptBy s a) (hb : KeptBy s b) :
    KeptBy s (if c then a else b) := by
  split
  · exact ha
  · exact hb

theorem KeptBy.next (h : Kept s t) : KeptBy s (.next t) := by
  rintro _ ⟨⟩
  exact h

theorem Kept.of_snd {α : Type} {x : α × State} {a : α} (h : Kept s x.2) (e : x = (a, t)) : Kept s t := by
  rw [e] at h
  exact h

theorem Kept.foldl {α : Type} {f : State → α → State} {l : List α} (h : Kept s t) (hf : ∀ {t a}, Kept s t → Kept s (f t a)) :
    Kept s (l.foldl f t) := by
  induction l generalizing t with
  | nil => exact h
  | cons a l ih => exact ih (hf h)

theorem Kept.good (h : Kept s t) : Kept s (good t).state := h

theorem Kept.done (h : Kept s t) {st ws} : Kept s (Res.done t st ws).state := h

theorem Kept.wait (h : Kept s t) {w} : Kept s (Res.wait t w).state := h

/-- The state with which a command that ended has ended. -/
theorem Kept.of_res {r r' : Res} (h : Kept s r.state) (e : r = r') : Kept s r'.state := e ▸ h

theorem Kept.setUpd (h : Kept s t) {x} : Kept s { t with upd := x } := h

theorem Kept.setPwr (h : Kept s t) {x} : Kept s { t with pwr := x } := h

theorem Kept.setCores (h : Kept s t) {x} : Kept s { t with cores := x } := h

end Sys2Proof.Machine
end

section
/-! SUPPORT. One lemma for each function of the model that answers a later state: it loses nothing of what the vault keeps. -/

namespace Sys2Proof.Machine

variable {s t u : State}

/-! ## The shared updates -/

theorem Kept.setWing (h : Kept s t) {w x} : Kept s (t.setWing w x) := by
  unfold State.setWing
  split <;> exact h.same (by rfl)

theorem Kept.modWing (h : Kept s t) {w f} : Kept s (t.modWing w f) := h.setWing

theorem Kept.modPort (h : Kept s t) {p f} : Kept s (t.modPort p f) := h.same (by rfl)

theorem Kept.modRqp (h : Kept s t) {q f} : Kept s (t.modRqp q f) := h.same (by rfl)

theorem Kept.modMp (h : Kept s t) {m f} : Kept s (t.modMp m f) := h.same (by rfl)

theorem Kept.modLane (h : Kept s t) {l f} : Kept s (t.modLane l f) := h.same (by rfl)

theorem Kept.modRegion (h : Kept s t) {r f} : Kept s (t.modRegion r f) := h.same (by rfl)

theorem Kept.modCue (h : Kept s t) {c f} : Kept s (t.modCue c f) := h.same (by rfl)

theorem Kept.modChan (h : Kept s t) {n f} : Kept s (t.modChan n f) := h.same (by rfl)

theorem Kept.modCore (h : Kept s t) {c f} : Kept s (t.modCore c f) := h.same (by rfl)

theorem Kept.takeFree (h : Kept s t) : Kept s t.takeFree := h.same (by rfl)

theorem Kept.draw (h : Kept s t) {k} : Kept s (t.draw k).2 := h.modVlt (.of_eq (by rfl))

theorem Kept.eachWing (h : Kept s t) {f} (hf : ∀ {t w}, Kept s t → Kept s (f t w)) : Kept s (t.eachWing f) := hf (hf h)

theorem Kept.countPort (h : Kept s t) {p c} : Kept s (t.countPort p c) := h.modPort

theorem Kept.countWing (h : Kept s t) {w c} : Kept s (t.countWing w c) := h.modWing

theorem Kept.countRegion (h : Kept s t) {r i k} : Kept s (t.countRegion r i k) := h.modRegion

theorem Kept.logWords (h : Kept s t) {w e} : Kept s (t.logWords w e) := h.modWing

theorem Kept.log (h : Kept s t) {w e unit subj a b} : Kept s (t.log w e unit subj a b) := h.logWords

theorem Kept.logBoth (h : Kept s t) {e unit subj a b} : Kept s (t.logBoth e unit subj a b) := h.eachWing fun h => h.log

theorem Kept.logEntry (h : Kept s t) {w kind entry} : Kept s (t.logEntry w kind entry) := h.logWords

theorem Kept.rhlStop (h : Kept s t) {w cause bits} : Kept s (t.rhlStop w cause bits) := h.modWing.log

theorem Kept.rhlPut1 (h : Kept s t) {w type clear sealed words} : Kept s (t.rhlPut1 w type clear sealed words) :=
  .ite h (.ite (have h1 := h.modWing; .ite h1.rhlStop h1.rhlStop) h.modWing)

theorem Kept.rhlPut (h : Kept s t) {w type clear sealed words} : Kept s (t.rhlPut w type clear sealed words) :=
  .rhlPut1 (.ite h.rhlPut1 h)

theorem Kept.rhlRec (h : Kept s t) {w type clear sealed words} : Kept s (t.rhlRec w type clear sealed words) :=
  .ite (((h.foldl fun h => h.rhlPut).modWing).rhlPut) h

theorem Kept.rhlGrant (h : Kept s t) {w arbiter bit} : Kept s (t.rhlGrant w arbiter bit) :=
  .ite (.ite h.modWing h.modWing.rhlPut) h

theorem Kept.takeGrant (h : Kept s t) {c} : Kept s (t.takeGrant c) := h.eachWing fun h => h.rhlGrant

theorem Kept.closeGrant (h : Kept s t) {w met} : Kept s (t.closeGrant w met) := .ite h.rhlGrant h

theorem Kept.rhlSeed (h : Kept s t) {w purpose value} : Kept s (t.rhlSeed w purpose value) := h.rhlRec

theorem Kept.rhlFreeze (h : Kept s t) {w cause bits} : Kept s (t.rhlFreeze w cause bits) :=
  .ite (.ite h.modWing h.modWing.rhlStop) (.ite (have h1 := h.rhlRec; .ite h1 (.ite h1.modWing h1.rhlStop)) h)

theorem Kept.rhlFault (h : Kept s t) {w kind unit} : Kept s (t.rhlFault w kind unit) := h.rhlRec

theorem Kept.raiseAlarm (h : Kept s t) {a} : Kept s (t.raiseAlarm a) := (h.same (by rfl)).eachWing fun h => .ite h.rhlFreeze h

theorem Kept.fix (h : Kept s t) {e} : Kept s (t.fix e) := h.same (by rfl)

theorem Kept.modWear (h : Kept s t) {name f} : Kept s (t.modWear name f) := h.same (by rfl)

theorem Kept.markCritical (h : Kept s t) {w name} : Kept s (t.markCritical w name) := h.modWear

theorem Kept.roleChanged (h : Kept s t) {w name struck} : Kept s (t.roleChanged w name struck) := h.modWear

theorem Kept.remapRow (h : Kept s t) {w bank row} : Kept s (t.remapRow w bank row) :=
  .ite ((h.same (by rfl)).log) h.log.markCritical.raiseAlarm

theorem Kept.parityHit (h : Kept s t) {w e} : Kept s (t.parityHit w e) :=
  have h1 := h.rhlFault
  .ite ((h1.same (by rfl)).remapRow) (h1.same (by rfl))

/-! ## Lanes -/

theorem Kept.giveLane (h : Kept s t) {l i} : Kept s (t.giveLane l i) := h.modLane

theorem Kept.modDisp (h : Kept s t) {w f} : Kept s (t.modDisp w f) := h.modWing

theorem Kept.dispatchMove (h : Kept s t) {w} (e : t.dispatchMove w = .go u) : Kept s u := by
  unfold State.dispatchMove at e
  dsimp only at e
  split at e
  · cases e
    exact .giveLane (.modDisp (.ite h.rhlGrant h))
  · split at e
    · cases e
      exact .giveLane (.modDisp (.ite h.rhlGrant h))
    · split at e
      · cases e
      · split at e
        · cases e
          exact h.modDisp
        · cases e
          exact h.modDisp
        · cases e
          exact h.modDisp
        · split at e
          · split at e
            · cases e
              exact .modDisp (.giveLane (.modDisp (.ite h.rhlGrant h)))
            · cases e
          · cases e
            exact h.modDisp

theorem Kept.dispatchLoop (h : Kept s t) {n w} : Kept s (State.dispatchLoop n w t) := by
  induction n generalizing t with
  | zero => exact h
  | succ n ih =>
    unfold State.dispatchLoop
    refine .ite h ?_
    split
    · exact h
    · next e => exact ih (h.dispatchMove e)

theorem Kept.dispatch (h : Kept s t) {w} : Kept s (t.dispatch w) :=
  have h1 := h.dispatchLoop
  .ite h1.modDisp h1

theorem Kept.admitItem (h : Kept s t) {w of key cls cost} : Kept s (t.admitItem w of key cls cost) := .ite h h.modDisp.dispatch

theorem Kept.dropItem (h : Kept s t) {of} : Kept s (t.dropItem of) :=
  ((h.eachWing fun h => h.modDisp).same (by rfl)).eachWing fun h => h.dispatch

theorem Kept.leadAdmit (h : Kept s t) {w cls cost} : Kept s (t.leadAdmit w cls cost).2 :=
  .ite_snd h (.ite_snd (have h1 := h.countWing; .ite_snd h1.countWing.modDisp h1.modDisp) h.modDisp)

theorem Kept.modWork (h : Kept s t) {of fo fi fl} : Kept s (t.modWork of fo fi fl) := by
  unfold State.modWork
  split
  exacts [h.modPort, h.modPort, h.modRqp, h]

theorem Kept.setLead (h : Kept s t) {of b} : Kept s (t.setLead of b) := h.modWork

theorem Kept.markOutside (h : Kept s t) {of} : Kept s (t.markOutside of) := h.modWork

theorem Kept.markWd (h : Kept s t) {of} : Kept s (t.markWd of) := h.modWork

theorem Kept.restartItem (h : Kept s t) {l i} : Kept s (t.restartItem l i) :=
  have h1 := .ite_snd h.leadAdmit h
  have h2 := .ite h1.setLead h1
  .modDisp (.ite h2.markOutside h2)

theorem Kept.restartLane (h : Kept s t) {l keep dead} : Kept s (t.restartLane l keep dead) :=
  (h.modLane.foldl fun h => h.restartItem).eachWing fun h => h.dispatch

theorem Kept.reassign (h : Kept s t) {old} : Kept s (t.reassign old) := by
  unfold State.reassign
  exact (h.foldl fun h => .ite h h.restartLane.modLane).eachWing fun h => .dispatch (.ite h.log h)

theorem Kept.leadLate (h : Kept s t) {w path cond} : Kept s (t.leadLate w path cond) :=
  have h1 := h.countWing.modDisp
  .ite h1.log.modDisp h1

/-! ## The vault -/

theorem Vault.rcbPush_lasts (v : Vault) (ws : List Word) : v.Lasts (v.rcbPush ws) := by
  refine .of_sram (v.rcbPush_wf ws) ?_
  unfold Vault.rcbPush
  split <;> rfl

theorem Kept.rcb (h : Kept s t) {e newEpoch} : Kept s (t.rcb e newEpoch) := by
  unfold State.rcb
  exact h.modVlt (Vault.rcbPush_lasts _ _)

theorem Vault.Lasts.unload (v : Vault) (id : Nat) : v.Lasts (v.unload id) := by
  unfold Vault.unload
  dsimp only
  split <;> exact .of_eq (by rfl)

theorem Vault.Lasts.dropKey (v : Vault) (l : KLoc) : v.Lasts (v.dropKey l) := by
  cases l with
  | classA id => exact .unload v id
  | sess j => exact .of_eq (by rfl)
  | slot k => exact .of_eq (by rfl)

theorem Vault.Lasts.modKey (v : Vault) (l : KLoc) (f : Key → Key) : v.Lasts (v.modKey l f) := by
  unfold Vault.modKey
  dsimp only
  repeat' split
  all_goals exact .of_eq (by rfl)

theorem Kept.loseCopy (h : Kept s t) {w l} : Kept s (t.loseCopy w l) := by
  unfold State.loseCopy
  split
  · exact have h1 := h.modWing; .ite h1.modWing (h1.modVlt (.dropKey _ _))
  · refine h.modVlt ?_
    split
    · exact .of_eq (by rfl)
    · exact .dropKey _ _
  · exact h.modVlt (.dropKey _ _)

theorem Kept.readCell (h : Kept s t) {w l k} : Kept s (t.readCell w l k).2 := .ite_snd h.log.countWing.parityHit.loseCopy.fix h

theorem Kept.readKey (h : Kept s t) {w l} : Kept s (t.readKey w l).2 := by
  unfold State.readKey
  split
  · split
    · exact h
    · refine .ite_snd h (.ite_snd h.readCell ?_)
      split
      exacts [h.readCell, h]
  · exact .ite_snd h h.readCell
  · exact h.readCell

theorem Kept.closeUnder (h : Kept s t) {l} : Kept s (t.closeUnder l) := by
  unfold State.closeUnder
  split
  exacts [h.eachWing fun h => h.modWing, h, h]

theorem Kept.spend (h : Kept s t) {w l} : Kept s (t.spend w l) := by
  unfold State.spend
  split
  · exact have h1 := h.closeUnder; .ite h1 (h1.modVlt (.modKey _ _ _)).log.countWing
  · exact h

theorem Kept.useKey (h : Kept s t) {w l n} : Kept s (t.useKey w l n) := by
  unfold State.useKey
  have h1 := h.modVlt (f := fun v => v.modKey l fun k => { k with uses := k.uses + n }) (.modKey _ _ _)
  dsimp only
  split
  · exact .ite h1.spend h1
  · exact h1

/-- Burning a copy leaves every copy burnt that was. -/
theorem burnCopy_burnt (v : Vector LcBit 20) (bit : Fin 20) (copy : Nat) (i : Fin 20) :
    (v[i].c0 = true → (burnCopy v bit copy)[i].c0 = true) ∧ (v[i].c1 = true → (burnCopy v bit copy)[i].c1 = true)
      ∧ (v[i].c2 = true → (burnCopy v bit copy)[i].c2 = true) := by
  unfold burnCopy
  by_cases hi : bit = i
  · subst hi
    simp only [Fin.getElem_fin, Vector.getElem_set_self]
    repeat' split
    all_goals simp_all
  · have hne : bit.val ≠ i.val := fun e => hi (Fin.ext e)
    simp [Vector.getElem_set_ne, hne]

theorem Vault.Lasts.burnCopy (v : Vault) (bit : Fin 20) (copy : Nat) : v.Lasts { v with lc := burnCopy v.lc bit copy } :=
  ⟨id, burnCopy_burnt _ _ _, le_rfl, fun _ _ => id⟩

theorem Kept.cutBurn (h : Kept s t) : Kept s t.cutBurn := by
  unfold State.cutBurn
  split
  · exact h
  · refine h.takeFree.modVlt ?_
    split
    · exact .burnCopy _ _ _
    · exact .of_eq (by rfl)

theorem Kept.coreReset (h : Kept s t) : Kept s t.coreReset := Vault.Lasts.trans h.cutBurn (.of_eq (by rfl))

theorem Kept.haltRt (h : Kept s t) : Kept s t.haltRt := h.modVlt (.of_eq (by rfl))

theorem Kept.vddvDip (h : Kept s t) : Kept s t.vddvDip := h.coreReset.haltRt.same (by rfl)

theorem Kept.commitRecord (h : Kept s t) {rtype count upd digest body cut apply} (hf : ∀ {t}, Kept s t → Kept s (apply t)) :
    Kept s (t.commitRecord rtype count upd digest body cut apply) := by
  have h1 := h.modVlt (f := fun v => v.prepare rtype count upd digest body) (.prepare _ _ _ _ _ _)
  have h2 := h1.modVlt (f := Vault.commit) (.commit _)
  cases cut with
  | beforeCommit => exact h1.vddvDip
  | afterCommit => exact h2.vddvDip
  | none => exact hf h2

theorem Kept.rhlVault (h : Kept s t) {w status sealed} : Kept s (t.rhlVault w status sealed) := h.rhlRec

/-! ## SAs -/

theorem Kept.modSa (h : Kept s t) {w sai f} : Kept s (t.modSa w sai f) := h.modWing

theorem Kept.countSa (h : Kept s t) {w sai c k} : Kept s (t.countSa w sai c k) := h.modSa

theorem Kept.askOwn (h : Kept s t) {w u cls} : Kept s (t.askOwn w u cls) := .ite h h.modWing

theorem Kept.dropSa (h : Kept s t) {w sai cls} : Kept s (t.dropSa w sai cls) := h.modSa.askOwn.askOwn

theorem Kept.evictSa (h : Kept s t) {w cls} : Kept s (t.evictSa w cls) := by
  unfold State.evictSa
  refine .ite h ?_
  split
  exacts [h.dropSa, h]

theorem Kept.cacheKey (h : Kept s t) {w j} : Kept s (t.cacheKey w j) := by
  unfold State.cacheKey
  refine .ite h (.ite h.modWing ?_)
  split
  · exact h.modWing.modWing.askOwn
  · split
    exacts [h.dropSa.modWing.modWing.askOwn, h.modWing.askOwn]

theorem Kept.freshKey (h : Kept s t) {w j} : Kept s (t.freshKey w j) := (h.eachWing fun h => h.modWing).cacheKey

theorem Kept.needKey (h : Kept s t) {w x} : Kept s (t.needKey w x) := by
  unfold State.needKey
  split
  exacts [.ite h (.ite h.askOwn h.cacheKey), h]

theorem Kept.needSa (h : Kept s t) {w sai} : Kept s (t.needSa w sai) := .ite h (.ite h h.askOwn)

theorem Kept.readSa (h : Kept s t) {w sai} : Kept s (t.readSa w sai) := by
  unfold State.readSa
  split
  exacts [.ite h.log.parityHit.modSa h, h]

theorem Vault.Lasts.clearLease (v : Vault) (n : Nat) : v.Lasts (v.clearLease n) := by
  refine .of_sram (v.clearLease_wf n) ?_
  unfold Vault.clearLease
  split <;> rfl

theorem Kept.zeroSaKey (h : Kept s t) {sai r} : Kept s (t.zeroSaKey sai r) := by
  unfold State.zeroSaKey
  refine .ite (h.modVlt ?_) h
  dsimp only
  split
  · exact (Vault.Lasts.dropKey _ _).trans (.clearLease _ _)
  · exact .dropKey _ _

theorem Kept.endSaClose (h : Kept s t) {w sai forced} : Kept s (t.endSaClose w sai forced) := by
  unfold State.endSaClose
  split
  exacts [h.modSa.log.zeroSaKey, h]

theorem Kept.startSaClose (h : Kept s t) {w sai} : Kept s (t.startSaClose w sai) := h.closeGrant.needSa.modSa

theorem Kept.switchSa (h : Kept s t) {w sai next} : Kept s (t.switchSa w sai next) :=
  ((h.modSa.foldl fun h => .ite h.modPort h).log).startSaClose

theorem Kept.exhaustSa (h : Kept s t) {w sai p} : Kept s (t.exhaustSa w sai p) := by
  unfold State.exhaustSa
  split
  exacts [have h1 := h.modSa; have h2 := .ite h1.readSa h1; .ite h2.switchSa (.ite h2 h2.log), h]

theorem Kept.saCause (h : Kept s t) {w} : Kept s (t.saCause w) := by
  unfold State.saCause
  split
  exacts [h.modChan, h]

theorem Kept.checkThresh (h : Kept s t) {w sai pn thresh} : Kept s (t.checkThresh w sai pn thresh) := by
  unfold State.checkThresh
  split
  exacts [.ite h.modSa.log.saCause h, h]

theorem Kept.installSa (h : Kept s t) {w sai r pn} : Kept s (t.installSa w sai r pn) := h.evictSa.fix.cacheKey.modWing

theorem Kept.modifySa (h : Kept s t) {w sai mask r pn} : Kept s (t.modifySa w sai mask r pn) := by
  unfold State.modifySa
  dsimp only
  split
  exacts [.ite h.needSa.modSa.switchSa h.needSa.modSa, h.needSa.modSa]

/-! ## Ports -/

theorem Kept.credit (h : Kept s t) {p} : Kept s (t.credit p) := .ite h.modPort h

theorem Kept.openPort (h : Kept s t) {p} : Kept s (t.openPort p) := h.modPort

theorem Kept.takeCells (h : Kept s t) {p line n} : Kept s (t.takeCells p line n) := h.modPort

theorem Kept.rhlFrame (h : Kept s t) {p c len status side bytes} : Kept s (t.rhlFrame p c len status side bytes) :=
  .ite (.rhlRec (.ite h h.rhlRec.modPort)) h

theorem Kept.ptpExport (h : Kept s t) {p inb arr egr resid b} : Kept s (t.ptpExport p inb arr egr resid b) := by
  unfold State.ptpExport
  dsimp only
  split
  exacts [.ite (.ite h.modWing h.countWing) h, h]

theorem Kept.deliver (h : Kept s t) {p sof bytes sai cls status} : Kept s (t.deliver p sof bytes sai cls status) :=
  h.modPort.rhlFrame

theorem Kept.toGrq (h : Kept s t) {w f} : Kept s (t.toGrq w f) := .ite h.modWing h.modWing

theorem Kept.unstage (h : Kept s t) {p id} : Kept s (t.unstage p id) := h.modPort.dropItem.credit

theorem Kept.countFrameSa (h : Kept s t) {p sai c} : Kept s (t.countFrameSa p sai c) := by
  unfold State.countFrameSa
  split
  exacts [h.countSa, h]

theorem Kept.discardOut (h : Kept s t) {p f c} : Kept s (t.discardOut p f c) := h.countFrameSa.unstage

theorem Kept.unInbound (h : Kept s t) {p id} : Kept s (t.unInbound p id) := h.modPort.dropItem.credit

theorem Kept.unpend (h : Kept s t) {p f} : Kept s (t.unpend p f) := by
  unfold State.unpend
  split
  exacts [h.modSa, h]

theorem Kept.deliverAborted (h : Kept s t) {p sof out sai cls} : Kept s (t.deliverAborted p sof out sai cls) :=
  h.takeFree.deliver.modPort

theorem Kept.abortIn (h : Kept s t) {p f} : Kept s (t.abortIn p f) :=
  have h1 := h.unpend
  .unInbound (.ite h1.takeFree.deliverAborted h1)

theorem Kept.zeroTailAt (h : Kept s t) {p k} : Kept s (t.zeroTailAt p k) := h.modPort

theorem Kept.zeroTail (h : Kept s t) {p} : Kept s (t.zeroTail p) := h.takeFree.zeroTailAt

/-! ## The box office -/

theorem Kept.modBox (h : Kept s t) {w f} : Kept s (t.modBox w f) := h.modWing

theorem Kept.boxParity (h : Kept s t) {w p ktype key} : Kept s (t.boxParity w p ktype key) :=
  h.foldl fun h => have h1 := h.countPort; .ite h1 h1.modBox.log.parityHit

theorem Kept.boxPut (h : Kept s t) {w slot e} : Kept s (t.boxPut w slot e) := .modBox (.ite h.fix.modBox.log h)

theorem Kept.boxClear (h : Kept s t) {w slot} : Kept s (t.boxClear w slot) := h.modBox

theorem Kept.boxMoves (h : Kept s t) {w l} : Kept s (t.boxMoves w l).1 := by
  fun_induction State.boxMoves t w l with
  | case1 => exact h
  | case2 => exact h
  | case3 t y x rest t' ih =>
    refine ih ?_
    dsimp only [t']
    split
    exacts [h.boxPut.boxClear, h]

theorem Kept.boxPlace (h : Kept s t) {w e} : Kept s (t.boxPlace w e).2 := by
  unfold State.boxPlace
  dsimp only
  split
  · exact h.boxPut.modBox
  · split
    · next path _ =>
      have h1 := h.boxMoves (w := w) (l := path)
      split
      · next e => exact (show Kept s _ by rw [e] at h1; exact h1.boxPut.modBox)
      · next e => rw [e] at h1; exact h1
    · split
      · exact h.boxPut.modBox
      · exact h

theorem Kept.stationConflict (h : Kept s t) {w p slot e arr} : Kept s (t.stationConflict w p slot e arr) :=
  have h1 := h.countPort
  .ite h1 h1.modBox.logWords

/-! ## Tries -/

theorem Kept.modTrie (h : Kept s t) {w f} : Kept s (t.modTrie w f) := h.modWing

/-! ## Admission -/

theorem Kept.portAct (h : Kept s t) {f act reason} : Kept s (t.portAct f act reason) := .ite h.toGrq h

theorem Kept.noSaAs (h : Kept s t) {f act} : Kept s (t.noSaAs f act) := h.countPort.portAct

theorem Kept.noSa (h : Kept s t) {f} : Kept s (t.noSa f) := h.noSaAs

theorem Kept.saKey (h : Kept s t) {w r} : Kept s (t.saKey w r).2 := by
  unfold State.saKey
  exact h.readKey

theorem Kept.prepareKs (h : Kept s t) {n w} : Kept s (State.prepareKs n w t) := by
  induction n generalizing t with
  | zero => exact h
  | succ n ih =>
    unfold State.prepareKs
    split
    · exact h
    · exact .ite h (ih h.modPort.admitItem)

theorem Kept.pumpKs (h : Kept s t) {w} : Kept s (t.pumpKs w) := h.prepareKs

theorem Kept.stageOut (h : Kept s t) {f sai cost} : Kept s (t.stageOut f sai cost) :=
  .pumpKs (.modWing (.modPort (.ite_snd h h.leadAdmit)))

theorem Kept.admitOut (h : Kept s t) {f sel} : Kept s (t.admitOut f sel) := by
  unfold State.admitOut
  refine .ite h.toGrq ?_
  split
  · exact h.stageOut
  · split
    exacts [h.countPort, .ite h.countPort h.modSa.stageOut]

theorem Kept.outUnder (h : Kept s t) {f sai} : Kept s (t.outUnder f sai) := by
  unfold State.outUnder
  extract_lets w t1 t2
  have h1 : Kept s t1 := h.readSa
  have h2 : Kept s t2 := by
    dsimp only [t2]
    split
    exacts [.ite h1.readSa h1, h1]
  split
  · exact h2.noSa
  · exact h2.countSa.portAct
  · exact .ite h2.saKey.noSa h2.saKey.admitOut

theorem Kept.trieParity (h : Kept s t) {f e stage node entry} : Kept s (t.trieParity f e stage node entry) :=
  h.countPort.log.parityHit.portAct

theorem Kept.policyOut (h : Kept s t) {f pol} : Kept s (t.policyOut f pol) := by
  unfold State.policyOut
  dsimp only
  split
  · refine .ite (.ite h.trieParity ?_) h.outUnder
    split
    exacts [h.noSa, h.outUnder]
  · exact h.admitOut
  · exact h.countPort
  · exact h.portAct

theorem Kept.selectFrame (h : Kept s t) {f} : Kept s (t.selectFrame f) := by
  unfold State.selectFrame
  refine .ite h.outUnder ?_
  split
  · exact h.countPort.portAct
  · split
    exacts [h.policyOut, h.countPort.portAct, h.trieParity]

theorem Kept.placeCurtain (h : Kept s t) {p curtain} : Kept s (t.placeCurtain p curtain) := .ite h.modPort h

theorem Kept.leaseOn (h : Kept s t) {w sai p} : Kept s (t.leaseOn w sai p) := by
  unfold State.leaseOn
  dsimp only
  split
  · refine .ite h ?_
    split
    · refine .ite (.modSa (.ite ?_ h)) (.ite ?_ h)
      · split
        exacts [h.modSa, .ite h.exhaustSa h]
      · split
        exacts [h.modSa, .ite h.exhaustSa h]
    · refine .ite ?_ h
      split
      exacts [h.modSa, .ite h.exhaustSa h]
  · exact h

theorem Kept.bindPn (h : Kept s t) {w sai octets thresh p} : Kept s (t.bindPn w sai octets thresh p) := by
  unfold State.bindPn
  split
  exacts [have h1 := h.modSa.countSa.countSa.checkThresh.useKey; .ite h1.exhaustSa h1.leaseOn, h]

theorem Kept.presentLs (h : Kept s t) {p f out sai pn} : Kept s (t.presentLs p f out sai pn) :=
  have h1 := h.modPort.rhlFrame.ptpExport
  .unstage (.ite h1.leadLate h1)

theorem Kept.releaseOut (h : Kept s t) {p f} : Kept s (t.releaseOut p f) := by
  unfold State.releaseOut
  dsimp only
  split
  · exact .ite h h.presentLs
  · split
    · exact h.countPort.unstage
    · refine .ite h.readSa.unstage (.ite h ?_)
      split
      · exact h.saKey.countPort.unstage
      · refine .ite h.saKey.spend.exhaustSa ?_
        split
        · exact h.saKey.countPort.unstage
        · exact .ite h.saKey.countPort.unstage (.ite h.saKey (.bindPn (.presentLs (.ite h.saKey h.saKey.countSa))))

theorem Kept.keepIn (h : Kept s t) {f place g} : Kept s (t.keepIn f place g).1 := h.modPort

theorem Kept.bypassIn (h : Kept s t) {f} : Kept s (t.bypassIn f) := h.takeFree.modPort.keepIn

theorem Kept.windowIn (h : Kept s t) {f place start act sai x} : Kept s (t.windowIn f place start act sai x) := by
  unfold State.windowIn
  refine .ite h.countSa ?_
  split
  · exact h.countPort
  · exact .ite h.countSa (.ite h.countSa h.modSa.leadAdmit.keepIn.modPort.admitItem)

theorem Kept.inUnder (h : Kept s t) {f sai} : Kept s (t.inUnder f sai) := by
  unfold State.inUnder
  dsimp only
  split
  · exact h.readSa.noSa
  · have key := fun r => (h.readSa (w := portWing f.port) (sai := sai)).saKey (w := portWing f.port) (r := r)
    split
    · exact (key _).noSa
    · exact .ite (key _).spend.startSaClose.noSa (.ite (key _).windowIn (key _).keepIn)

theorem Kept.boxHit (h : Kept s t) {f ktype an slot e} : Kept s (t.boxHit f ktype an slot e) :=
  .ite (.ite (have h1 := h.countPort; .toGrq (.ite h1 h1.modBox.log)) h.inUnder) (.ite h.countPort (.ite h.toGrq
    h.stationConflict.toGrq))

theorem Kept.takeIn (h : Kept s t) {f} : Kept s (t.takeIn f) := by
  unfold State.takeIn
  dsimp only
  split
  · exact h.countPort
  · exact h.countPort
  · exact
      have h1 := h.countPort
      .ite h1.bypassIn h1.portAct
  · split
    exacts [h.boxParity.boxHit, .ite h.boxParity.modBox h.boxParity.toGrq]

theorem Kept.boxLearn (h : Kept s t) {w kt key c f} : Kept s (t.boxLearn w kt key c f) := by
  unfold State.boxLearn
  dsimp only
  split
  · exact .ite h.stationConflict.toGrq h.toGrq
  · refine .ite h.toGrq ?_
    split
    exacts [.toGrq (.ite ((h.boxPlace.of_snd ‹_›).log) (h.boxPlace.of_snd ‹_›)), ((h.boxPlace.of_snd ‹_›).countPort).toGrq]

theorem Kept.boxInstall (h : Kept s t) {w e} : Kept s (t.boxInstall w e).2 := by
  unfold State.boxInstall
  split
  exacts [h.boxPut, h.boxPlace]

theorem Kept.useIn (h : Kept s t) {w sai r} : Kept s (t.useIn w sai r) :=
  have h1 := h.useKey
  .ite h1.startSaClose h1

theorem Kept.overlapOn (h : Kept s t) {w sai} : Kept s (t.overlapOn w sai) := h.modWing

theorem Kept.verified (h : Kept s t) {w sai pn thresh} : Kept s (t.verified w sai pn thresh) := h.modSa.checkThresh.overlapOn

theorem Kept.timeIn (h : Kept s t) {p f} : Kept s (t.timeIn p f) := .ite h.leadLate h

theorem Kept.beginIn (h : Kept s t) {p f} : Kept s (t.beginIn p f) := h.modPort.timeIn

theorem Kept.beginPort (h : Kept s t) {p} : Kept s (t.beginPort p) := by
  unfold State.beginPort
  split
  exacts [h.beginIn, h]

theorem Kept.deliverIn (h : Kept s t) {p f bytes status} : Kept s (t.deliverIn p f bytes status) :=
  have h1 := h.deliver.ptpExport
  .unInbound (.ite h1 h1.timeIn)

theorem Kept.readmit (h : Kept s t) {p} : Kept s (t.readmit p) := by
  unfold State.readmit
  split
  exacts [h, .ite (have h1 := h.modPort; .ite h1.takeIn h1.selectFrame) h]

theorem Kept.checkIn (h : Kept s t) {p f} : Kept s (t.checkIn p f) := by
  unfold State.checkIn
  dsimp only
  split
  · exact .ite h.deliverIn h
  · split
    · exact h.unInbound
    · split
      · exact h.saKey.unpend.countPort.unInbound
      · split
        · exact .ite h.saKey.unpend.countSa.useIn.unInbound (.ite h.saKey.unpend.countSa.useIn.deliverIn h.saKey)
        · exact h.saKey.verified.countSa.useIn.unInbound
        · exact h.saKey.verified.countSa.useIn.unInbound
        · exact .ite h.saKey.verified.countSa.countSa.useIn.deliverIn h.saKey

/-! ## Prompt -/

theorem Kept.modPrm (h : Kept s t) {w f} : Kept s (t.modPrm w f) := h.modWing

theorem Kept.asymFire (h : Kept s t) {c} : Kept s (t.asymFire c) := h.foldl fun h => h.modPort

theorem Kept.fireCue (h : Kept s t) {c} : Kept s (t.fireCue c) := h.modCue.asymFire

theorem Kept.stepCue (h : Kept s t) {w old c} : Kept s (t.stepCue w old c) := by
  unfold State.stepCue
  refine .ite ?_ (.ite h.modCue.modWing h)
  split
  exacts [.ite (have h1 := h.log; .ite h1.fireCue h1) h, h]

theorem Kept.copyRt (h : Kept s t) : Kept s t.copyRt := h.modVlt (.of_eq (by rfl))

theorem Kept.dropOldEpoch (h : Kept s t) {w} : Kept s (t.dropOldEpoch w) := h.foldl fun h => h.foldl fun h => h.discardOut

theorem Kept.stepPrompt (h : Kept s t) {w t'} : Kept s (t.stepPrompt w t') :=
  h.modPrm.copyRt.log.dropOldEpoch.foldl fun h => h.stepCue

theorem Kept.setOffset (h : Kept s t) {w ns frac} : Kept s (t.setOffset w ns frac) :=
  .ite h (.modPrm (.stepPrompt (.ite h.takeFree h)))

theorem Kept.setCue (h : Kept s t) {c t'} : Kept s (t.setCue c t') := .ite h.modCue h

/-! ## The Usher -/

theorem Kept.logUsher (h : Kept s t) {w kind ix e bank} : Kept s (t.logUsher w kind ix e bank) :=
  .ite h h.modWing.log.countWing.parityHit

theorem Kept.mgParity (h : Kept s t) {w mid} : Kept s (t.mgParity w mid) := .ite h.logUsher h

theorem Kept.usherParity (h : Kept s t) {w mid addrs} : Kept s (t.usherParity w mid addrs) := by
  unfold State.usherParity
  refine .ite h (h.foldl fun h => ?_)
  split
  exacts [.ite h.logUsher h, .ite h.logUsher h, h]

theorem Kept.regionParity (h : Kept s t) {w addrs} : Kept s (t.regionParity w addrs) :=
  h.foldl fun h => .ite h.logEntry.parityHit h

theorem Kept.ushRefuse (h : Kept s t) {w q mid op world kix addr refused d} : Kept s (t.ushRefuse w q mid op world kix addr
    refused d) := by
  unfold State.ushRefuse
  split
  exacts [h, have h1 := h.countWing.raiseAlarm; .ite h1.modWing.logWords h1.modWing.countWing]

theorem Kept.usherSwitch (h : Kept s t) {w} : Kept s (t.usherSwitch w) := ((h.same (by rfl)).modWing).countWing

theorem Kept.mgCompare (h : Kept s t) {w} : Kept s (t.mgCompare w) := by
  unfold State.mgCompare
  dsimp only
  refine .ite h ?_
  split
  · refine .log (h.eachWing fun h => h.foldl fun h => ?_)
    split
    exacts [.ite h.logUsher h, h]
  · refine h.eachWing fun h => h.foldl fun h => ?_
    split
    exacts [.ite h.logUsher h, h]

/-! ## Curtains -/

theorem Kept.modRhl (h : Kept s t) {w f} : Kept s (t.modRhl w f) := h.modWing

theorem Kept.startRhl (h : Kept s t) {w c} : Kept s (t.startRhl w c) := by
  unfold State.startRhl
  dsimp only
  exact h.draw.modRhl

theorem Kept.stopRhl (h : Kept s t) {w} : Kept s (t.stopRhl w) := h.modRhl

theorem Kept.targetRhl (h : Kept s t) {w did pub} : Kept s (t.targetRhl w did pub) := by
  unfold State.targetRhl
  dsimp only
  split
  · split <;> exact h.modRhl
  · exact h.modRhl

theorem Kept.putEff (h : Kept s t) {w x} : Kept s (t.putEff w x) := by
  unfold State.putEff
  split
  · exact h.modPort
  · exact h.modPort
  · exact h.modPort
  · exact h.modMp
  · exact h.modWing
  · exact h.installSa
  · exact h.modSa
  · exact h.modWing
  · exact h.modWing
  · exact h.modWing
  · exact h.modWing
  · exact h.modPrm
  · exact h.modPrm
  · exact h.modCue
  · exact h.modWing
  · exact h
  · exact h
  · exact h

theorem Kept.replaceSa (h : Kept s t) {w sai r pn} : Kept s (t.replaceSa w sai r pn) := by
  unfold State.replaceSa
  split
  exacts [h.installSa.modSa, h.installSa]

theorem Kept.applyEff (h : Kept s t) {w x} : Kept s (t.applyEff w x) := by
  unfold State.applyEff
  split
  · exact h.replaceSa
  · exact h.modifySa
  · exact h.modWing.reassign
  · exact h.setOffset
  · exact h.setCue
  · exact h.stopRhl
  · exact .ite h.startRhl h
  · exact .ite h h.targetRhl
  · exact h.putEff
  · exact h.putEff
  · exact h.putEff
  · exact h.putEff
  · exact h.putEff
  · exact h.putEff
  · exact h.putEff
  · exact h.putEff
  · exact h.putEff
  · exact h.putEff

theorem Kept.view (h : Kept s t) {ch} : Kept s (t.view ch) := h.foldl fun h => h.putEff

theorem Kept.stage (h : Kept s t) {ch ws e} : Kept s (t.stage ch ws e) := h.modChan

theorem Kept.curtain (h : Kept s t) {ch} : Kept s (t.curtain ch) := h.modChan.foldl fun h => h.applyEff

theorem Kept.modHead (h : Kept s t) {ch f} : Kept s (t.modHead ch f) := h.modChan

theorem Kept.settleMap (h : Kept s t) {ch} : Kept s (t.settleMap ch) := by
  unfold State.settleMap
  dsimp only
  split
  exacts [.ite h.modChan h, h]

theorem Kept.rawReply (h : Kept s t) {ch st payload} : Kept s (t.rawReply ch st payload) := h.modHead.settleMap

theorem Kept.rawFinish (h : Kept s t) {ch st payload} : Kept s (t.rawFinish ch st payload) := by
  unfold State.rawFinish
  refine .rawReply ?_
  split
  exacts [.ite h.curtain h, h]

theorem Kept.rawAnswer (h : Kept s t) {f st} : Kept s (t.rawAnswer f st) := h.foldl fun h => .ite h.rawFinish h

theorem Kept.giveWing (h : Kept s t) {w c} : Kept s (t.giveWing w c) := (h.modWing.same (by rfl)).modCore

theorem Kept.refuseAll (h : Kept s t) {w} : Kept s (t.refuseAll w) := (h.same (by rfl)).foldl fun h => h.settleMap

theorem Kept.orphan (h : Kept s t) {w} : Kept s (t.orphan w) := h.modWing.refuseAll

theorem Kept.rehome (h : Kept s t) : Kept s t.rehome :=
  h.eachWing fun h => .ite (.ite h (.ite h.giveWing (.ite h.giveWing h.orphan))) (.ite h (.ite h.giveWing h.orphan))

theorem Kept.joinNow (h : Kept s t) : Kept s t.joinNow := by
  unfold State.joinNow
  extract_lets old t1 t2 t3 t4 t5 t6
  have h3 : Kept s t3 := .foldl (.eachWing (.eachWing h fun k => k.modWing) fun k => k.log) fun k => k.curtain
  clear_value t3
  have h4 : Kept s t4 := h3
  clear_value t4
  exact (h4.rehome.reassign.eachWing fun k => k.mgCompare).rawAnswer

theorem Kept.beginHand (h : Kept s t) {h'} : Kept s (t.beginHand h') := h.same (by rfl)

theorem Kept.moveChan (h : Kept s t) {h' n forced} : Kept s (t.moveChan h' n forced) := h.modChan.log

theorem Kept.adoptImage (h : Kept s t) : Kept s t.adoptImage := h.same (by rfl)

theorem Kept.disarm (h : Kept s t) {c} : Kept s (t.disarm c) := h.modCore

theorem Kept.updateMoved (h : Kept s t) : Kept s t.updateMoved := by
  unfold State.updateMoved
  split
  exacts [((h.same (by rfl)).modCore).disarm, ((h.same (by rfl)).modCore).disarm, h.logBoth.adoptImage, h]

theorem Kept.endHand (h : Kept s t) {h'} : Kept s (t.endHand h') := by
  unfold State.endHand
  exact
    have h1 := (h.eachWing fun h => h.giveWing).logBoth
    .updateMoved (.rawAnswer (.reassign (.same (.ite h1 h1.modCore) (by rfl))))

theorem Kept.settleHand (h : Kept s t) : Kept s t.settleHand := by
  unfold State.settleHand
  dsimp only
  split
  exacts [h, have h1 := h.foldl fun h => .ite h.moveChan h; .ite h1.endHand h1]

theorem Kept.dropHand (h : Kept s t) {st} : Kept s (t.dropHand st) := (h.same (by rfl)).rawAnswer

theorem Kept.settle (h : Kept s t) {ch} : Kept s (t.settle ch) :=
  have h1 := h.settleMap
  .settleHand (.ite h1.joinNow h1)

theorem Kept.reply (h : Kept s t) {ch st payload} : Kept s (t.reply ch st payload) := h.rawReply.settle

theorem Kept.finish (h : Kept s t) {ch st payload} : Kept s (t.finish ch st payload) := h.rawFinish.settle

theorem Kept.answerWaiters (h : Kept s t) {w st payload} : Kept s (t.answerWaiters w st payload) :=
  h.foldl fun h => .ite h.finish h

/-! ## Metadata -/

theorem Kept.mpGrant (h : Kept s t) {m joins} : Kept s (t.mpGrant m joins) := .ite h h.rhlGrant

theorem Kept.mpIssue (h : Kept s t) {m use addr write data sb cls} : Kept s (t.mpIssue m use addr write data sb cls) :=
  h.mpGrant.modMp

theorem Kept.modMpe (h : Kept s t) {w f} : Kept s (t.modMpe w f) := h.modWing

theorem Kept.lineParity (h : Kept s t) {w addr} : Kept s (t.lineParity w addr) := .ite h.modMpe.logEntry.parityHit.fix h

theorem Kept.readTree (h : Kept s t) {r} : Kept s (t.readTree r).2 := by
  unfold State.readTree
  dsimp only
  split
  · split
    exacts [.ite_snd h.readKey (.ite_snd h.readKey.spend h.readKey), h.readKey]
  · exact h
  · exact h

theorem Kept.putTag (h : Kept s t) {w tagAddr tag} : Kept s (t.putTag w tagAddr tag) := h.modMpe

theorem Kept.askLost (h : Kept s t) {w addr} : Kept s (t.askLost w addr) := h.modMpe

theorem Kept.askTag (h : Kept s t) {r tagAddr cls} : Kept s (t.askTag r tagAddr cls) :=
  have h1 := h.lineParity
  .ite h1 (.ite h1.askLost (.ite h1 h1.modMpe.mpIssue.countRegion))

theorem Kept.askMeta (h : Kept s t) {r i cls} : Kept s (t.askMeta r i cls) :=
  have h1 := h.lineParity
  have h2 := .ite h1 (.ite h1.askLost (.ite h1 h1.modMpe.mpIssue.countRegion))
  .ite h2 h2.askTag

theorem Kept.askChain (h : Kept s t) {r i cls} : Kept s (t.askChain r i cls) := by
  unfold State.askChain
  refine List.foldlRecOn (motive := fun a : State × Bool => Kept s a.1) _ _ h fun a ha j _ => ?_
  split
  · exact ha
  · split
    exacts [ha, ha.askMeta]

theorem Kept.askParent (h : Kept s t) {r i cls} : Kept s (t.askParent r i cls) := by
  unfold State.askParent
  split
  exacts [h.askChain, h]

theorem Kept.wbFailed (h : Kept s t) {r addr} : Kept s (t.wbFailed r addr) := h.modRegion.foldl fun h => h.modRqp

theorem Kept.writeBack (h : Kept s t) {c cls} : Kept s (t.writeBack c cls) := by
  unfold State.writeBack
  refine .ite (.wbFailed (.lineParity (.ite_snd h.readTree h))) (.ite (.wbFailed (.modMpe (.ite_snd h.readTree h))) (.ite
    (.ite_snd h.readTree h) ?_))
  split
  · exact .mpIssue (.modMpe (.ite_snd h.readTree h))
  · split
    · exact .askParent (.ite_snd h.readTree h)
    · refine .ite (.askTag (.ite_snd h.readTree h)) (.mpIssue (.modMpe (.ite ?_ (.putTag ?_))))
      · split
        exacts [.modRegion (.ite_snd h.readTree h), .modMpe (.ite_snd h.readTree h)]
      · split
        exacts [.modRegion (.ite_snd h.readTree h), .modMpe (.ite_snd h.readTree h)]

theorem Kept.flushRegion (h : Kept s t) {r cls} : Kept s (t.flushRegion r cls) := h.foldl fun h => h.writeBack

theorem Kept.evictFrom (h : Kept s t) {w l} : Kept s (State.evictFrom w l t) := by
  induction l generalizing t with
  | nil => exact h
  | cons c l ih =>
    unfold State.evictFrom
    exact .ite (.ite (ih (.ite h.writeBack h)) (.modMpe (.ite h.writeBack h))) (ih h)

theorem Kept.evictMeta (h : Kept s t) {w} : Kept s (t.evictMeta w) := .ite h h.evictFrom

theorem Kept.cachePut (h : Kept s t) {w r addr data dirty} : Kept s (t.cachePut w r addr data dirty) := h.evictMeta.fix.modMpe

theorem Kept.purgeMeta (h : Kept s t) {r} : Kept s (t.purgeMeta r) := h.modMpe

theorem Kept.cacheTake (h : Kept s t) {w r a} : Kept s (t.cacheTake w r a) :=
  have h1 := .ite h h.evictMeta
  .ite h1.modMpe.cachePut h1

/-! ## Memory protection -/

theorem Kept.modAcc (h : Kept s t) {q seq f} : Kept s (t.modAcc q seq f) := h.modRqp

theorem Kept.modLine (h : Kept s t) {q seq i f} : Kept s (t.modLine q seq i f) := h.modAcc

theorem Kept.logAddr (h : Kept s t) {r e addr mid q b} : Kept s (t.logAddr r e addr mid q b) := h.log

theorem Kept.endLine (h : Kept s t) {q seq i f} : Kept s (t.endLine q seq i f) := h.modLine.dropItem

theorem Kept.endFailed (h : Kept s t) {q seq i status} : Kept s (t.endFailed q seq i status) := by
  unfold State.endFailed
  split
  · split
    exacts [.ite (have h1 := h.endLine; .ite h1 h1.modRqp) (have h2 := h.endLine; .ite h2.modRqp h2), h]
  · exact h

theorem Kept.setCtr (h : Kept s t) {r addr x} : Kept s (t.setCtr r addr x) := h.modMpe

theorem Kept.poisonAs (h : Kept s t) {r addr mid q kix alarm} : Kept s (t.poisonAs r addr mid q kix alarm) := by
  unfold State.poisonAs
  dsimp only
  split
  · exact .setCtr (.ite h.countRegion.logAddr.raiseAlarm h.countRegion.logAddr)
  · exact .modMpe (.ite h.countRegion.logAddr.raiseAlarm h.countRegion.logAddr)

theorem Kept.modReenc (h : Kept s t) {w page f} : Kept s (t.modReenc w page f) := h.modMpe

theorem Kept.endBuffered (h : Kept s t) {addr status} : Kept s (t.endBuffered addr status) :=
  h.foldl fun h => h.foldl fun h => h.foldl fun h => .ite (.ite h.endLine h.endFailed) h

theorem Kept.trigEnds (h : Kept s t) {q a l status} : Kept s (t.trigEnds q a l status) := by
  unfold State.trigEnds
  split
  exacts [.ite h.poisonAs.endBuffered h, h]

theorem Kept.failLine (h : Kept s t) {q seq i status} : Kept s (t.failLine q seq i status) := by
  unfold State.failLine
  split
  · split
    exacts [h.trigEnds.endFailed, h]
  · exact h

theorem Kept.failWaiting (h : Kept s t) {r addr status} : Kept s (t.failWaiting r addr status) := by
  unfold State.failWaiting
  refine h.foldl fun h => h.foldl fun h => .ite (h.foldl fun h => ?_) h
  split
  exacts [.ite h.failLine h, h]

theorem Kept.slotKey (h : Kept s t) {w k} : Kept s (t.slotKey w k).2 := by
  unfold State.slotKey
  split
  exacts [.ite_snd h h.readKey, h]

theorem Kept.keyDenies (h : Kept s t) {w group world slots} : Kept s (t.keyDenies w group world slots).2 := by
  unfold State.keyDenies
  refine List.foldlRecOn (motive := fun a : Option (Nat × Nat) × State => Kept s a.2) _ _ h fun a ha k _ => ?_
  dsimp only
  split
  · exact ha
  · split
    · exact ha
    · split
      · exact ha.slotKey
      · exact .ite_snd ha.slotKey (.ite_snd (.ite ha.slotKey.spend ha.slotKey) (.ite_snd ha.slotKey.spend ha.slotKey))

theorem Kept.lineKey (h : Kept s t) {r slot} : Kept s (t.lineKey r slot).2 := by
  unfold State.lineKey
  dsimp only
  split
  · split
    exacts [h.readKey, h]
  · exact h
  · exact h

theorem Kept.useSlot (h : Kept s t) {w k} : Kept s (t.useSlot w k) := by
  unfold State.useSlot
  split
  exacts [h.useKey, h]

theorem Kept.poison (h : Kept s t) {r addr mid q kix} : Kept s (t.poison r addr mid q kix) := h.poisonAs

theorem Kept.pumpPoison (h : Kept s t) {w} : Kept s (t.pumpPoison w) := by
  unfold State.pumpPoison
  dsimp only
  refine h.foldl fun h => ?_
  split
  exacts [h.setCtr.modMpe, h.askChain]

theorem Kept.issueRead (h : Kept s t) {q a i l r} : Kept s (t.issueRead q a i l r) := .ite h.failLine (.ite h h.mpIssue.modLine)

theorem Kept.bufferTakes (h : Kept s t) {w addr plain} : Kept s (t.bufferTakes w addr plain) := h.modReenc

theorem Kept.issueWrite (h : Kept s t) {q a i l r plain} : Kept s (t.issueWrite q a i l r plain) := by
  unfold State.issueWrite
  dsimp only
  refine .ite h.failLine (.ite h (.ite h.mpIssue.modLine ?_))
  split
  · exact h.askChain
  · refine .ite h.askTag (.ite h ?_)
    split
    · exact h.lineKey.failLine
    · exact
        have h1 := h.lineKey.setCtr
        have h2 := .mpIssue (.useSlot (.ite h1.putTag h1))
        .modLine (.ite h2.bufferTakes h2)

theorem Kept.startReenc (h : Kept s t) {q a l r plain whole c} : Kept s (t.startReenc q a l r plain whole c) :=
  .modMpe (.modLine (.ite h.countWing h))

theorem Kept.toBuffer (h : Kept s t) {q a i w addr plain whole} : Kept s (t.toBuffer q a i w addr plain whole) :=
  h.bufferTakes.modLine.dropItem

theorem Kept.issueTrig (h : Kept s t) {q a i l r e c plain whole} : Kept s (t.issueTrig q a i l r e c plain whole) := by
  unfold State.issueTrig
  refine .ite h.endFailed.endBuffered ?_
  split <;> exact h.issueWrite

theorem Kept.tryWrite (h : Kept s t) {q a i l r plain whole} : Kept s (t.tryWrite q a i l r plain whole) := by
  unfold State.tryWrite
  dsimp only
  refine .ite h.issueWrite ?_
  split
  · exact h.askChain
  · split
    · exact .ite h.issueTrig h
    · refine .ite h.failLine ?_
      split
      exacts [.ite h.failLine (.ite h.startReenc h.issueWrite), .ite h (.ite h.failLine (.ite h.toBuffer (.ite h h.issueWrite)))]

theorem Kept.releaseLine (h : Kept s t) {q a i plain verified} : Kept s (t.releaseLine q a i plain verified) := h.modLine

theorem Kept.timeLine (h : Kept s t) {q a l} : Kept s (t.timeLine q a l) := .ite h.leadLate h

theorem Kept.captureLine (h : Kept s t) {q seq i} : Kept s (t.captureLine q seq i) := by
  unfold State.captureLine
  dsimp only
  split
  · exact h
  · split
    · refine .ite h ?_
      split
      · refine .modLine ?_
        split
        exacts [h.modLine, h]
      · refine .ite (.modLine ?_) ?_
        · split
          exacts [h.modLine, h]
        · split
          exacts [h.modLine, h]
      · split
        exacts [h.modLine, h]
    · exact h

theorem Kept.tagFailed (h : Kept s t) {q a i l r} : Kept s (t.tagFailed q a i l r) :=
  .ite h.poison.failLine h.countRegion.logAddr.raiseAlarm.modLine.failLine

theorem Kept.verifiedLine (h : Kept s t) {q a i l plain} : Kept s (t.verifiedLine q a i l plain) :=
  .ite h.endLine h.releaseLine.endLine

theorem Kept.judgeLine (h : Kept s t) {q a i l r ok pass} (hf : ∀ {t}, Kept s t → Kept s (pass t)) : Kept s (t.judgeLine q a i l
    r ok pass) :=
  .ite (hf h) (.ite h.modLine h.tagFailed)

theorem Kept.verifyLine (h : Kept s t) {q a i l r} : Kept s (t.verifyLine q a i l r) := by
  unfold State.verifyLine
  dsimp only
  refine .ite h ?_
  split
  exacts [h.lineKey.failLine, .judgeLine (.ite h.lineKey h.lineKey.useSlot) fun h => h.verifiedLine]

theorem Kept.merge (h : Kept s t) {q a i x} : Kept s (t.merge q a i x) := h.modLine

theorem Kept.mergePartial (h : Kept s t) {q a i l r} : Kept s (t.mergePartial q a i l r) := by
  unfold State.mergePartial
  dsimp only
  refine .ite h.merge (.ite h ?_)
  split
  exacts [h.lineKey.failLine, h.lineKey.useSlot.judgeLine fun h => h.merge]

theorem Kept.repairLine (h : Kept s t) {q a i l r} : Kept s (t.repairLine q a i l r) := by
  have key : ∀ {k t'}, t.lineKey r l.slot = (k, t') → Kept s t' := fun e => Kept.of_snd h.lineKey e
  fun_cases State.repairLine t q a i l r
  case case1 e => exact (key e).failLine
  case case2 e => exact (key e).askChain
  case case3 e => exact key e
  case case4 e => exact Kept.modLine (.ite (key e).logAddr.countRegion.mpIssue (key e).logAddr.countRegion)
  case case5 e => exact Kept.failLine (.ite (key e).logAddr.countRegion.mpIssue (key e).logAddr.countRegion)
  case case6 e => exact Kept.verifiedLine (.ite (key e).logAddr.countRegion.mpIssue (key e).logAddr.countRegion)
  case case7 e _ => exact (key e).logAddr.tagFailed

theorem Kept.atHand (h : Kept s t) {q a i x} : Kept s (t.atHand q a i x) := .ite h.releaseLine.endLine h.modLine

theorem Kept.startLine (h : Kept s t) {q a i l r} : Kept s (t.startLine q a i l r) := by
  unfold State.startLine
  refine .ite h.tryWrite (.ite h.issueRead ?_)
  split
  · exact h.atHand
  · split
    exacts [.ite h.failLine (.ite h.atHand (.issueRead (.ite h.askTag h))), .issueRead (.ite h.askChain.askTag h.askChain)]

theorem Kept.dataLine (h : Kept s t) {q a i l r lost} : Kept s (t.dataLine q a i l r lost) := by
  unfold State.dataLine
  dsimp only
  refine .ite h.atHand (.ite h.failLine (.ite (have h1 := h.askChain; .ite h1.askTag h1) (.ite (.ite ?_ (have h2 :=
    h.askChain; .ite h2.askTag h2)) (.ite (.ite h.endLine h.failLine) (.ite (.ite h.endLine h.atHand) (.ite h.endLine (.ite
    (.ite (.endLine ?_) ?_) (.ite ?_ (.ite h (have h3 := h.askChain; .ite h3.askTag h3))))))))))
  · split
    · exact .failLine (.lineKey (have h2 := h.askChain; .ite h2.askTag h2))
    · exact .releaseLine (.useSlot (.lineKey (have h2 := h.askChain; .ite h2.askTag h2)))
  · split
    exacts [h.lineKey.failLine, h.lineKey.useSlot.releaseLine]
  · split
    exacts [h.lineKey.failLine, h.lineKey.useSlot.releaseLine]
  · split
    · exact .failLine (.lineKey (.ite h (have h3 := h.askChain; .ite h3.askTag h3)))
    · exact .releaseLine (.useSlot (.lineKey (.ite h (have h3 := h.askChain; .ite h3.askTag h3))))

theorem Kept.ownLine (h : Kept s t) {q seq i} : Kept s (t.ownLine q seq i) := by
  unfold State.ownLine
  split
  · split
    exacts [.ite h (.ite h.repairLine (.ite h.mergePartial (.ite h.verifyLine h))), h]
  · exact h

theorem Kept.pumpLine (h : Kept s t) {q seq i} : Kept s (t.pumpLine q seq i) := by
  unfold State.pumpLine
  split
  · exact h
  · split
    · dsimp only
      split
      · exact .ite h (.ite (.failLine (.ite h.countRegion.modLine h)) (.startLine (.ite h.countRegion.modLine h)))
      · exact h.dataLine
      · exact .ite h (.ite h.failLine h.tryWrite)
      · exact h
    · exact h

theorem Kept.pushBeats (h : Kept s t) {q bs} : Kept s (t.pushBeats q bs) :=
  have h1 := h.modRqp
  .ite (h1.foldl fun h => h.rhlRec) h1

theorem Kept.finishOwn (h : Kept s t) {q a u} : Kept s (t.finishOwn q a u) := .ite h.modRqp.modWing h

theorem Kept.finishAcc (h : Kept s t) {q seq} : Kept s (t.finishAcc q seq) := by
  unfold State.finishAcc
  dsimp only
  split
  · exact h
  · split
    · exact h.finishOwn
    · refine .ite (.ite h.modRqp h) ?_
      split
      · exact .ite h h.modRqp.pushBeats
      · refine .ite ?_ (.ite (have h1 := .modAcc (.pushBeats (.ite (h.foldl fun h => h.timeLine) h)); .ite h1.modRqp h1) h)
        split
        exacts [h.modRqp.pushBeats, h]

theorem Kept.curtainGate (h : Kept s t) {q seq} : Kept s (t.curtainGate q seq) := h.modAcc

theorem Kept.askRoot (h : Kept s t) {r} : Kept s (t.askRoot r) := .ite h (h.modRegion.modVlt (.of_eq (by rfl)))

theorem Kept.persistRegion (h : Kept s t) {r cls} : Kept s (t.persistRegion r cls) :=
  have h1 := h.flushRegion
  .ite h1.askRoot h1

theorem Kept.flushLine (h : Kept s t) {l e cls} : Kept s (t.flushLine l e cls).2 := by
  unfold State.flushLine
  refine .ite_snd h (.ite_snd h (.ite_snd h ?_))
  split
  exacts [.ite_snd h.writeBack h, h]

theorem Kept.pumpPersist (h : Kept s t) {q a} : Kept s (t.pumpPersist q a) := by
  unfold State.pumpPersist
  refine .ite h ?_
  extract_lets l
  generalize hx : List.foldl _ _ l = x
  have h1 : Kept s x.2 := by
    rw [← hx]
    exact List.foldlRecOn (motive := fun a : List (Nat × Nat × Bool) × State => Kept s a.2) _ _ h fun _ ha _ _ => ha.flushLine
  exact .ite (.foldl h1.modAcc fun k => .ite k k.askRoot.modAcc) h1.modAcc

theorem Kept.pumpFlush (h : Kept s t) : Kept s t.pumpFlush :=
  (h.foldl fun h => h.foldl fun h => h.pumpPersist).foldl fun h => .ite h.flushRegion (.ite (.ite h.flushRegion h.persistRegion)
    h)

theorem Kept.pumpInit (h : Kept s t) {r} : Kept s (t.pumpInit r) := .ite h (.ite h.mpIssue h)

theorem Kept.pumpPin (h : Kept s t) {r} : Kept s (t.pumpPin r) := by
  unfold State.pumpPin
  dsimp only
  split
  exacts [.ite h h.modRegion, h]

theorem Kept.pumpFill (h : Kept s t) {r} : Kept s (t.pumpFill r) := by
  unfold State.pumpFill
  dsimp only
  split
  exacts [.ite h (.ite h.modRegion (.ite (.ite h h.modMpe.modRegion) h.askChain)), h]

theorem Kept.treeFail (h : Kept s t) {r i} : Kept s (t.treeFail r i) := h.modMpe.log.countRegion.raiseAlarm.modRegion.failWaiting

theorem Kept.treeDenied (h : Kept s t) {r} : Kept s (t.treeDenied r) := h.modMpe.foldl fun h => h.failWaiting

theorem Kept.metaLost (h : Kept s t) {w addr} : Kept s (t.metaLost w addr) := by
  unfold State.metaLost
  split
  exacts [h, h.modRegion.modMpe.failWaiting]

theorem Kept.pumpLost (h : Kept s t) {w} : Kept s (t.pumpLost w) := h.modMpe.foldl fun h => h.metaLost

theorem Kept.verifyOne (h : Kept s t) {w a} : Kept s (t.verifyOne w a) := by
  unfold State.verifyOne
  dsimp only
  split
  · exact h.modMpe
  · split
    · exact h.cacheTake
    · split
      · split
        exacts [.ite h.readTree.cacheTake h.readTree.treeFail, h.readTree.treeDenied]
      · exact h.askParent
      · exact h.askTag

theorem Kept.verifyMeta (h : Kept s t) {n w} : Kept s (State.verifyMeta n w t) := by
  induction n generalizing t with
  | zero => exact h
  | succ n ih =>
    unfold State.verifyMeta
    exact .ite (h.foldl fun k => k.verifyOne) (ih (h.foldl fun k => k.verifyOne))

theorem Kept.pageKey (h : Kept s t) {e} : Kept s (t.pageKey e).2 := h.lineKey

theorem Kept.admitPage (h : Kept s t) {w e j} : Kept s (t.admitPage w e j) := h.admitItem

theorem Kept.reencCheck (h : Kept s t) {w e j cipher sb} : Kept s (t.reencCheck w e j cipher sb) := by
  unfold State.reencCheck
  generalize repairs = rep, lineCipher = cph
  extract_lets r d addr t1 put
  split
  · have h1 : Kept s (t1.pageKey e).2 := .pageKey (.dropItem h.modReenc)
    generalize t1.pageKey e = x at h1 ⊢
    obtain ⟨key, t2⟩ := x
    cases key with
    | none => exact h1.modReenc
    | some key =>
      dsimp -zeta only at h1 ⊢
      extract_lets major minor kix t3 dec
      have h3 : Kept s t3 := h1.useSlot
      refine .ite h3.modReenc (.ite ?_ h3.modReenc)
      split
      · exact h3.logAddr.countRegion.modReenc
      · exact h3.logAddr.modReenc
  · exact h.askTag
  · exact h

theorem Kept.reencReads (h : Kept s t) {w e} : Kept s (t.reencReads w e) :=
  .ite h.askChain (h.foldl fun h => .ite h.askTag (.ite h.modReenc (.ite h.mpIssue.admitPage.modReenc h)))

theorem Kept.reencTurn (h : Kept s t) {w e c} : Kept s (t.reencTurn w e c) :=
  ((h.setCtr.modReenc.foldl fun h => h.logAddr).foldl fun h => .ite h.countRegion.logAddr.raiseAlarm h).foldl fun h => h.admitPage

theorem Kept.reencWrites (h : Kept s t) {w e} : Kept s (t.reencWrites w e) := by
  unfold State.reencWrites
  dsimp only
  refine h.foldl fun h => ?_
  split
  · refine .ite h.askTag (.ite ?_ h)
    split
    · exact h.pageKey.modReenc.dropItem.poisonAs.endBuffered
    · exact .mpIssue (.useSlot (.ite h.pageKey.modReenc.dropItem.putTag h.pageKey.modReenc.dropItem))
  · exact h.askChain

theorem Kept.pumpReenc (h : Kept s t) {w e} : Kept s (t.pumpReenc w e) := by
  unfold State.pumpReenc
  dsimp only
  refine .ite h.reencWrites ?_
  split
  · exact .ite (.ite (((h.foldl fun h => .ite h.reencCheck h).reencReads).reencTurn) (((h.foldl fun h => .ite h.reencCheck
      h).reencReads).modReenc)) ((h.foldl fun h => .ite h.reencCheck h).reencReads)
  · exact (h.foldl fun h => .ite h.reencCheck h).reencReads

theorem Kept.reencGot (h : Kept s t) {w page j cipher sb} : Kept s (t.reencGot w page j cipher sb) := h.modReenc

theorem Kept.dropPage (h : Kept s t) {w page} : Kept s (t.dropPage w page) := h.foldl fun h => h.dropItem

theorem Kept.pumpDrain (h : Kept s t) {w} : Kept s (t.pumpDrain w) := by
  unfold State.pumpDrain
  dsimp only
  split
  · exact h
  · refine .ite h ?_
    split
    exacts [h.modWing, .ite h h.modWing]

theorem Kept.pumpPass (h : Kept s t) : Kept s t.pumpPass := by
  unfold State.pumpPass
  dsimp only
  refine .foldl (.foldl (.pumpFlush (((h.foldl fun h => h.foldl fun h => h.foldl fun h => h.captureLine).eachWing fun h =>
    h.pumpPoison.foldl fun h => h.pumpReenc).foldl fun h => h.foldl fun h => ?_)) fun h => h.pumpInit.pumpPin.pumpFill) fun h =>
    h.foldl fun h => .ite h.finishAcc h
  split
  exacts [.ite (h.curtainGate.foldl fun h => h.pumpLine.ownLine) h.curtainGate, h.curtainGate]

theorem Kept.pump (h : Kept s t) : Kept s t.pump := by
  unfold State.pump
  exact ((((h.eachWing fun h => h.pumpLost.verifyMeta).pumpPass).pumpPass).pumpPass).eachWing fun h => h.pumpDrain

/-! ## Closes -/

theorem Kept.logClosed (h : Kept s t) {w kind ix forced} : Kept s (t.logClosed w kind ix forced) := h.log

theorem Kept.startPortClose (h : Kept s t) {p} : Kept s (t.startPortClose p) := h.closeGrant.modPort

theorem Kept.endPortClose (h : Kept s t) {p forced} : Kept s (t.endPortClose p forced) := h.modPort.logClosed.answerWaiters

theorem Kept.dropPortWork (h : Kept s t) {p} : Kept s (t.dropPortWork p) :=
  (((h.foldl fun h => h.discardOut).foldl fun h => .abortIn (.ite h.countFrameSa h)).modPort).zeroTail

theorem Kept.forcePort (h : Kept s t) {p} : Kept s (t.forcePort p) := .ite h h.dropPortWork.endPortClose

theorem Kept.startRqpClose (h : Kept s t) {q} : Kept s (t.startRqpClose q) := h.closeGrant.modRqp

theorem Kept.endRqpClose (h : Kept s t) {q forced} : Kept s (t.endRqpClose q forced) := h.modRqp.logClosed.answerWaiters

theorem Kept.endAcc (h : Kept s t) {q a status} : Kept s (t.endAcc q a status) := by
  unfold State.endAcc
  refine .ite (((h.foldl fun h => h.trigEnds).foldl fun h => h.dropItem).modRqp) ?_
  split
  · exact (((h.foldl fun h => h.trigEnds).foldl fun h => h.dropItem).modRqp).modWing
  · exact (((h.foldl fun h => h.trigEnds).foldl fun h => h.dropItem).modRqp).pushBeats

theorem Kept.forceRqp (h : Kept s t) {q} : Kept s (t.forceRqp q) := .ite h ((h.foldl fun h => h.endAcc).endRqpClose)

theorem Kept.saClosedAnswer (h : Kept s t) {sai} : Kept s (t.saClosedAnswer sai) := .ite h h.answerWaiters

theorem Kept.reportSaClosed (h : Kept s t) {w sai forced} : Kept s (t.reportSaClosed w sai forced) := h.endSaClose.saClosedAnswer

theorem Kept.forceSa (h : Kept s t) {w sai} : Kept s (t.forceSa w sai) := by
  unfold State.forceSa
  split
  · exact .ite h ((h.foldl fun h => have h1 := (h.foldl fun h => h.discardOut).foldl fun h => .abortIn (.ite h.countFrameSa h);
      .ite h1.zeroTail h1).reportSaClosed)
  · exact h

theorem Kept.startRegionClose (h : Kept s t) {r} : Kept s (t.startRegionClose r) := h.closeGrant.modRegion

theorem Kept.endRegionClose (h : Kept s t) {r forced} : Kept s (t.endRegionClose r forced) :=
  h.modRegion.purgeMeta.logClosed.answerWaiters.answerWaiters

theorem Kept.forceRegion (h : Kept s t) {r} : Kept s (t.forceRegion r) :=
  .ite h ((((h.foldl fun h => h.foldl fun h => h.endAcc).foldl fun h => .ite h.dropPage h).modMpe).endRegionClose)

theorem Kept.dropSlotWork (h : Kept s t) {f} : Kept s (t.dropSlotWork f) := h.foldl fun h => h.foldl fun h => h.endAcc

theorem Kept.endKeyClose (h : Kept s t) {l forced} : Kept s (t.endKeyClose l forced) := by
  have h1 := h.modVlt (f := fun v => v.dropKey l) (.dropKey _ _)
  cases l with
  | classA id => exact h1.logClosed.answerWaiters
  | sess j => exact h1.answerWaiters
  | slot k => exact h1.logClosed.answerWaiters

theorem Kept.startKeyClose (h : Kept s t) {l} : Kept s (t.startKeyClose l) := by
  unfold State.startKeyClose
  have h1 := fun uses => h.foldl (l := List.finRange 4) (f := fun s q =>
    s.closeGrant (rqpWing q) (s.rqps[q].accs.any fun a => a.at' = s.rt ∧ a.lines.any fun x => x.slot.any uses))
    fun k => k.closeGrant
  dsimp only
  split
  · exact (h1 _).modVlt (.of_eq (by rfl))
  · exact (h1 _).modVlt (.modKey _ _ _)
  · exact h1 _

theorem Kept.forceKey (h : Kept s t) {l} : Kept s (t.forceKey l) := by
  unfold State.forceKey
  refine .endKeyClose ?_
  split
  exacts [h.dropSlotWork, h.dropSlotWork, h]

theorem Kept.forceAll (h : Kept s t) : Kept s t.forceAll :=
  (((h.foldl fun h => h.forcePort).foldl fun h => h.forceRqp).eachWing fun h => h.foldl fun h => h.forceSa).foldl fun h =>
    h.forceRegion

theorem Kept.forceKeyUsers (h : Kept s t) : Kept s t.forceKeyUsers :=
  ((h.eachWing fun h => h.foldl fun h => h.forceSa).foldl fun h => h.forceRegion).dropSlotWork

/-! ## Mailboxes -/

theorem Kept.failed (h : Kept s t) {st} : Kept s (failed t st).state := h

theorem Kept.onWings (h : Kept s t) {body c ws} (hf : ∀ {t c}, Kept s t → Kept s (body t c).state) :
    Kept s (runWings body c ws t).state := by
  fun_induction runWings body c ws t with
  | case1 => exact h
  | case2 => exact hf h
  | case3 w ws s1 hws s2 p e ih => exact ih (by simpa [e, Res.state] using hf (c := { c with wing := w }) h)
  | case4 => exact hf h

theorem Kept.settle_res {r : Res} (h : Kept s r.state) {ch expect} : Kept s (r.settle ch expect) := by
  cases r with
  | done => exact h.finish
  | wait => exact h.modHead
  | later => exact h.modChan

theorem Kept.runSel (h : Kept s t) {ch o sel body} (hf : ∀ {t c}, Kept s t → Kept s (body t c).state) :
    Kept s (t.runSel ch o sel body) := by
  unfold State.runSel
  split
  · exact h
  · refine .ite h.reply ?_
    dsimp only
    split
    · exact h.modChan.finish
    · exact .settle_res (.ite_res (hf h.modChan) (h.modChan.onWings hf))

theorem Kept.runCmd (h : Kept s t) {ch o body} (hf : ∀ {t c}, Kept s t → Kept s (body t c).state) :
    Kept s (t.runCmd ch o body) := h.runSel hf

theorem Kept.need (h : Kept s t) {ok r} (hr : Kept s r.state) : Kept s (Res.need ok t r).state := .ite_res hr h

theorem Kept.keyBack (h : Kept s t) {c l r} (hr : Kept s r.state) : Kept s (Res.keyBack t c l r).state := .ite_res h.needKey hr

theorem Kept.reaching (h : Kept s t) {c w r} (hr : Kept s r.state) : Kept s (Res.reaching t c w r).state := .ite_res hr h

/-! ## Box office commands -/

theorem execBoxInsert_kept (h : Kept s t) {ch} : KeptBy s (execBoxInsert ch t) := by
  unfold execBoxInsert
  refine .next (h.runCmd fun {t c} h => .ite_res ?_ h)
  extract_lets mine t1
  have h1 : Kept s t1 := .eachWing h fun k => k.modBox
  dsimp only [Res.state]
  exact h1.modBox

theorem execBoxUpdate_kept (h : Kept s t) {ch} : KeptBy s (execBoxUpdate ch t) := by
  unfold execBoxUpdate
  dsimp only
  refine .next (h.runCmd fun h => .ite_res ?_ h)
  split
  exacts [h.boxPut, h]

theorem execBoxRemove_kept (h : Kept s t) {ch} : KeptBy s (execBoxRemove ch t) := by
  unfold execBoxRemove
  dsimp only
  refine .next (h.runCmd fun h => .ite_res ?_ h)
  split
  exacts [h.boxClear, h]

theorem execBoxLookup_kept (h : Kept s t) {ch} : KeptBy s (execBoxLookup ch t) := by
  unfold execBoxLookup
  dsimp only
  refine .next (h.runCmd fun h => .ite_res ?_ h)
  split <;> exact h

theorem execBoxReadSlot_kept (h : Kept s t) {ch} : KeptBy s (execBoxReadSlot ch t) := by
  unfold execBoxReadSlot
  refine .next (h.runCmd fun h => ?_)
  split <;> exact h

theorem execBoxTtl_kept (h : Kept s t) {ch} : KeptBy s (execBoxTtl ch t) := .next (h.runCmd fun h => h.need h.stage)

theorem Kept.grqTake (h : Kept s t) {w h'} : Kept s (t.grqTake w h') := h.modWing

theorem execGrqList_kept (h : Kept s t) {ch} : KeptBy s (execGrqList ch t) := .next (h.runCmd fun h => h.need h)

theorem execGrqRead_kept (h : Kept s t) {ch} : KeptBy s (execGrqRead ch t) := by
  unfold execGrqRead
  refine .next (h.runCmd fun h => h.need ?_)
  split <;> exact h

theorem execGrqDrop_kept (h : Kept s t) {ch} : KeptBy s (execGrqDrop ch t) := by
  unfold execGrqDrop
  refine .next (h.runCmd fun h => h.need ?_)
  split
  exacts [h.grqTake, h]

theorem execGrqRelease_kept (h : Kept s t) {ch} : KeptBy s (execGrqRelease ch t) := by
  unfold execGrqRelease
  refine .next (h.runCmd fun h => h.need ?_)
  split
  · exact h
  · split
    exacts [h, h.grqTake.modPort.readmit]

theorem execGrqTimeout_kept (h : Kept s t) {ch} : KeptBy s (execGrqTimeout ch t) := .next (h.runCmd fun h => h.need h.stage)

/-! ## Keys -/

theorem Kept.vault (h : Kept s t) {c r} (hr : Kept s r.state) : Kept s (Res.vault t c r).state := .ite_res h hr

theorem Kept.vaultRec {r : Res} (h : Kept s r.state) {c sealed} : Kept s (r.vaultRec c sealed).state := by
  cases r with
  | done => exact h.rhlVault
  | wait => exact h
  | later => exact h

theorem Kept.commandKey (h : Kept s t) {c l u} : Kept s (t.commandKey c l u).2 := by
  unfold State.commandKey
  dsimp only
  split
  exacts [h.needKey.readKey, .ite_snd h.needKey.readKey (.ite_snd h.needKey.readKey.spend h.needKey.readKey)]

theorem Kept.writeSlot (h : Kept s t) {n ref key} : Kept s (t.writeSlot n ref key).2 := h.modVlt (.of_eq (by rfl))

theorem Kept.holdsKey (h : Kept s t) {w l} : Kept s (t.holdsKey w l).2 := by
  unfold State.holdsKey
  dsimp only
  split <;> exact h.readKey

theorem Kept.placeCheck (h : Kept s t) {c l a} : Kept s (t.placeCheck c l a).2 := .ite_snd h (.ite_snd h h.holdsKey)

theorem Kept.placeKey (h : Kept s t) {w l k} : Kept s (t.placeKey w l k).2 := by
  unfold State.placeKey
  split
  exacts [(h.modVlt (.of_eq (by rfl))).freshKey, h.writeSlot, h]

theorem Kept.loadClassA (h : Kept s t) {id k} : Kept s (t.loadClassA id k) := by
  unfold State.loadClassA
  split
  exacts [h.modVlt (.of_eq (by rfl)), h]

theorem Kept.kumReject (h : Kept s t) {c ws st} : Kept s (t.kumReject c ws st).state := h.log.countWing

theorem Kept.commitKum (h : Kept s t) {ws body cut apply} (hf : ∀ {t}, Kept s t → Kept s (apply t)) : Kept s (t.commitKum ws body
    cut apply) :=
  (h.modVlt (.of_eq (by rfl))).commitRecord fun h => hf h

theorem Kept.kum (h : Kept s t) {c action} (hf : ∀ {t ws}, Kept s t → Kept s (action t ws).state) :
    Kept s (t.kum c action).state := by
  unfold State.kum
  extract_lets ws t1
  have h1 : Kept s t1 := h.modChan
  refine h1.vault ?_
  refine .ite_res h1 (.ite_res h1.kumReject ?_)
  split
  · exact h1.kumReject
  · refine .ite_res h1.kumReject ?_
    split
    · exact h1
    · exact h1.kumReject
    · exact hf h1

theorem Kept.sign (h : Kept s t) {c d st} : Kept s (t.sign c d st).state := by
  unfold State.sign
  have h1 := h.draw (k := 48)
  generalize t.draw 48 = x at h1 ⊢
  obtain ⟨k, t1⟩ := x
  exact .ite_res h h1

/-! ## Tamper -/

theorem Kept.setCond (h : Kept s t) {i c} : Kept s (t.setCond i c) := h.modVlt (.of_eq (by rfl))

theorem Kept.toSleep (h : Kept s t) : Kept s t.toSleep := h.copyRt.coreReset.lasts (.of_eq (by rfl))

theorem Kept.iron (h : Kept s t) : Kept s t.iron := by
  unfold State.iron
  have h1 := h.modVlt (.iron _)
  exact .ite (.toSleep (.ite (.eachWing h1.forceAll fun k => k.modWing) h1)) (.ite (.eachWing h1.forceAll fun k => k.modWing) h1)

theorem Vault.Lasts.setOwner (v : Vault) (i : Fin 4) (o : Option Bytes) (hi : v.owner[i] = none) :
    v.Lasts { v with owner := v.owner.set i o } := by
  refine ⟨id, fun _ => ⟨id, id, id⟩, le_rfl, fun j h e => ?_⟩
  by_cases hij : i = j
  · subst hij
    simp_all
  · have hne : i.val ≠ j.val := fun e => hij (Fin.ext e)
    simpa [Vector.getElem_set_ne, hne] using e

theorem Kept.cutHash (h : Kept s t) {i h'} (hi : t.vlt.owner[i] = none) : Kept s (t.cutHash i h') :=
  .ite h.takeFree (h.takeFree.modVlt (.setOwner _ _ _ hi))

/-- The slot after the highest that holds a hash is empty. -/
theorem Vault.ownerSlot_succ_free {v : Vault} {i : Fin 4} (h : v.ownerSlot = some i) (hi : i ≠ 3) : v.owner[i + 1] = none := by
  have hall : ∀ j : Fin 4, i < j → v.owner[j].isSome = false := by
    intro j hj
    unfold Vault.ownerSlot at h
    rw [show (List.finRange 4).reverse = [3, 2, 1, 0] from rfl] at h
    simp only [List.find?_cons] at h
    fin_cases j <;> fin_cases i <;> grind
  exact Option.isNone_iff_eq_none.1 (Option.isSome_eq_false_iff.1 (hall _ (by omega)))

/-- A hash that is being burnt is burnt in an empty slot (R277). -/
theorem State.hashBurn_free {t : State} {ch : Fin 8} {p : Place} {i : Fin 4} {b : Bytes} (h : t.hashBurn ch p = some (i, b)) :
    t.vlt.owner[i] = none := by
  unfold State.hashBurn at h
  dsimp only at h
  split at h
  · cases h
  · split at h
    · split at h
      · next hc =>
        cases h
        exact Option.isNone_iff_eq_none.1 hc.2
      · cases h
    · split at h
      · split at h
        · next hs =>
          split at h
          · next hc =>
            cases h
            exact Vault.ownerSlot_succ_free hs hc.2.1
          · cases h
        · cases h
      · cases h

theorem Kept.abortOp (h : Kept s t) {ch st} : Kept s (t.abortOp ch st) := by
  unfold State.abortOp
  dsimp only
  split
  · exact h.finish
  · exact h.finish
  · refine .ite (.ite (.reply (.modChan ?_)) h.takeFree) h
    split
    · next e => exact .ite (h.takeFree.cutHash (State.hashBurn_free e)) h.takeFree
    · exact h.takeFree
  · exact h

theorem Kept.abortVault (h : Kept s t) {st keep} : Kept s (t.abortVault st keep) := h.foldl fun h => .ite h h.abortOp

theorem Kept.cutHashes (h : Kept s t) : Kept s t.cutHashes := h.foldl fun h => .ite h.abortOp h

theorem Kept.respond (h : Kept s t) {d} : Kept s (t.respond d) := by
  unfold State.respond
  extract_lets up t1 t2 t3 t4
  have h1 : Kept s t1 := h.modVlt (Vault.rcbPush_lasts _ _)
  have h2 : Kept s t2 := .ite h1.logWords.logWords h1
  have h3 : Kept s t3 := .ite h2 (.ite h2.raiseAlarm (h2.modVlt (.of_eq (by rfl))))
  have h4 : Kept s t4 := .ite (.modVlt (.eachWing h3 fun k => k.rhlFreeze) (.of_eq (by rfl))) h3
  exact .ite h4.iron h4

theorem Kept.stopBurn (h : Kept s t) {st} : Kept s (t.stopBurn st) := (h.modVlt (.of_eq (by rfl))).answerWaiters

theorem Kept.detect (h : Kept s t) {source cond} : Kept s (t.detect source cond) := by
  unfold State.detect
  dsimp only
  split
  · exact .ite (.respond (.ite ((h.eachWing fun h => h.rhlFault).abortVault) (h.eachWing fun h => h.rhlFault))) (.ite (.respond
      (.stopBurn (.ite ((h.eachWing fun h => h.rhlFault).abortVault) (h.eachWing fun h => h.rhlFault)))) (.modVlt (.ite
      ((h.eachWing fun h => h.rhlFault).abortVault) (h.eachWing fun h => h.rhlFault)) (.of_eq (by rfl))))
  · exact .respond (.ite ((h.eachWing fun h => h.rhlFault).abortVault) (h.eachWing fun h => h.rhlFault))

theorem Kept.sense (h : Kept s t) {i c} : Kept s (t.sense i c) := .ite h (have h1 := h.setCond; .ite h1 h1.detect)

theorem Kept.fireIron (h : Kept s t) : Kept s t.fireIron := (h.modVlt (.of_eq (by rfl))).detect

theorem Kept.condReturn (h : Kept s t) : Kept s t.condReturn :=
  .ite (have h1 := .takeFree (.ite (have h2 := .takeFree (.ite (have h3 := h.takeFree; .ite h3.setCond h3) h); .ite h2.setCond
    h2) (.ite (have h4 := h.takeFree; .ite h4.setCond h4) h)); .ite h1.setCond h1) (.ite (have h5 := .takeFree (.ite (have h6 :=
    h.takeFree; .ite h6.setCond h6) h); .ite h5.setCond h5) (.ite (have h7 := h.takeFree; .ite h7.setCond h7) h))

theorem Kept.entropyFailed (h : Kept s t) : Kept s t.entropyFailed := h.logBoth.raiseAlarm

theorem Kept.finishMove (h : Kept s t) {after} : Kept s (t.finishMove after) := by
  unfold State.finishMove
  extract_lets old held t1 t2 t3 t4
  have h2 : Kept s t2 := .eachWing h.abortVault.forceKeyUsers fun k => k.modWing
  have h3 : Kept s t3 := h2.modVlt ((Vault.Lasts.moveContext _ _).trans (.of_eq (by rfl)))
  exact (h3.logBoth.foldl fun k => k.respond).answerWaiters

theorem Kept.beginBurn (h : Kept s t) {bit} : Kept s (t.beginBurn bit) := h.modVlt (.of_eq (by rfl))

/-! ## Start-up -/

theorem Kept.startPrompt (h : Kept s t) : Kept s t.startPrompt := h.eachWing fun h => h.modWing

theorem Kept.cutEpoch (h : Kept s t) {burnt} : Kept s (t.cutEpoch burnt) :=
  h.lasts ⟨id, fun _ => ⟨id, id, id⟩, Nat.le_add_right _ _, fun _ _ => id⟩

/-- What a loss of retention leaves of the SRAM is empty, and it may burn one bit of the epoch (R240). -/
theorem Vault.Lasts.loseSram {v v' : Vault} (b : Bool) (hm : v'.sram = []) (hl : v'.lc = v.lc)
    (he : v'.epoch = if b then v.epoch + 1 else v.epoch) (ho : v'.owner = v.owner) : v.Lasts v' := by
  refine ⟨fun _ => by rw [hm]; rfl, fun i => by rw [hl]; exact ⟨id, id, id⟩, ?_, fun i h x => by rw [ho]; exact x⟩
  rw [he]
  split <;> omega

theorem Vault.Lasts.setSram (v : Vault) {m : List Host.Cell} (hm : Memory.wf v.sram = true → Memory.wf m = true) :
    v.Lasts { v with sram := m } := .of_sram hm rfl

theorem Kept.loseRetention (h : Kept s t) : Kept s t.loseRetention := by
  unfold State.loseRetention
  extract_lets prev burn t1 t2 t3
  have h1 : Kept s t1 := by
    refine h.modVlt ?_
    extract_lets v1 v2 m
    have k1 : t.vlt.Lasts v1 := .loseSram burn rfl rfl rfl rfl
    have k2 : t.vlt.Lasts v2 := (k1.trans (.setKeys _ _)).trans (.newHeader _ _ _)
    have hm : Memory.wf v2.sram = true → Memory.wf (memWr32 m 0x40 2) = true := fun x => memWr32_wf _ _ _ (memPut_wf _ _ _ x)
    clear_value v2
    generalize memWr32 m 0x40 2 = m' at hm ⊢
    exact (k2.trans (.setSram _ hm)).trans (.defaultSettings _)
  have h3 : Kept s t3 := .ite h1.startPrompt.rcb h1.startPrompt
  exact h3.rcb.rcb

theorem Kept.holdStart (h : Kept s t) {st} : Kept s (t.holdStart st) := by
  unfold State.holdStart
  have h1 : Kept s (t.modVlt fun v => { v with keys := {}, drbgOk := false }) := h.modVlt (.of_eq (by rfl))
  exact .copyRt h1

theorem Kept.readFuses (h : Kept s t) : Kept s t.readFuses := by
  refine h.modVlt ⟨id, fun i => ?_, le_rfl, fun _ _ => id⟩
  dsimp only
  split
  · simp only [Fin.getElem_fin, Vector.getElem_map]
    split
    · exact ⟨fun _ => rfl, fun _ => rfl, fun _ => rfl⟩
    · exact ⟨id, id, id⟩
  · exact ⟨id, id, id⟩

theorem Kept.seedCodes (h : Kept s t) : Kept s t.seedCodes := by
  unfold State.seedCodes
  dsimp only
  exact (h.modVlt (.of_eq (by rfl))).foldl fun h => (h.draw.eachWing fun h => h.rhlSeed).modVlt (.of_eq (by rfl))

theorem Kept.bootWindows (h : Kept s t) {conds} : Kept s (t.bootWindows conds).2 :=
  List.foldlRecOn (motive := fun a : Bool × State => Kept s a.2) _ _ h fun _ ha _ _ => .ite_snd ha.setCond ha.setCond.detect

theorem Kept.checkTamper (h : Kept s t) {conds} : Kept s (t.checkTamper conds).2 := by
  unfold State.checkTamper
  extract_lets t1 t2
  have h1 : Kept s t1 := h.modVlt (.of_eq (by rfl))
  have h2 : Kept s t2 := .ite h1 (.rcb (h1.modVlt (.defaultSettings _)))
  exact .bootWindows (h2.modVlt (.of_eq (by rfl)))

theorem Vault.Lasts.applyKum (v : Vault) : v.Lasts v.applyKum := by
  unfold Vault.applyKum
  split
  · exact .setVersion _ _ _
  · exact ((Vault.Lasts.setVersion _ _ _).trans (.unload _ _)).trans (.of_eq (by rfl))
  · exact (Vault.Lasts.setIron _ _).trans (.of_eq (by rfl))
  · exact .of_eq (by rfl)
  · exact .refl v

theorem Kept.checkRetention (h : Kept s t) (e : t.checkRetention = some u) : Kept s u := by
  unfold State.checkRetention at e
  split at e
  · cases e
    exact h.modVlt (((Vault.Lasts.recover _ _).trans (.applyKum _)).trans (.of_eq (by rfl)))
  · split at e
    · cases e
    · cases e
      exact h.loseRetention.modVlt (.of_eq (by rfl))

theorem Kept.drawBoot (h : Kept s t) : Kept s t.drawBoot := by
  unfold State.drawBoot
  dsimp only
  exact (((((h.modVlt (.of_eq (by rfl))).draw).modVlt (.of_eq (by rfl))).eachWing fun h =>
    h.draw.draw.modWing.rhlSeed).draw).modVlt (.of_eq (by rfl))

theorem Kept.bootReady (h : Kept s t) : Kept s t.bootReady := by
  unfold State.bootReady
  extract_lets t1 t2
  have h1 : Kept s t1 := h.modVlt (.of_eq (by rfl))
  have h2 : Kept s t2 := .eachWing h1 fun k => k.modWing
  have h3 : Kept s { t2 with boot := { t2.boot with phase := .rom } } := h2
  exact h3.copyRt

theorem Kept.applyBlob (h : Kept s t) : Kept s t.applyBlob := by
  unfold State.applyBlob
  dsimp only
  split
  · split
    exacts [(h.modVlt (.of_eq (by rfl))).modVlt (.of_eq (by rfl)), h.modVlt (.of_eq (by rfl))]
  · exact h

theorem Kept.startTail (h : Kept s t) {o} : Kept s (t.startTail o) := by
  unfold State.startTail
  split
  · exact h.holdStart
  · exact h.cutEpoch.holdStart
  · next t1 e _ =>
    have h1 := h.checkRetention e
    refine .ite h1.entropyFailed.holdStart ?_
    extract_lets t2 t3
    have h3 : Kept s t3 := .ite h1.drawBoot (.applyBlob (h1.drawBoot.modVlt (.deriveAll _)))
    exact .ite h3.holdStart h3.bootReady

theorem Kept.startSteps (h : Kept s t) {o} : Kept s (t.startSteps o) :=
  have h1 := h.readFuses
  .ite h1.holdStart (.ite h1.holdStart (.ite h1.entropyFailed.holdStart (have h2 := h1.seedCodes.checkTamper; .ite
    h2.holdStart h2.startTail)))

theorem Kept.startUp (h : Kept s t) {o} : Kept s (t.startUp o) := by
  unfold State.startUp
  extract_lets alarm pwr boot vlt t1 t2
  have h1 : Kept s t1 := h.lasts (.of_eq (by rfl))
  have h2 : Kept s t2 := h1.startPrompt.startSteps
  exact .ite h2.raiseAlarm h2

/-! ## The control port -/

theorem Kept.ownParity (h : Kept s t) {a n} : Kept s (t.ownParity a n) := .ite h.modWing.log.countWing.parityHit h

theorem Kept.rhlCtrl (h : Kept s t) {a off write v} : Kept s (t.rhlCtrl a off write v) := h.eachWing fun h => .ite h.rhlRec h

theorem Kept.zAbort (h : Kept s t) : Kept s t.zAbort := .ite h (h.same (by rfl))

theorem Kept.zTrack (h : Kept s t) {a off gap v} : Kept s (t.zTrack a off gap v) :=
  .ite (.ite h h.zAbort) (.ite (h.same (by rfl)) (.ite (h.same (by rfl)) (.ite ((h.same (by rfl)).fireIron) h.zAbort)))

theorem Kept.cpWrite (h : Kept s t) {a off gap v eff} (hf : ∀ {t}, Kept s t → Kept s (eff t)) : Kept s (t.cpWrite a off gap v
    eff) := by
  unfold State.cpWrite
  refine .ite h (.ite (.rhlCtrl (.same (.zAbort ?_) (by rfl))) (.rhlCtrl (.same (hf (.zTrack ?_)) (by rfl))))
  · split
    exacts [h.ownParity, h]
  · split
    exacts [h.ownParity, h]

theorem Kept.resetCp (h : Kept s t) : Kept s t.resetCp := h.zAbort.same (by rfl)

theorem Kept.regWrite (h : Kept s t) {off v} : Kept s (t.regWrite off v) := by
  unfold State.regWrite
  refine .ite (.ite h (h.same (by rfl))) (.ite (h.same (by rfl)) (.ite (h.same (by rfl)) (.ite (.ite h (h.same (by rfl))) (.ite
    h.modWing (.ite h.modWing ?_)))))
  split
  exacts [h.modChan, h]

/-! ## Control port commands -/

theorem execDoorbell_kept (h : Kept s t) {a ch v} : KeptBy s (execDoorbell a ch v t) := .next (h.cpWrite fun h => h.modChan)

theorem execReqFree_kept (h : Kept s t) {ch} : KeptBy s (execReqFree ch t) := .next (.ite h.modChan h)

theorem Kept.giveChan (h : Kept s t) {o} : Kept s (t.giveChan o) := by
  unfold State.giveChan
  split
  exacts [h.modChan, h]

theorem Kept.answerUnknown (h : Kept s t) {ch} : Kept s (t.answerUnknown ch) := by
  unfold State.answerUnknown
  split
  exacts [.ite (.ite h.reply h.modChan.finish) h, h]

theorem Kept.writeRsp (h : Kept s t) {ch} : Kept s (t.writeRsp ch) := by
  unfold State.writeRsp
  refine .ite h ?_
  split
  · exact h
  · split
    exacts [h.modChan.giveChan, h]

theorem execRspWrite_kept (h : Kept s t) {ch} : KeptBy s (execRspWrite ch t) := .next (.ite h.answerUnknown.writeRsp h)

theorem execRspAck_kept (h : Kept s t) {a ch v} : KeptBy s (execRspAck a ch v t) := .next (h.cpWrite fun h => h.modChan)

theorem execCbdTail_kept (h : Kept s t) {a w v} : KeptBy s (execCbdTail a w v t) := .next (h.cpWrite fun h => h.modWing)

theorem execCbdEntry_kept (h : Kept s t) {a w} : KeptBy s (execCbdEntry a w t) :=
  .next (.ite h (have h1 := h.ownParity.same (by rfl); .rhlCtrl (.ite h1 h1.modWing)))

theorem execZeroiseArm_kept (h : Kept s t) {a gap v} : KeptBy s (execZeroiseArm a gap v t) := .next (h.cpWrite fun h => h)

theorem execZeroiseFire_kept (h : Kept s t) {a gap v} : KeptBy s (execZeroiseFire a gap v t) := .next (h.cpWrite fun h => h)

theorem execZeroiseGap_kept (h : Kept s t) : KeptBy s (execZeroiseGap t) := .next (.ite h.zAbort h)

theorem execRegisterWrite_kept (h : Kept s t) {a addr v} : KeptBy s (execRegisterWrite a addr v t) :=
  .next (.ite h (h.cpWrite fun h => h.regWrite))

theorem execCpRstN_kept (h : Kept s t) : KeptBy s (execCpRstN t) := .next h.resetCp

/-! ## Stores -/

theorem Kept.admitLine (h : Kept s t) {q a i} : Kept s (t.admitLine q a i) := by
  unfold State.admitLine
  split
  exacts [.ite h h.admitItem, h]

theorem Kept.admitLines (h : Kept s t) {q a} : Kept s (t.admitLines q a) := h.foldl fun h => h.admitLine

theorem Kept.startOwn (h : Kept s t) {w u cls} : Kept s (t.startOwn w u cls) := by
  unfold State.startOwn
  split
  exacts [h, .ite (.ite h h.regionParity.modWing) (.ite h (.admitLines (.modRqp (.modWing (.ite h.takeFree h)))))]

theorem Kept.wantSa (h : Kept s t) {w} : Kept s (t.wantSa w) := by
  unfold State.wantSa
  refine h.foldl fun h => ?_
  split
  exacts [.ite h (have h1 := h.askOwn.askOwn; .ite h1.askOwn h1), h]

theorem Kept.wantBlock (h : Kept s t) {w} : Kept s (t.wantBlock w) := by
  unfold State.wantBlock
  refine .ite ?_ h
  split
  exacts [h.askOwn, h]

theorem Kept.ownTaken (h : Kept s t) {w u} : Kept s (t.ownTaken w u) := h.modWing

theorem Kept.takeKey (h : Kept s t) {w j} : Kept s (t.takeKey w j) := by
  unfold State.takeKey
  split
  exacts [h, have h1 := h.ownTaken; .ite h1.cacheKey (.ite h1.loseCopy.log h1.askOwn)]

theorem Kept.takeKeys (h : Kept s t) {w} : Kept s (t.takeKeys w) := by
  unfold State.takeKeys
  refine h.foldl fun h => ?_
  split
  exacts [.ite h h.takeKey, h]

theorem Kept.pumpOwn (h : Kept s t) {w} : Kept s (t.pumpOwn w) := (h.wantSa.wantBlock.takeKeys.foldl fun h => h.startOwn).modWing

/-! ## Frame events -/

theorem Kept.notOpen (h : Kept s t) {p line} : Kept s (t.notOpen p line) := .ite h h.modPort.log

theorem Kept.countPortN (h : Kept s t) {p c k} : Kept s (t.countPortN p c k) := h.modPort

theorem Kept.takeFrame (h : Kept s t) {p line len data eof side} : Kept s (t.takeFrame p line len data eof side).2 := by
  unfold State.takeFrame
  refine .ite_snd h (.ite_snd h.notOpen (.ite_snd h (.ite_snd h.modPort.log (.ite_snd h.takeCells.rhlFrame.countPort ?_))))
  split
  exacts [h.takeCells.rhlFrame, h.takeCells.rhlFrame.countPort.countPortN, h.takeCells.rhlFrame.countPort]

theorem execOutboundFrame_kept (h : Kept s t) {p f} : KeptBy s (execOutboundFrame p f t) := by
  unfold execOutboundFrame
  dsimp only
  split
  · exact .next ((h.placeCurtain.takeFrame.of_snd ‹_›).credit)
  · exact .next (((h.placeCurtain.takeFrame.of_snd ‹_›).selectFrame).credit)

theorem Kept.abortCut (h : Kept s t) {p bytes} : Kept s (t.abortCut p bytes) := by
  unfold State.abortCut
  dsimp only
  split
  · split
    · refine .ite ?_ h
      split
      · refine .ite h ?_
        split
        exacts [have h1 := h.takeFree; .ite h1.deliverAborted h1, h]
      · exact h
    · exact h
  · exact h

theorem execInboundFrame_kept (h : Kept s t) {p f} : KeptBy s (execInboundFrame p f t) := by
  unfold execInboundFrame
  split
  · exact .next (.credit (.ite ((h.takeFrame.of_snd ‹_›).abortCut) (h.takeFrame.of_snd ‹_›)))
  · exact .ite (.next ((((h.takeFrame.of_snd ‹_›).countPort).abortCut).credit)) (.next (((h.takeFrame.of_snd ‹_›).takeIn).credit))

theorem execStrayBeat_kept (h : Kept s t) {p line} : KeptBy s (execStrayBeat p line t) :=
  .ite (.next h) (.ite (.next h.notOpen) (.next h.countPort))

theorem execCreditPulse_kept (h : Kept s t) {p line} : KeptBy s (execCreditPulse p line t) :=
  .ite (.next h) (have h1 := h.modPort; .ite (.next h1.modPort) (have h2 := h1.modPort; .next (.ite h2.log h2)))

theorem execLsHold_kept (h : Kept s t) {p hold rsn} : KeptBy s (execLsHold p hold rsn t) :=
  .ite (.next h) (have h1 := h.modPort; have h2 := .ite h1.countPort h1; .next (.ite h2.rhlRec h2))

theorem execFrameRelease_kept (h : Kept s t) {p id} : KeptBy s (execFrameRelease p id t) := by
  unfold execFrameRelease
  dsimp only
  split
  exacts [.ite (.next h) (.next h.releaseOut), .next h]

theorem execFrameTagCheck_kept (h : Kept s t) {p id} : KeptBy s (execFrameTagCheck p id t) := by
  unfold execFrameTagCheck
  dsimp only
  split
  exacts [.ite (.next h) (.next h.checkIn), .next h]

theorem Kept.fetchFail (h : Kept s t) {w sai} : Kept s (t.fetchFail w sai) :=
  h.foldl fun h => (h.foldl fun h => h.noSaAs.unstage).foldl fun h => h.noSaAs.unInbound

theorem Kept.fetchDone (h : Kept s t) {w sai} : Kept s (t.fetchDone w sai) := by
  unfold State.fetchDone
  refine h.pumpKs.foldl fun h => h.foldl fun h => ?_
  split
  exacts [h.unInbound.windowIn, h]

theorem execSaFetch_kept (h : Kept s t) {w sai _tagOk _keyOk} : KeptBy s (execSaFetch w sai _tagOk _keyOk t) := by
  unfold execSaFetch
  split
  · exact .ite (.next h.ownTaken) (.ite (.next h.ownTaken.modSa.log.fetchFail) (.ite (.next h.ownTaken.askOwn) (have h1 :=
      h.takeKey; .ite (.next h1.ownTaken.fetchFail) (.ite (.next h1) (have h2 := h1.ownTaken.evictSa.modSa.cacheKey; .next
      (.fetchDone (.ite h2.countSa h2)))))))
  · exact .next h

theorem execBoxInsertion_kept (h : Kept s t) {w} : KeptBy s (execBoxInsertion w t) := by
  unfold execBoxInsertion
  dsimp only
  split
  · exact .next h
  · split
    · exact .next (.boxLearn (.modBox (.ite h h.rhlGrant)))
    · split <;> exact .next (.ite (.finish (.of_snd (.boxInstall (.modBox (.ite h h.rhlGrant))) ‹_›)) (.of_snd (.boxInstall
        (.modBox (.ite h h.rhlGrant))) ‹_›))

theorem execLateFrame_kept (h : Kept s t) {p id} : KeptBy s (execLateFrame p id t) := by
  unfold execLateFrame
  dsimp only
  split
  exacts [.ite (.next h.discardOut) (.next h), .next h]

theorem execLsHoldLimit_kept (h : Kept s t) {p} : KeptBy s (execLsHoldLimit p t) :=
  .ite (.next ((h.modPort.countPort.foldl fun h => h.toGrq.unstage).log)) (.next h)

theorem execRekeyOverlap_kept (h : Kept s t) {w sai} : KeptBy s (execRekeyOverlap w sai t) := by
  unfold execRekeyOverlap
  split
  exacts [.ite (.next h.startSaClose) (.next h), .next h]

theorem execUnkeyedTtl_kept (h : Kept s t) {w slot} : KeptBy s (execUnkeyedTtl w slot t) := by
  unfold execUnkeyedTtl
  split
  exacts [.ite (.next h.boxClear) (.next h), .next h]

theorem execGrqHoldTimeout_kept (h : Kept s t) {w handle} : KeptBy s (execGrqHoldTimeout w handle t) := by
  unfold execGrqHoldTimeout
  dsimp only
  split
  exacts [.ite (.next h.modWing) (.next h), .next h]

theorem execGrqSummary_kept (h : Kept s t) {w} : KeptBy s (execGrqSummary w t) :=
  .ite (.next h) (.ite (.next h) (.next ((h.foldl fun h => h.log).modWing)))

theorem Kept.leaseRefused (h : Kept s t) {w sai} : Kept s (t.leaseRefused w sai) := h.modSa

theorem Kept.leaseGiven (h : Kept s t) {w sai a b} : Kept s (t.leaseGiven w sai a b) := h.modSa.countWing.rhlVault.leaseOn

theorem execLeaseGrant_kept (h : Kept s t) {w sai cut} : KeptBy s (execLeaseGrant w sai cut t) := by
  unfold execLeaseGrant
  split
  · refine .ite (.next h) (.ite (.next h.leaseRefused) (.ite (.next h.modSa.leaseOn) (.next ?_)))
    exact h.commitRecord fun k => (k.modVlt (.applySlot _ _)).leaseGiven
  · exact .next h

theorem execLeaseRefreshRetry_kept (h : Kept s t) {w sai} : KeptBy s (execLeaseRefreshRetry w sai t) := by
  unfold execLeaseRefreshRetry
  split
  · split
    exacts [.ite (.next h.modSa.log) (.next h), .next h]
  · exact .next h

/-! ## Key commands -/

theorem execDevKeys_kept (h : Kept s t) {ch} : KeptBy s (execDevKeys ch t) := by
  unfold execDevKeys
  refine .next (h.runCmd fun h => .vaultRec (h.vault ?_))
  split <;> exact h

theorem execKumPart_kept (h : Kept s t) {ch} : KeptBy s (execKumPart ch t) := by
  unfold execKumPart
  exact .next (h.runCmd fun k => k.need k.modChan.good)

theorem Kept.runKum (h : Kept s t) {ch f action} (hf : ∀ {a1 t a3}, Kept s t → Kept s (action a1 t a3).state) : Kept s (t.runKum
    ch f action) :=
  .ite h (h.runSel fun h => .vaultRec (h.kum fun h => hf h))

theorem execInstallKey_kept (h : Kept s t) {ch cut} : KeptBy s (execInstallKey ch cut t) := by
  unfold execInstallKey
  refine .next (h.runKum fun {_ t _} k => ?_)
  split
  · exact k.kumReject
  · exact .done (k.commitKum fun k => (k.modVlt (.setVersion _ _ _)).loadClassA)

theorem execDestroyKey_kept (h : Kept s t) {ch cut} : KeptBy s (execDestroyKey ch cut t) := by
  unfold execDestroyKey
  refine .next (h.runKum fun {_ t _} k => ?_)
  exact .good (k.commitKum fun k => (k.modVlt (.setVersion _ _ _)).startKeyClose)

theorem execOwnerRotate_kept (h : Kept s t) {ch cut} : KeptBy s (execOwnerRotate ch cut t) := by
  unfold execOwnerRotate
  refine .next (h.runKum fun {_ t ws} k => ?_)
  split
  · next i hi =>
    split
    · exact k.kumReject
    · next h3 =>
      refine .ite_res k.kumReject ?_
      extract_lets b n t1
      have h1 : Kept s t1 := k.modVlt (.setOwner _ _ _ (Vault.ownerSlot_succ_free hi h3))
      exact .good (h1.commitKum id)
  · exact k.kumReject

theorem execReinstate_kept (h : Kept s t) {ch cut} : KeptBy s (execReinstate ch cut t) := by
  unfold execReinstate
  refine .next (h.runKum fun {_ t _} k => ?_)
  refine .ite_res k.kumReject (.ite_res k.kumReject ?_)
  extract_lets ret t1 t2
  have h1 : Kept s t1 := k.modVlt (.of_eq (by rfl))
  have h2 : Kept s t2 := h1.commitKum fun k => k.modVlt ((Vault.Lasts.setIron _ _).trans (.deriveAll _))
  exact .good (.ite (h2.modVlt (.of_eq (by rfl))) h2)

theorem execLcMove_kept (h : Kept s t) {ch cut} : KeptBy s (execLcMove ch cut t) := by
  unfold execLcMove
  refine .next (h.runKum fun h => ?_)
  split
  exacts [have h1 := h.abortVault; .ite_res h1.kumReject h1.beginBurn, .ite_res h.kumReject h.kumReject]

theorem execOwnerEnrol_kept (h : Kept s t) {ch} : KeptBy s (execOwnerEnrol ch t) := by
  unfold execOwnerEnrol
  refine .next (.ite h (h.runCmd fun {t c} k => .vaultRec (k.vault ?_)))
  split
  · exact k
  · next hc =>
    refine .ite_res k (.good (k.modVlt (.setOwner _ (0 : Fin 4) _ ?_)))
    exact Option.not_isSome_iff_eq_none.1 fun e => hc (.inr e)

theorem execBlobLoad_kept (h : Kept s t) {ch} : KeptBy s (execBlobLoad ch t) := by
  unfold execBlobLoad
  dsimp only
  refine .next (h.runCmd fun h => .vaultRec (h.vault ?_))
  split
  · exact h
  · refine .ite_res h (.ite_res h.countWing (.ite_res h ?_))
    split
    exacts [h.readKey, .ite_res h.readKey h.readKey.loadClassA]

theorem Kept.closeKey (h : Kept s t) {c l w} : Kept s (t.closeKey c l w).state := .ite_res h (.ite_res h.forceKey h.startKeyClose)

theorem execClassAUnload_kept (h : Kept s t) {ch} : KeptBy s (execClassAUnload ch t) :=
  .next (h.runCmd fun h => h.need (h.vault h.closeKey))

theorem Kept.target (h : Kept s t) {c i ai f} (hf : ∀ a1 a2, Kept s (f a1 a2).state) : Kept s (Res.target t c i ai f).state := by
  unfold Res.target
  split
  exacts [h.need (.vaultRec (h.vault (hf _ _))), h]

theorem Kept.named (h : Kept s t) {c ref u f} (hf : ∀ {t a2 a3}, Kept s t → Kept s (f t a2 a3).state) : Kept s (Res.named t c ref
    u f).state := by
  unfold Res.named
  split
  · refine h.need (h.keyBack ?_)
    split
    exacts [h.commandKey.of_snd ‹_›, hf (h.commandKey.of_snd ‹_›)]
  · exact h

theorem execKeyGenerate_kept (h : Kept s t) {ch} : KeptBy s (execKeyGenerate ch t) := by
  unfold execKeyGenerate
  refine .next (h.runCmd fun {t c} k => k.target fun l a0 => ?_)
  extract_lets a wrap place
  have placed : ∀ {t kek}, Kept s t → Kept s (place t kek).state := by
    intro t kek k
    dsimp only [place]
    refine .ite_res k ?_
    cases kek with
    | none => exact .done k.draw.placeKey
    | some kek => exact .done k.draw.placeKey.useKey
  refine k.need ?_
  have h1 := k.placeCheck (c := c) (l := l) (a := a)
  generalize t.placeCheck c l a = x at h1 ⊢
  obtain ⟨_ | st, t1⟩ := x
  · change Kept s t1 at h1
    exact .ite_res (.ite_res h1 (h1.named fun k => placed (kek := some (_, _)) k)) (placed (kek := none) h1)
  · exact h1

theorem execKeyUnwrap_kept (h : Kept s t) {ch} : KeptBy s (execKeyUnwrap ch t) := by
  unfold execKeyUnwrap
  refine .next (h.runCmd fun h => h.target fun _ _ => ?_)
  split
  · exact h.placeCheck.of_snd ‹_›
  · refine .ite_res (h.placeCheck.of_snd ‹_›) ((h.placeCheck.of_snd ‹_›).named fun h => ?_)
    split
    exacts [h, h.useKey.placeKey]

theorem execKeyDerive_kept (h : Kept s t) {ch} : KeptBy s (execKeyDerive ch t) := by
  unfold execKeyDerive
  refine .next (h.runCmd fun h => h.target fun _ _ => ?_)
  split
  exacts [h.placeCheck.of_snd ‹_›, (h.placeCheck.of_snd ‹_›).named fun h => h.useKey.placeKey]

theorem execMkaDerive_kept (h : Kept s t) {ch} : KeptBy s (execMkaDerive ch t) := by
  unfold execMkaDerive
  refine .next (h.runCmd fun {t c} k => k.need (.vaultRec (k.vault ?_)))
  have h1 := k.holdsKey (w := t.cmdWing c) (l := .sess (c.w 3))
  generalize t.holdsKey (t.cmdWing c) (.sess (c.w 3)) = x at h1 ⊢
  obtain ⟨b1, t1⟩ := x
  have h2 := h1.holdsKey (w := t1.cmdWing c) (l := .sess (c.w 4))
  dsimp only at h2 ⊢
  generalize t1.holdsKey (t1.cmdWing c) (.sess (c.w 4)) = x at h2 ⊢
  obtain ⟨b2, t2⟩ := x
  exact .ite_res h2 (h2.named fun k => .good k.useKey.placeKey.placeKey)

theorem execMkaIcv_kept (h : Kept s t) {ch} : KeptBy s (execMkaIcv ch t) := by
  unfold execMkaIcv
  refine .next (h.runCmd fun k => k.need (.vaultRec (k.vault (k.named fun k => ?_))))
  exact .done k.useKey.modChan

theorem execKeyDestroy_kept (h : Kept s t) {ch} : KeptBy s (execKeyDestroy ch t) := by
  unfold execKeyDestroy
  refine .next (h.runCmd fun {t c} k => k.need ?_)
  split
  · exact k.vault (.ite_res k (.ite_res k k.endKeyClose.good))
  · exact k.vault (.ite_res k (.ite_res k.forceKey.good k.startKeyClose.wait))
  · exact k

theorem execKeyInfo_kept (h : Kept s t) {ch} : KeptBy s (execKeyInfo ch t) := by
  unfold execKeyInfo
  dsimp only
  refine .next (h.runCmd fun h => h.need ?_)
  split
  · refine .vaultRec (h.vault (h.keyBack ?_))
    split
    exacts [h.readKey, .ite_res h.readKey h.readKey, h.readKey]
  · exact h

theorem Kept.attestKey (h : Kept s t) {c l} : Kept s (t.attestKey c l).2 := by
  unfold State.attestKey
  dsimp only
  split
  exacts [h.readKey, .ite_snd h.readKey (.ite_snd h.readKey.spend h.readKey)]

theorem execAttest_kept (h : Kept s t) {ch} : KeptBy s (execAttest ch t) := by
  unfold execAttest
  refine .next (h.runCmd fun {t c} k => k.need (.vaultRec (k.vault ?_)))
  refine .ite_res k (.ite_res ?_ (.ite_res k.sign (.ite_res k k.sign)))
  split
  · next l _ =>
    refine k.need (k.keyBack ?_)
    have h1 := k.attestKey (c := c) (l := l)
    generalize t.attestKey c l = x at h1 ⊢
    obtain ⟨_ | k, t1⟩ := x
    · exact h1
    · exact .ite_res h1 h1.useKey.sign
  · exact k

theorem execAttestRest_kept (h : Kept s t) {ch} : KeptBy s (execAttestRest ch t) := .next (h.runCmd fun h => .ite_res h h)

/-! ## Life-cycle commands -/

theorem execBootStatus_kept (h : Kept s t) {ch} : KeptBy s (execBootStatus ch t) := .next (h.runCmd fun h => h)

theorem execRcbRead_kept (h : Kept s t) {ch} : KeptBy s (execRcbRead ch t) :=
  .next (h.runCmd fun h => h.need (h.vault (.ite (h.modVlt (.of_eq (by rfl))) h)))

theorem execImageWrite_kept (h : Kept s t) {ch} : KeptBy s (execImageWrite ch t) := by
  unfold execImageWrite
  refine .next (h.runCmd fun h => ?_)
  split
  exacts [h.same (by rfl), h]

theorem execImageGo_kept (h : Kept s t) {ch} : KeptBy s (execImageGo ch t) :=
  .next (h.runCmd fun h => .ite_res (h.same (by rfl)) (h.same (by rfl)))

theorem execLcStatus_kept (h : Kept s t) {ch} : KeptBy s (execLcStatus ch t) := .next (h.runCmd fun h => h.vault h)

theorem Kept.unsignedMove (h : Kept s t) {c bit} : Kept s (t.unsignedMove c bit).state := by
  unfold State.unsignedMove
  refine h.vault ?_
  split
  exacts [have h1 := h.abortVault; .ite_res h1.beginBurn h1, h]

theorem execLcAdvance_kept (h : Kept s t) {ch} : KeptBy s (execLcAdvance ch t) :=
  .next (.ite h (h.runCmd fun h => h.need h.unsignedMove))

theorem execLcRetire_kept (h : Kept s t) {ch} : KeptBy s (execLcRetire ch t) := .next (.ite h (h.runCmd fun h => h.unsignedMove))

theorem execTamperSet_kept (h : Kept s t) {ch} : KeptBy s (execTamperSet ch t) := by
  unfold execTamperSet
  refine .next (h.runCmd fun {t c} k => ?_)
  refine k.need (k.vault (.ite_res k (.ite_res k (.good (k.modVlt ?_)))))
  extract_lets m
  have hm : Memory.wf t.vlt.sram = true → Memory.wf m = true := fun x => memWr32_wf _ _ _ (memPut_wf _ _ _ x)
  clear_value m
  exact (Vault.Lasts.setSram _ hm).trans (.setMac _)

theorem execTamperGet_kept (h : Kept s t) {ch} : KeptBy s (execTamperGet ch t) := .next (h.runCmd fun h => h.vault h)

theorem execTamperRelease_kept (h : Kept s t) {ch} : KeptBy s (execTamperRelease ch t) := by
  unfold execTamperRelease
  exact .next (h.runCmd fun k => k.vault (.ite_res k (.ite_res (.good (k.modVlt (.of_eq (by rfl)))) k)))

/-! ## Memory commands -/

theorem execClassSet_kept (h : Kept s t) {ch} : KeptBy s (execClassSet ch t) := .next (h.runCmd fun h => .ite_res h.stage h)

theorem execLaneStatus_kept (h : Kept s t) {ch} : KeptBy s (execLaneStatus ch t) := .next (h.runCmd fun h => h)

theorem Kept.treeKeyCheck (h : Kept s t) {d} : Kept s (t.treeKeyCheck d).2 := by
  unfold State.treeKeyCheck
  dsimp only
  split
  exacts [h.slotKey, .ite_snd h.slotKey h.slotKey]

theorem Kept.putRegion (h : Kept s t) {r d use} : Kept s (t.putRegion r d use) :=
  .ite (have h1 := h.modRegion; .ite h1 h1.log) h.modRegion

theorem Kept.installRegion (h : Kept s t) {c r d use clean} : Kept s (t.installRegion c r d use clean).state := by
  unfold State.installRegion
  refine .ite_res h (.ite_res h (h.reaching (.ite_res h (.ite_res h (.ite_res h (.ite_res h (.ite_res h (.ite_res h (.ite_res ?_
    h.putRegion)))))))))
  split
  exacts [h.treeKeyCheck.of_snd ‹_›, (h.treeKeyCheck.of_snd ‹_›).putRegion]

theorem execRegionInstall_kept (h : Kept s t) {ch} : KeptBy s (execRegionInstall ch t) :=
  .next (h.runCmd fun h => h.installRegion)

theorem execStoreSet_kept (h : Kept s t) {ch} : KeptBy s (execStoreSet ch t) := by
  unfold execStoreSet
  refine .next (h.runCmd fun {t c} k => k.need (.ite_res k ?_))
  extract_lets ok
  split
  · next t1 _ e =>
    have h1 : Kept s t1 := k.installRegion.of_res e
    exact .good (.ite h1 h1.modWing)
  · exact k.installRegion

theorem Kept.region (h : Kept s t) {c n f} (hf : ∀ a1, Kept s (f a1).state) : Kept s (Res.region t c n f).state :=
  h.need (.ite_res h (h.reaching (hf _)))

theorem execRegionRead_kept (h : Kept s t) {ch} : KeptBy s (execRegionRead ch t) := .next (h.runCmd fun h => h.region fun _ => h)

theorem execRegionClose_kept (h : Kept s t) {ch} : KeptBy s (execRegionClose ch t) :=
  .next (h.runCmd fun h => h.region fun _ => .ite_res h (.ite_res h.forceRegion h.startRegionClose))

theorem Kept.removeRegion (h : Kept s t) {r} : Kept s (t.removeRegion r) :=
  have h1 := h.modRegion.fix
  .eachWing (.ite (h1.same (by rfl)) h1) fun h => .ite h.modWing h

theorem execRegionRemove_kept (h : Kept s t) {ch} : KeptBy s (execRegionRemove ch t) :=
  .next (h.runCmd fun h => h.region fun _ => .ite_res h.removeRegion h)

theorem execRegionPin_kept (h : Kept s t) {ch} : KeptBy s (execRegionPin ch t) := by
  unfold execRegionPin
  refine .next (h.runCmd fun {t c} k => k.region fun r => ?_)
  exact .ite_res k (.ite_res (.good k.modRegion) (.ite_res k (.ite_res
    (.ite_res (.wait k.modRegion) (.good k.modRegion)) (.ite_res k (.wait k.modRegion.modRegion)))))

theorem execMemslotLoad_kept (h : Kept s t) {ch} : KeptBy s (execMemslotLoad ch t) := by
  unfold execMemslotLoad
  refine .next (h.runCmd fun h => h.need ?_)
  split
  · refine .ite_res h (.ite_res h (.ite_res h ?_))
    split
    exacts [h.commandKey.of_snd ‹_›, .ite_res (h.commandKey.of_snd ‹_›) (((h.commandKey.of_snd ‹_›).useKey).writeSlot)]
  · exact h

/-! ## Memory events -/

theorem Kept.keyDenied (h : Kept s t) {r q addr mid why} : Kept s (t.keyDenied r q addr mid why) :=
  have h1 := h.countRegion
  .ite h1.logAddr.modMpe h1

theorem Kept.limitWrite (h : Kept s t) {q seq} : Kept s (t.limitWrite q seq) := by
  unfold State.limitWrite
  dsimp only
  split
  · exact h
  · split
    exacts [.ite h h.modAcc.keyDenied, h]

theorem Kept.feed (h : Kept s t) {q seq data strb last} : Kept s (t.feed q seq data strb last) := by
  unfold State.feed
  split
  exacts [h, have h1 := h.modAcc; .ite h1.modRqp (.ite h1.limitWrite h1)]

theorem Kept.takeBeat (h : Kept s t) {q data strb last} : Kept s (t.takeBeat q data strb last) := by
  unfold State.takeBeat
  split
  exacts [h.feed, h.modRqp]

theorem Kept.feedEarly (h : Kept s t) {n q} : Kept s (State.feedEarly n q t) := by
  induction n generalizing t with
  | zero => exact h
  | succ n ih =>
    unfold State.feedEarly
    split
    · exact h
    · exact .ite (ih h.modRqp.takeBeat) h

theorem Kept.leadLines (h : Kept s t) {w l} : Kept s (t.leadLines w l).2 := by
  induction l generalizing t with
  | nil => exact h
  | cons x l ih =>
    unfold State.leadLines
    exact ih h.leadAdmit

theorem Kept.mpeAccept (h : Kept s t) {q a slots} : Kept s (t.mpeAccept q a slots).2 := by
  unfold State.mpeAccept
  dsimp only
  split
  · exact h.log
  · refine .ite_snd h.modRqp ?_
    split
    · exact .keyDenied (.ite_snd h h.keyDenies)
    · exact
        have h1 := .ite_snd (.countWing (.ite_snd h h.keyDenies)) (.ite_snd h h.keyDenies)
        have h2 := .ite_snd h1 (.ite_snd h1 h1.leadLines)
        have h3 := .ite h2.countRegion h2
        .ite h3.modRqp h3

theorem Kept.rhlReq (h : Kept s t) {q r op} : Kept s (t.rhlReq q r op) := .ite h.rhlRec h

theorem Kept.acceptReq (h : Kept s t) {q r op} : Kept s (t.acceptReq q r op) := by
  unfold State.acceptReq
  dsimp only
  refine .ite h (.pump (.feedEarly (.admitLines (.modRqp (.ite_snd h.modRqp.rhlReq.modRqp (.ite_snd (.ite_snd
    h.modRqp.rhlReq.mgParity h.modRqp.rhlReq.mgParity.ushRefuse) ?_))))))
  split
  · exact h.modRqp.rhlReq.mgParity.usherParity.regionParity.ushRefuse
  · exact h.modRqp.rhlReq.mgParity.usherParity.regionParity.mpeAccept

theorem execMemRead_kept (h : Kept s t) {q r} : KeptBy s (execMemRead q r t) := .next h.acceptReq

theorem execMemWrite_kept (h : Kept s t) {q r} : KeptBy s (execMemWrite q r t) := .next h.acceptReq

theorem execCurtainOnly_kept (h : Kept s t) {q r} : KeptBy s (execCurtainOnly q r t) := .next h.acceptReq

theorem execWriteData_kept (h : Kept s t) {q data strb last} : KeptBy s (execWriteData q data strb last t) :=
  .ite (.next h) (.next (.pump (.takeBeat (.ite h.rhlRec h))))

theorem execRqpResponseAccepted_kept (h : Kept s t) {q} : KeptBy s (execRqpResponseAccepted q t) := .next h.modRqp

theorem Kept.rhlLine (h : Kept s t) {m x k l err data sb} : Kept s (t.rhlLine m x k l err data sb) := by
  unfold State.rhlLine
  dsimp only
  refine .ite ?_ h
  split <;> exact .rhlRec (.ite h h.takeFree)

theorem execMpRequestAccepted_kept (h : Kept s t) {m} : KeptBy s (execMpRequestAccepted m t) := by
  unfold execMpRequestAccepted
  split
  exacts [.next h, .ite (.next h) (have h1 := h.modMp; .next (.pump (.ite (h1.foldl fun h => h.rhlLine) h1)))]

theorem Kept.metaErr (h : Kept s t) {w addr write timeout} : Kept s (t.metaErr w addr write timeout) := by
  unfold State.metaErr
  split
  exacts [h, have h1 := h.log; .ite h1.wbFailed h1.metaLost]

theorem Kept.initErr (h : Kept s t) {r addr} : Kept s (t.initErr r addr) := .ite h.modRegion.purgeMeta.log.answerWaiters h

theorem Kept.mpFail (h : Kept s t) {u addr write timeout} : Kept s (t.mpFail u addr write timeout) := by
  unfold State.mpFail
  split
  · exact h.failLine
  · exact .ite h.modMpe.metaErr h
  · exact .ite h.modMpe.metaErr h
  · exact h.metaErr
  · refine .ite ?_ h.modReenc.dropItem
    split
    exacts [h.poisonAs.endBuffered, h]
  · exact h.initErr

theorem Kept.mpDone (h : Kept s t) {u write data sb} : Kept s (t.mpDone u write data sb) := by
  unfold State.mpDone
  split
  · refine .ite (.endLine ?_) h.modLine
    split
    exacts [.ite h.endBuffered h, h]
  · exact h.modMpe
  · exact h.modMpe
  · exact .ite h.endBuffered h.reencGot
  · exact h.modRegion
  · split
    exacts [h.modRegion, h]

theorem Kept.mpFailFrom (h : Kept s t) {x k timeout} : Kept s (t.mpFailFrom x k timeout) := h.foldl fun h => h.mpFail

theorem Kept.mpGone (h : Kept s t) {m x} : Kept s (t.mpGone m x) := h.modMp

theorem Kept.readBeat (h : Kept s t) {m x b} : Kept s (t.readBeat m x b) := by
  unfold State.readBeat
  split
  · exact h.mpGone
  · extract_lets sb t1 ends t2 t3
    have h2 : Kept s t2 := .ite h.rhlLine.mpGone h.rhlLine.modMp
    have h3 : Kept s t3 := .ite h2.mpFail h2.mpDone
    exact .ite h3.mpFailFrom h3

theorem Kept.writeBeat (h : Kept s t) {m x err} : Kept s (t.writeBeat m x err) :=
  have h1 := h.mpGone
  .ite h1.mpFailFrom (h1.foldl fun h => h.mpDone)

theorem execMpResponse_kept (h : Kept s t) {m b} : KeptBy s (execMpResponse m b t) := by
  unfold execMpResponse
  refine .ite (.next h) ?_
  split
  exacts [.next h.log, .next (.pump (.ite h.writeBeat h.readBeat))]

theorem execMpResponseTimeout_kept (h : Kept s t) {m aid} : KeptBy s (execMpResponseTimeout m aid t) := by
  unfold execMpResponseTimeout
  split
  exacts [.next h, .next h.mpGone.mpFailFrom.pump]

theorem execLineVerify_kept (h : Kept s t) {q tid line} : KeptBy s (execLineVerify q tid line t) := by
  unfold execLineVerify
  split
  exacts [.next h, .next h.verifyLine.pump]

theorem execPartialWrite_kept (h : Kept s t) {q tid line} : KeptBy s (execPartialWrite q tid line t) := by
  unfold execPartialWrite
  split
  exacts [.next h, .next h.mergePartial.pump]

theorem execTagRepair_kept (h : Kept s t) {q tid line} : KeptBy s (execTagRepair q tid line t) := by
  unfold execTagRepair
  split
  exacts [.next h, .next h.repairLine.pump]

theorem Kept.endCurtain (h : Kept s t) {q a status} : Kept s (t.endCurtain q a status) := by
  unfold State.endCurtain
  split
  exacts [.ite h.modAcc.countRegion h.modAcc, h.modAcc]

theorem execCurtainIssue_kept (h : Kept s t) {q tid} : KeptBy s (execCurtainIssue q tid t) := by
  unfold execCurtainIssue
  split
  exacts [.next h, .ite (.next h.endCurtain.pump) (.next h)]

theorem execCurtainVerify_kept (h : Kept s t) {q tid} : KeptBy s (execCurtainVerify q tid t) := by
  unfold execCurtainVerify
  split
  exacts [.next h, .ite (.next h.modRqp.endCurtain.pump) (.next h)]

theorem execCurtainPersist_kept (h : Kept s t) {q tid} : KeptBy s (execCurtainPersist q tid t) := by
  unfold execCurtainPersist
  split
  exacts [.next h, .ite (.next h.modRqp.endCurtain.pump) (.next h)]

theorem Kept.redoBuffered (h : Kept s t) {page} : Kept s (t.redoBuffered page) :=
  h.foldl fun h => h.foldl fun h => h.foldl fun h => .ite h.modLine.admitLine h

theorem Kept.abandon (h : Kept s t) {e page} : Kept s (t.abandon e page) := by
  unfold State.abandon
  dsimp only
  split
  exacts [h.redoBuffered.foldl fun h => .ite h.failLine h, h.redoBuffered]

theorem execPageReencrypted_kept (h : Kept s t) {w page} : KeptBy s (execPageReencrypted w page t) := by
  unfold execPageReencrypted
  split
  · exact .next h
  · exact .ite (.next h) (.ite (.next h.modMpe.dropPage.abandon.pump) (.ite (.next h) (have h1 :=
      h.modMpe.dropPage.countRegion.logAddr; .next (.pump (.ite h1.logAddr.raiseAlarm h1)))))

theorem Kept.holdZeros (h : Kept s t) {r} : Kept s (t.holdZeros r) :=
  have h1 := h.modRegion.foldl fun h => h.cacheTake
  .ite h1.modRegion h1

theorem execRegionReady_kept (h : Kept s t) {r} : KeptBy s (execRegionReady r t) :=
  .ite (.next h) (have h1 := h.modRegion; have h2 := .log (.ite h1.holdZeros h1); .next (.pump (.ite h2 h2.answerWaiters)))

theorem Kept.unpin (h : Kept s t) {r} : Kept s (t.unpin r) := h.modRegion.modMpe

theorem execPinFill_kept (h : Kept s t) {r} : KeptBy s (execPinFill r t) := by
  unfold execPinFill
  refine .ite (.next h) ?_
  split
  · exact .ite (.next h) (have h1 := h.modRegion; have h2 := .ite h1.log h1; .next (.pump (.ite h2.answerWaiters h2)))
  · exact .ite (.ite (.next h.pump) (.next h.unpin.answerWaiters.pump)) (.next h.answerWaiters)

/-! ## Port commands -/

theorem Kept.admitPort (h : Kept s t) {p} : Kept s (t.admitPort p) :=
  have h1 := h.openPort
  .ite h1.startPortClose h1

theorem Kept.openRqp (h : Kept s t) {q} : Kept s (t.openRqp q) :=
  have h1 := h.modRqp
  .ite h1.startRqpClose h1

theorem execPortOpen_kept (h : Kept s t) {ch} : KeptBy s (execPortOpen ch t) := by
  unfold execPortOpen
  refine .next (h.runCmd fun h => h.need (h.reaching ?_))
  split
  · exact h
  · refine .ite_res h (.ite_res h ?_)
    split
    exacts [h, h, h.admitPort]

theorem execPortClose_kept (h : Kept s t) {ch} : KeptBy s (execPortClose ch t) :=
  .next (h.runCmd fun h => h.need (h.reaching (.ite_res h (.ite_res h.forcePort h.startPortClose))))

theorem execPortClsSet_kept (h : Kept s t) {ch} : KeptBy s (execPortClsSet ch t) :=
  .next (h.runCmd fun h => h.need (h.reaching h.stage))

theorem execPortSpSet_kept (h : Kept s t) {ch} : KeptBy s (execPortSpSet ch t) :=
  .next (h.runCmd fun h => h.need (h.reaching h.stage))

theorem execPortGet_kept (h : Kept s t) {ch} : KeptBy s (execPortGet ch t) := .next (h.runCmd fun h => h.need (h.reaching h))

theorem execRqpOpen_kept (h : Kept s t) {ch} : KeptBy s (execRqpOpen ch t) := by
  unfold execRqpOpen
  refine .next (h.runCmd fun h => h.need (h.reaching ?_))
  split
  · exact h
  · refine .ite_res h ?_
    split
    exacts [h, h, h.openRqp]

theorem execRqpClose_kept (h : Kept s t) {ch} : KeptBy s (execRqpClose ch t) :=
  .next (h.runCmd fun h => h.need (h.reaching (.ite_res h (.ite_res h.forceRqp h.startRqpClose))))

theorem execMpTimeout_kept (h : Kept s t) {ch} : KeptBy s (execMpTimeout ch t) :=
  .next (h.runCmd fun h => h.need (h.reaching h.stage))

theorem execCloseTimeout_kept (h : Kept s t) {ch} : KeptBy s (execCloseTimeout ch t) := .next (h.runCmd fun h => h.need h.stage)

theorem execPtpSet_kept (h : Kept s t) {ch} : KeptBy s (execPtpSet ch t) := .next (h.runCmd fun h => h.need (h.reaching h.stage))

/-! ## Trie commands -/

theorem Kept.buildTrie (h : Kept s t) {w ch} : Kept s (t.buildTrie w ch).2 := by
  unfold State.buildTrie
  dsimp only
  split
  exacts [h.modTrie, h]

theorem Kept.nextCommit (h : Kept s t) {n w} : Kept s (State.nextCommit n w t) := by
  induction n generalizing t with
  | zero => exact h
  | succ n ih =>
    unfold State.nextCommit
    refine .ite ?_ h
    split
    · split
      · next e => exact h.buildTrie.of_snd e
      · next e => exact ih (h.buildTrie.of_snd e).finish
    · exact h

theorem Kept.commitRes (h : Kept s t) {w ch both res} : Kept s (t.commitRes w ch both res).state := by
  unfold State.commitRes
  refine .ite_res ?_ h
  split <;> exact h.buildTrie.of_snd ‹_›

theorem Kept.stageTrie (h : Kept s t) {w c} : Kept s (t.stageTrie w c).state := by
  unfold State.stageTrie
  exact .ite_res h h.modTrie.good

theorem execPtStage_kept (h : Kept s t) {ch} : KeptBy s (execPtStage ch t) := .next (h.runCmd fun h => h.need h.stageTrie)

theorem execGroupSet_kept (h : Kept s t) {ch} : KeptBy s (execGroupSet ch t) := .next (h.runCmd fun h => h.need h.stageTrie)

theorem execPtCommit_kept (h : Kept s t) {ch} : KeptBy s (execPtCommit ch t) := .next (h.runCmd fun h => h.commitRes)

theorem execPtDiscard_kept (h : Kept s t) {ch} : KeptBy s (execPtDiscard ch t) := by
  unfold execPtDiscard
  exact .next (h.runCmd fun k => k.modTrie.good)

theorem execPtRead_kept (h : Kept s t) {ch} : KeptBy s (execPtRead ch t) := by
  unfold execPtRead
  refine .next (h.runCmd fun h => h.need ?_)
  split
  · exact h
  · split <;> exact h

theorem execPtWriteEntry_kept (h : Kept s t) {ch} : KeptBy s (execPtWriteEntry ch t) := by
  unfold execPtWriteEntry
  refine .next (h.runCmd fun h => h.need ?_)
  split
  exacts [h.modTrie.fix, h]

theorem execPtPolicy_kept (h : Kept s t) {ch} : KeptBy s (execPtPolicy ch t) := by
  unfold execPtPolicy
  refine .next (h.runCmd fun h => h.need ?_)
  split <;> exact h

theorem execPtStatus_kept (h : Kept s t) {ch} : KeptBy s (execPtStatus ch t) := .next (h.runCmd fun h => h)

theorem execMeshEtype_kept (h : Kept s t) {ch} : KeptBy s (execMeshEtype ch t) := .next (h.runCmd fun h => h.need h.stage)

theorem execTrieSwitch_kept (h : Kept s t) {w} : KeptBy s (execTrieSwitch w t) := by
  unfold execTrieSwitch
  dsimp only
  split
  exacts [.ite (.next h) (.next ((h.same (by rfl)).modTrie)), .next h]

theorem Kept.reportCommit (h : Kept s t) {w ch} : Kept s (t.reportCommit w ch) := by
  unfold State.reportCommit
  split
  · exact .ite h (.ite h.commitRes.settle_res h.finish)
  · exact h

theorem execTrieCommitComplete_kept (h : Kept s t) {w} : KeptBy s (execTrieCommitComplete w t) := by
  unfold execTrieCommitComplete
  dsimp only
  split
  · refine .next (.nextCommit ?_)
    split
    exacts [h.modTrie.reportCommit, h.modTrie]
  · exact .next h

/-! ## Wings -/

theorem Kept.cutRelease (h : Kept s t) {p c sent} : Kept s (t.cutRelease p c sent) := by
  unfold State.cutRelease
  refine .countFrameSa ?_
  split
  exacts [h.zeroTailAt, h.zeroTail]

theorem Kept.cutDelivery (h : Kept s t) {p f c sent} : Kept s (t.cutDelivery p f c sent) :=
  h.takeFree.takeFree.unpend.countFrameSa.deliver.ptpExport.unInbound

theorem Kept.cutItem (h : Kept s t) {i c sent} : Kept s (t.cutItem i c sent) := by
  unfold State.cutItem
  split
  · split
    exacts [h.cutDelivery, h]
  · exact h

theorem Kept.cutLane (h : Kept s t) {l c sent} : Kept s (t.cutLane l c sent) :=
  (h.foldl fun h => h.cutRelease).foldl fun h => h.cutItem

theorem Kept.rereadLines (h : Kept s t) {l} : Kept s (t.rereadLines l) := by
  unfold State.rereadLines
  refine h.foldl fun h => ?_
  split
  exacts [h.modRqp, .ite h.modReenc.dropItem h, h]

theorem Kept.testNext (h : Kept s t) {w} : Kept s (t.testNext w) := by
  unfold State.testNext
  refine .ite h ?_
  split
  exacts [h.modLane.restartLane.modLane, h.modDisp]

theorem Kept.strikeLane (h : Kept s t) {l cause sent} : Kept s (t.strikeLane l cause sent) :=
  have h1 := .modLane (.ite ((((h.foldl fun h => h.markWd).cutLane).rereadLines).restartLane) h)
  have h2 := .log (.roleChanged (.reassign (.ite h1.restartLane.modLane h1)))
  have h3 := .ite h2 h2.logClosed
  .testNext (.ite h3.modDisp h3)

theorem Kept.coreLost (h : Kept s t) {c} : Kept s (t.coreLost c) := h.same (by rfl)

theorem Kept.updateLost (h : Kept s t) {c} : Kept s (t.updateLost c) := by
  unfold State.updateLost
  exact .ite h (.ite h.logBoth.adoptImage h.logBoth.setUpd)

theorem Kept.loseCore (h : Kept s t) {c} : Kept s (t.loseCore c) := by
  unfold State.loseCore
  extract_lets old ws t1 t2 t3 t4 t5
  have h1 : Kept s t1 := .ite h h.roleChanged
  have h2 : Kept s t2 := h1.modCore.disarm.coreLost
  have h3 : Kept s t3 := .ite h2.dropHand h2
  have h4 : Kept s t4 := .ite (.ite (.logBoth (h3.takeGrant.foldl fun k => k.giveWing)) (h3.foldl fun k => k.orphan)) h3.rehome
  have h5 : Kept s t5 := h4.updateLost.reassign
  exact .ite (h5.foldl fun k => k.settle) h5

theorem Kept.markCore (h : Kept s t) {c} : Kept s (t.markCore c) := h.modCore.disarm.roleChanged.logBoth

theorem Kept.pullLent (h : Kept s t) {w put} (hf : ∀ {t a2 a3}, Kept s t → Kept s (put t a2 a3)) : Kept s (t.pullLent w put) :=
  h.foldl fun h => h.modLane.foldl fun h => hf h

theorem Kept.settleLent (h : Kept s t) {w} : Kept s (t.settleLent w) :=
  ((h.modDisp.pullLent fun h => h.restartItem).foldl fun h => h.restartItem).pullLent fun h => h.modDisp

theorem Kept.cutLent (h : Kept s t) : Kept s t.cutLent :=
  h.foldl fun h => (h.foldl fun h => h.cutRelease).foldl fun h => h.cutItem

theorem Kept.endCross (h : Kept s t) {q a} : Kept s (t.endCross q a) :=
  have h1 := .ite h.modRqp h
  have h2 := .ite h1.modRqp h1
  .ite h2 (have h3 := h2.modRqp; .ite ((h3.foldl fun h => h.dropItem).modAcc) (.ite h3.modAcc.pushBeats h3.endAcc))

theorem Kept.endCrossAll (h : Kept s t) {w} : Kept s (t.endCrossAll w) := h.foldl fun h => h.foldl fun h => .ite h.endCross h

theorem Kept.endForwarded (h : Kept s t) {w} : Kept s (t.endForwarded w) := h.foldl fun h => .ite h.finish h

theorem Kept.stopUpdate (h : Kept s t) : Kept s t.stopUpdate := by
  unfold State.stopUpdate
  exact .ite h h.logBoth.setUpd

theorem Kept.setLink (h : Kept s t) {w l} : Kept s (t.setLink w l) :=
  have h1 := h.modWing.log
  .ite h1.refuseAll h1

theorem Kept.declareLost (h : Kept s t) {w cause} : Kept s (t.declareLost w cause) := by
  unfold State.declareLost
  extract_lets x far st t1 mine old t2 t3 t4 t5 t6 t7 src t8 old' t9 t10
  refine .ite h ?_
  have h2 : Kept s t2 := h.cutLent.modDisp.settleLent.modWing
  have h5 : Kept s t5 := h2.reassign.log.raiseAlarm
  have h6 : Kept s t6 := .ite h5.dropHand h5
  have h7 : Kept s t7 := h6.endCrossAll.endForwarded
  have h8 : Kept s t8 := h7.stopUpdate.setCores
  have h10 : Kept s t10 := .ite h8.rehome.reassign.refuseAll h8.rehome.reassign
  exact .ite h10.rhlFreeze h10

theorem Kept.dropJoin (h : Kept s t) : Kept s t.dropJoin := h.rawAnswer

theorem Kept.failWing (h : Kept s t) {w} : Kept s (t.failWing w) := by
  unfold State.failWing
  dsimp only
  refine .ite h ?_
  split
  exacts [h.modWing.refuseAll.declareLost, h.modWing.refuseAll.setLink, h.modWing.refuseAll.dropJoin.setLink, h.modWing.refuseAll]

theorem Kept.hearToken (h : Kept s t) {w link} : Kept s (t.hearToken w link) := by
  unfold State.hearToken
  exact
    have h1 := h.modWing
    .ite h1.declareLost h1

theorem Kept.sendBeacon (h : Kept s t) {w} : Kept s (t.sendBeacon w) := .ite h.hearToken h

theorem Kept.bridgeTick (h : Kept s t) : Kept s t.bridgeTick :=
  have h1 := h.eachWing fun h => h.sendBeacon
  have h2 := .ite (.ite h1 h1.cutLent) h1
  .ite h2.joinNow h2

/-! ## Repair -/

theorem Kept.wearCritical (h : Kept s t) {w name m} : Kept s (t.wearCritical w name m) := .ite h h.log.markCritical.raiseAlarm

theorem Kept.strikeBank (h : Kept s t) {w root ix} (e : t.strikeBank w root ix = some u) : Kept s u := by
  unfold State.strikeBank at e
  dsimp only at e
  split at e
  · cases e
  · split at e
    · cases e
      exact h.modTrie.roleChanged.log
    · cases e
      exact h.modTrie

theorem Kept.strikeCore (h : Kept s t) {c} : Kept s (t.strikeCore c) :=
  have h1 := h.markCore
  .ite h1.logBoth (.ite h1 h1.beginHand)

theorem Kept.remapSlow (h : Kept s t) {w bank} : Kept s (t.remapSlow w bank) := h.takeFree.foldl fun h => h.remapRow

theorem Kept.marginCore (h : Kept s t) {c} (e : t.marginCore c = some u) : Kept s u := by
  unfold State.marginCore at e
  dsimp only at e
  split at e
  · cases e
  · cases e
    exact (Kept.strikeCore (.updateLost (.ite h.dropHand h))).settleHand

theorem Kept.marginStrike (h : Kept s t) {un} (e : t.marginStrike un = some u) : Kept s u := by
  unfold State.marginStrike at e
  split at e
  · split at e
    · cases e
      exact h.strikeLane
    · cases e
  · exact h.strikeBank e
  · exact h.marginCore e
  · cases e
    exact h.remapSlow.modWear
  · cases e

/-! ## Repair commands -/

theorem execWearCfg_kept (h : Kept s t) {ch} : KeptBy s (execWearCfg ch t) :=
  .next (h.runCmd fun h => .ite_res h (.ite_res h h.stage))

theorem execWearReport_kept (h : Kept s t) {ch} : KeptBy s (execWearReport ch t) :=
  .next (h.runCmd fun h => h.need (h.same (by rfl)))

theorem execWearHistory_kept (h : Kept s t) {ch} : KeptBy s (execWearHistory ch t) :=
  .next (h.runCmd fun h => h.need (.ite_res h (h.reaching (h.same (by rfl)))))

theorem Kept.cmdLane (h : Kept s t) {c l} : Kept s (t.cmdLane c l).state := h.reaching (.ite_res h (.ite_res h.strikeLane h))

theorem Kept.cmdBank (h : Kept s t) {c w b} : Kept s (t.cmdBank c w b).state := by
  unfold State.cmdBank
  refine h.reaching (.ite_res h (.ite_res h ?_))
  split
  · exact h
  · next t1 e =>
    have h1 : Kept s t1 := h.strikeBank e
    exact .ite_res h1 h1

theorem Kept.cmdCore (h : Kept s t) {x} : Kept s (t.cmdCore x).state := by
  unfold State.cmdCore
  refine .ite_res h ?_
  split
  exacts [have h1 := .ite h h.strikeCore; .ite_res h1 h1, h]

theorem execStrike_kept (h : Kept s t) {ch} : KeptBy s (execStrike ch t) := by
  unfold execStrike
  refine .next (.settleHand (h.runCmd fun h => h.need (.ite_res h.cmdLane (.ite_res h.cmdCore (.ite_res ?_ h)))))
  split
  exacts [h.cmdBank, h]

theorem execHandover_kept (h : Kept s t) {ch} : KeptBy s (execHandover ch t) := by
  unfold execHandover
  refine .next (.settleHand (h.runCmd fun {t c} k => k.need ?_))
  exact .ite_res k (.ite_res k (.ite_res k (.ite_res k (.ite_res k (.ite_res k k.beginHand.wait)))))

theorem execUpdateWrite_kept (h : Kept s t) {ch} : KeptBy s (execUpdateWrite ch t) := by
  unfold execUpdateWrite
  refine .next (h.runCmd fun h => .ite_res h ?_)
  split
  exacts [h.same (by rfl), h]

theorem execUpdateGo_kept (h : Kept s t) {ch} : KeptBy s (execUpdateGo ch t) :=
  .next (h.runCmd fun h => .ite_res h (.ite_res h (.ite_res h (.ite_res (h.same (by rfl)) (.ite_res h (((h.eachWing fun h =>
    h.rhlFreeze).same (by rfl)).beginHand))))))

theorem execJoin_kept (h : Kept s t) {ch} : KeptBy s (execJoin ch t) := by
  unfold execJoin
  extract_lets t1
  have h1 : Kept s t1 := h.runCmd fun k => .ite_res k (.ite_res k k)
  exact .next (.ite h1.joinNow h1)

/-! ## Repair events -/

theorem Kept.logStruck (h : Kept s t) {w kind ix} : Kept s (t.logStruck w kind ix) := h.log

theorem Kept.logStruckPort (h : Kept s t) {w} : Kept s (t.logStruckPort w) := h.log.takeFree

theorem Kept.dropMp (h : Kept s t) {m} : Kept s (t.dropMp m) := by
  unfold State.dropMp
  exact (h.modMp.foldl fun h => h.takeFree.mpFailFrom).pump

theorem Kept.strikeUnit (h : Kept s t) {w kind ix} : Kept s (t.strikeUnit w kind ix) := h.modWing.roleChanged

theorem Kept.losePath (h : Kept s t) {w} : Kept s (t.losePath w) := by
  unfold State.losePath
  refine .ite h (.log (h.modVlt ?_))
  cases w <;> exact .of_eq (by rfl)

theorem Kept.strikeVault (h : Kept s t) : Kept s t.strikeVault := h.logBoth.strikeUnit.losePath.losePath

theorem Kept.strikePath (h : Kept s t) {w kind} : Kept s (t.strikePath w kind) := .ite h h.rhlFault.logStruck.strikeUnit.failWing

theorem Kept.watchdog (h : Kept s t) {un sent} : Kept s (t.watchdog un sent) := by
  unfold State.watchdog
  split
  case h_6 w root ix _ =>
    refine .ite h ?_
    extract_lets t1
    have h1 : Kept s t1 := h.rhlFault
    cases e : t1.strikeBank w root ix with
    | none => exact h1.logStruck.strikeUnit
    | some t2 => exact h1.strikeBank e
  · exact .ite h h.rhlFault.strikeLane
  · exact .ite h h.logStruckPort.forcePort.modPort
  · exact .ite h h.logStruckPort.forceRqp.modRqp
  · exact .ite h h.logStruckPort.modMp.dropMp
  · exact .ite h h.rhlFault.markCore.loseCore
  · exact h.strikePath
  · exact .ite h h.strikePath
  · exact h.strikePath
  · exact .ite h h.strikePath
  · exact h.losePath
  · exact h
  · exact .ite h h.strikeVault
  · exact .ite h h.rhlFault.logStruck.strikeUnit
  · exact .ite h h.rhlFault.logStruck.strikeUnit
  · exact h
  · exact h
  · exact h
  · exact h
  · exact h

theorem execStuckHandshake_kept (h : Kept s t) {u sent} : KeptBy s (execStuckHandshake u sent t) := .next (.ite h.watchdog h)

theorem execMarginSample_kept (h : Kept s t) {un margin} : KeptBy s (execMarginSample un margin t) := by
  unfold execMarginSample
  split
  · exact .next h
  · refine .ite (.next h) ?_
    extract_lets m name c t1
    have h1 : Kept s t1 := h.rhlFault.modWear
    refine .ite (.next h1) (.next ?_)
    split
    · next t2 e =>
      split at e
      · exact h1.marginStrike e
      · cases e
    · exact h1.wearCritical

theorem Kept.checkUnit (h : Kept s t) {w name} : Kept s (t.checkUnit w name) := by
  unfold State.checkUnit
  split
  exacts [h, .ite h (.modWear (.ite h.log h))]

theorem execWearCheck_kept (h : Kept s t) {w} : KeptBy s (execWearCheck w t) :=
  .ite (.next h) (.next ((h.modWing.foldl fun h => h.checkUnit).same (by rfl)))

theorem Kept.endLs (h : Kept s t) {f} : Kept s (t.endLs f) := h.same (by rfl)

theorem Kept.endLaneClose (h : Kept s t) {l} : Kept s (t.endLaneClose l) := .ite h.endLs.modLane.logClosed h

theorem Kept.promote (h : Kept s t) {l} : Kept s (t.promote l) := h.modLane.modDisp.roleChanged.reassign.testNext

theorem execUnderstudyPromotion_kept (h : Kept s t) {w pass} : KeptBy s (execUnderstudyPromotion w pass t) := by
  unfold execUnderstudyPromotion
  split
  exacts [.next h, have h1 := h.endLaneClose; .next (.ite h1.promote h1.strikeLane)]

theorem execMarchTest_kept (h : Kept s t) {w bank row faulty} : KeptBy s (execMarchTest w bank row faulty t) :=
  .next (.ite h.remapRow h)

theorem execBankStruck_kept (h : Kept s t) {w} : KeptBy s (execBankStruck w t) := by
  unfold execBankStruck
  split
  exacts [.next h, .next h.modTrie.roleChanged.roleChanged.log.answerWaiters.nextCommit]

theorem Kept.unitCloses (h : Kept s t) {u} : Kept s (t.unitCloses u) := by
  unfold State.unitCloses
  split
  · exact .ite h.modPort.endPortClose h
  · exact .ite h.endRqpClose h
  · exact .ite h.endRegionClose h
  · split
    exacts [.ite ((h.foldl fun h => .ite h.modPort h).reportSaClosed) h, h]
  · exact .ite h h.endLaneClose
  · exact h.settleHand
  · exact h.settleHand
  · exact .ite h.endKeyClose h
  · exact .ite h.endKeyClose h
  · exact h
  · exact h
  · exact h
  · exact h
  · exact h
  · exact h
  · exact h
  · exact h
  · exact h
  · exact h
  · exact h

theorem execUnitClosed_kept (h : Kept s t) {u} : KeptBy s (execUnitClosed u t) := .next (.ite h.unitCloses h)

theorem Kept.forceChan (h : Kept s t) {n} : Kept s (t.forceChan n) := by
  unfold State.forceChan
  split
  exacts [h, h.modChan.settleMap.moveChan.settleHand]

theorem Kept.forcePinWait (h : Kept s t) {r} : Kept s (t.forcePinWait r) := by
  unfold State.forcePinWait
  split
  exacts [h, (h.foldl fun h => h.foldl fun h => h.endAcc).pump]

theorem Kept.forceUnit (h : Kept s t) {u} : Kept s (t.forceUnit u) := by
  unfold State.forceUnit
  split
  · exact .ite h.forcePort h
  · exact .ite h.forceRqp h
  · exact .ite h.forceSa h
  · exact .ite (.ite h.forceRegion h.forcePinWait) h
  · exact .ite h.forceChan h
  · exact .ite h.forceKey h
  · exact .ite h.forceKey h
  · exact h.foldl fun h => .ite h.forceChan h
  · exact h
  · exact h
  · exact h
  · exact h
  · exact h
  · exact h
  · exact h
  · exact h
  · exact h
  · exact h
  · exact h
  · exact h

theorem execForcedClose_kept (h : Kept s t) {u} : KeptBy s (execForcedClose u t) := .next (.ite h.forceUnit h)

theorem Kept.takeBoth (h : Kept s t) {c} : Kept s (t.takeBoth c) := by
  unfold State.takeBoth
  exact h.takeGrant.giveWing.giveWing.logBoth.reassign

theorem Kept.coreStarted (h : Kept s t) {c} : Kept s (t.coreStarted c) := by
  unfold State.coreStarted
  extract_lets hash t1 o
  have h1 : Kept s t1 := h.modCore
  refine .ite h1.setUpd.rehome.reassign (.ite (.ite h1.takeBoth.setUpd h1.takeBoth.logBoth.adoptImage) ?_)
  split
  · exact h1.setUpd.beginHand.settleHand
  · exact h1.setUpd.beginHand.settleHand
  · exact .ite h1.setUpd h1.setUpd.beginHand.settleHand

theorem execUpdateCoreStarted_kept (h : Kept s t) : KeptBy s (execUpdateCoreStarted t) := by
  unfold execUpdateCoreStarted
  refine .next (.ite ?_ h)
  split
  exacts [h.coreStarted, h]

theorem Kept.startFails (h : Kept s t) {c} : Kept s (t.startFails c) := by
  unfold State.startFails
  dsimp only
  split
  · exact h.logBoth.setUpd.modCore
  · exact h.modCore.markCore.rehome.reassign.logBoth.adoptImage
  · exact h.modCore.markCore.rehome.reassign.setUpd.settleHand

theorem execUpdateStartTimeout_kept (h : Kept s t) : KeptBy s (execUpdateStartTimeout t) := by
  unfold execUpdateStartTimeout
  refine .next (.ite ?_ h)
  split
  exacts [.ite h.startFails h, h]

/-! ## Port events -/

theorem Kept.logSide (h : Kept s t) {e x} : Kept s (t.logSide e x) := by
  unfold State.logSide
  split
  exacts [h.log, h.log, h.log, h.log, h]

theorem Kept.forceSide (h : Kept s t) {e x} : Kept s (t.forceSide e x) := by
  unfold State.forceSide
  refine .ite ?_ h
  split
  exacts [h.logSide.forcePort, h.logSide.forcePort, h.logSide.forceRqp, h.logSide.dropMp, h.logSide]

theorem Kept.holdSide (h : Kept s t) {x} : Kept s (t.holdSide x) := by
  unfold State.holdSide
  split
  exacts [h.modPort, h.modPort, h.modRqp, h.modMp, h.same (by rfl), h.same (by rfl), h.resetCp, h.same (by rfl)]

theorem execPortReset_kept (h : Kept s t) {x} : KeptBy s (execPortReset x t) := .next (.ite h (.holdSide (.ite h.forceSide h)))

theorem execPortResetRelease_kept (h : Kept s t) {x} : KeptBy s (execPortResetRelease x t) := by
  unfold execPortResetRelease
  refine .next (.ite h ?_)
  split
  exacts [h.modPort, h.modPort, h.modRqp, h.modMp, h.same (by rfl), h.same (by rfl), h.same (by rfl), h.same (by rfl)]

theorem execPortClockLost_kept (h : Kept s t) {x} : KeptBy s (execPortClockLost x t) := by
  unfold execPortClockLost
  refine .next (.ite h ?_)
  split
  exacts [.ite h h.logSide.modMp.dropMp, h.forceSide]

/-! ## Power -/

theorem Kept.sleepQueues (h : Kept s t) : Kept s t.sleepQueues := .ite ((h.same (by rfl)).foldl fun h => h.settleMap) h

theorem Kept.sleepIdle (h : Kept s t) : Kept s t.sleepIdle := .ite h.sleepQueues h

theorem Kept.dropFailedRoots (h : Kept s t) : Kept s t.dropFailedRoots := by
  unfold State.dropFailedRoots
  exact h.foldl fun k => .ite (k.modVlt (.setRegionRec _ _ _)) k

/-! ## Vault events -/

theorem Kept.rootsDone (h : Kept s t) {rs} : Kept s (t.rootsDone rs) := h.foldl fun h => h.modRegion

theorem execJournalCommit_kept (h : Kept s t) {cut} : KeptBy s (execJournalCommit cut t) := by
  unfold execJournalCommit
  refine .ite (.next h) (.ite (.next (h.modVlt (.of_eq (by rfl))).rootsDone) (.next ?_))
  exact (h.modVlt (.of_eq (by rfl))).commitRecord fun k => (k.modVlt (.applyRoots _ _ _)).rootsDone.pump

theorem Kept.burnNow (h : Kept s t) {b} : Kept s (t.burnNow b) := h.modVlt (.burnCopy _ _ _)

theorem Kept.endBurn (h : Kept s t) : Kept s t.endBurn := h.modVlt (.of_eq (by rfl))

theorem execFuseCopy_kept (h : Kept s t) : KeptBy s (execFuseCopy t) := by
  unfold execFuseCopy
  split
  · exact .next h
  · exact
      have h1 := h.burnNow
      .next (.ite h1.endBurn (.ite h1.finishMove (.ite (h1.modVlt (.of_eq (by rfl))) h1.stopBurn.endBurn)))

theorem Kept.railLost (h : Kept s t) {burnt} : Kept s (t.railLost burnt) := by
  unfold State.railLost
  split
  · exact h
  · extract_lets t1
    have h1 : Kept s t1 := .ite h.burnNow h
    exact .ite h1.endBurn (.ite h1.finishMove h1.stopBurn.endBurn)

theorem execFuseVppLoss_kept (h : Kept s t) {burnt} : KeptBy s (execFuseVppLoss burnt t) := by
  unfold execFuseVppLoss
  exact .next h.cutHashes.setPwr.railLost

theorem Vault.Lasts.endChip (v : Vault) (samples : List Bool) : v.Lasts (v.endChip samples) := by
  unfold Vault.endChip
  exact .of_eq (by rfl)

theorem execTamperChip_kept (h : Kept s t) {samples} : KeptBy s (execTamperChip samples t) := by
  unfold execTamperChip
  exact .next (.ite h (h.modVlt (.endChip _ _)))

theorem execTamperWindow_kept (h : Kept s t) : KeptBy s (execTamperWindow t) :=
  .next (.ite h (.ite (h.modVlt (.of_eq (by rfl))) (.ite h ((((((h.modVlt (.of_eq (by rfl))).sense).sense).sense).sense).sense))))

theorem execRtCopy_kept (h : Kept s t) : KeptBy s (execRtCopy t) := .next (.ite h.copyRt h)

theorem execMaskRefresh_kept (h : Kept s t) : KeptBy s (execMaskRefresh t) := .next (.ite (h.modVlt (.of_eq (by rfl))) h)

theorem execDrbgReseed_kept (h : Kept s t) : KeptBy s (execDrbgReseed t) := .next (.ite (h.modVlt (.of_eq (by rfl))) h)

theorem execEntropyFail_kept (h : Kept s t) : KeptBy s (execEntropyFail t) :=
  .next (.ite ((h.modVlt (.of_eq (by rfl))).entropyFailed) h)

theorem execKeyExpiry_kept (h : Kept s t) {ref} : KeptBy s (execKeyExpiry ref t) := by
  unfold execKeyExpiry
  split
  · exact .next h
  · refine .next ?_
    split
    exacts [h, .ite h h.spend]

theorem execVaultPathRestored_kept (h : Kept s t) {w} : KeptBy s (execVaultPathRestored w t) := by
  unfold execVaultPathRestored
  refine .next (.ite h (h.modVlt ?_))
  cases w <;> exact .of_eq (by rfl)

/-! ## Power events -/

theorem execCoreRstN_kept (h : Kept s t) : KeptBy s (execCoreRstN t) := .next (.same (.ite h h.coreReset) (by rfl))

theorem execResetHold_kept (h : Kept s t) : KeptBy s (execResetHold t) := .next (.ite (h.same (by rfl)) h)

theorem execStartUp_kept (h : Kept s t) {o} : KeptBy s (execStartUp o t) :=
  .ite (.next h) (have h1 := h.same (by rfl); .next (.ite h1.startUp h1))

theorem Kept.unitTests (h : Kept s t) {bad} : Kept s (t.unitTests bad) :=
  (h.foldl fun h => .ite h h.strikeLane).eachWing fun h => .ite h.failWing.modWing h

theorem execScriptReady_kept (h : Kept s t) {bad} : KeptBy s (execScriptReady bad t) :=
  .ite (.next h) (.next ((((h.same (by rfl)).modVlt (.of_eq (by rfl))).eachWing fun h => h.modWing).unitTests))

theorem execSleepEntry_kept (h : Kept s t) : KeptBy s (execSleepEntry t) :=
  .ite (.next h) (have h1 := (h.eachWing fun h => h.rhlFault).same (by rfl); .ite (.next ((h1.stopUpdate.foldl fun h => .ite
    h.startPortClose h).foldl fun h => h.startRqpClose)) (.next h1))

theorem execSlpAck_kept (h : Kept s t) : KeptBy s (execSlpAck t) :=
  .ite (.next h) (.ite (have h1 := h.sleepQueues; .next (.ite h1.dropFailedRoots.toSleep h1.pump)) (.next h.toSleep))

theorem Kept.loseVddh (h : Kept s t) : Kept s t.loseVddh := by
  unfold State.loseVddh
  extract_lets burnt t1 t2 pwr t3 t4
  have h1 : Kept s t1 := .ite h.takeFree h
  have h4 : Kept s t4 := h1.cutHashes.setPwr.railLost
  clear_value t4
  exact h4.modVlt (.of_eq (by rfl))

theorem execSupplyExcursion_kept (h : Kept s t) {x above} : KeptBy s (execSupplyExcursion x above t) := by
  unfold execSupplyExcursion
  dsimp only
  refine .next ?_
  split
  · exact .ite h.sense (.ite h (h.haltRt.same (by rfl)))
  · exact .ite h (.ite h.sense (h.setCond.vddvDip.modVlt (.of_eq (by rfl))))
  · exact .ite h (have h1 := h.loseVddh; .ite h1.sense h1)

theorem execVddcLoss_kept (h : Kept s t) : KeptBy s (execVddcLoss t) :=
  .ite (.next h) (.next (.same (.haltRt (.coreReset (.ite h.cutBurn.sense h))) (by rfl)))

theorem execVddvLoss_kept (h : Kept s t) : KeptBy s (execVddvLoss t) := by
  unfold execVddvLoss
  refine .next (h.coreReset.lasts ?_)
  exact .of_sram (fun _ => rfl) rfl

theorem Kept.answerDip (h : Kept s t) : Kept s t.answerDip := by
  unfold State.answerDip
  split
  exacts [((h.modVlt (.of_eq (by rfl))).detect).setCond, h.setCond]

theorem Kept.findVddh (h : Kept s t) : Kept s t.findVddh := .ite h h.sense

theorem execSupplyPresent_kept (h : Kept s t) {x} : KeptBy s (execSupplyPresent x t) := by
  unfold execSupplyPresent
  refine .next ?_
  split
  exacts [.setCond (.ite h (h.same (by rfl))), .ite h.setCond (((h.same (by rfl)).answerDip).findVddh), (h.same (by rfl)).setCond]

theorem execTempSource_kept (h : Kept s t) {hot} : KeptBy s (execTempSource hot t) := .next (.ite h.sense h)

theorem execPwrStatus_kept (h : Kept s t) {ch} : KeptBy s (execPwrStatus ch t) :=
  .next (h.runCmd fun h => h.reaching h.takeFree.takeFree)

/-! ## Rehearsal commands -/

theorem Kept.rhlSet (h : Kept s t) {ch action body} (hf : ∀ {t a2}, Kept s t → Kept s (body t a2).state) : Kept s (t.rhlSet ch
    action body) :=
  h.runSel fun h => h.need (hf h)

theorem execRhlStop_kept (h : Kept s t) {ch} : KeptBy s (execRhlStop ch t) := .next (h.rhlSet fun h => h.stage)

theorem execRhlStartTrace_kept (h : Kept s t) {ch} : KeptBy s (execRhlStartTrace ch t) :=
  .next (h.rhlSet fun h => .ite_res h (.ite_res h (.ite_res h h.stage)))

theorem execRhlStartRecord_kept (h : Kept s t) {ch} : KeptBy s (execRhlStartRecord ch t) :=
  .next (h.rhlSet fun h => .ite_res h (.ite_res h (.ite_res h h.stage)))

theorem execRhlSetTarget_kept (h : Kept s t) {ch} : KeptBy s (execRhlSetTarget ch t) :=
  .next (h.rhlSet fun h => .ite_res h h.stage)

theorem execRhlStatus_kept (h : Kept s t) {ch} : KeptBy s (execRhlStatus ch t) := .next (h.runCmd fun h => h)

theorem execRhlExport_kept (h : Kept s t) {ch} : KeptBy s (execRhlExport ch t) :=
  .next (h.runCmd fun h => .ite_res h (.ite_res h (.ite_res h h)))

theorem Kept.loadSnap (h : Kept s t) {w x} : Kept s (t.loadSnap w x) := (h.same (by rfl)).modWing

theorem Kept.quietOutputs (h : Kept s t) {w} : Kept s (t.quietOutputs w) := by
  unfold State.quietOutputs
  exact h.same (by rfl)

theorem execRhlReplay_kept (h : Kept s t) {ch} : KeptBy s (execRhlReplay ch t) := by
  unfold execRhlReplay
  refine .next (h.runCmd fun {t c} k => k.need (k.reaching (.ite_res k (.ite_res k ?_))))
  split
  · exact k.takeFree
  · split
    · exact k.takeFree
    · exact .good k.takeFree.loadSnap.quietOutputs.modRhl

theorem execRhlResume_kept (h : Kept s t) {ch} : KeptBy s (execRhlResume ch t) :=
  .next (h.runCmd fun h => .ite_res h (.ite_res h h.startRhl))

/-! ## Rehearsal events -/

theorem execRhlSnapshotDone_kept (h : Kept s t) {w} : KeptBy s (execRhlSnapshotDone w t) := by
  unfold execRhlSnapshotDone
  refine .ite (.next h) (.next ?_)
  split
  exacts [h.modRhl.rhlFreeze, h.modRhl]

theorem execRhlBlockSpill_kept (h : Kept s t) {w _ok} : KeptBy s (execRhlBlockSpill w _ok t) := by
  unfold execRhlBlockSpill
  dsimp only
  split
  · exact .next h
  · refine .ite (.next h) (.ite (.next h.rhlFreeze) ?_)
    split
    · exact .next h
    · split
      exacts [.next h, have h1 := h.ownTaken; .ite (.next h1.rhlFreeze) (.next h1.modRhl)]

theorem execRhlPostBlocks_kept (h : Kept s t) {w} : KeptBy s (execRhlPostBlocks w t) := .next (.ite h.rhlStop h)

theorem Kept.diverge (h : Kept s t) {w kind} : Kept s (t.diverge w kind) := h.modRhl

theorem Kept.replayInput (h : Kept s t) {w type clear sealed} : Kept s (t.replayInput w type clear sealed) := by
  unfold State.replayInput
  extract_lets t1
  have h1 : Kept s t1 := by
    cases e : Config.replayed (t.snapshot w) type clear sealed with
    | none => simpa [t1, e] using h
    | some x => simpa [t1, e] using h.loadSnap
  exact h1.takeFree.foldl fun k => k.log

theorem Kept.standIn (h : Kept s t) {w sealed} : Kept s (t.standIn w sealed) := by
  unfold State.standIn
  dsimp only
  exact h.draw.modRhl

theorem Kept.replayRcd (h : Kept s t) {w type dt clear sealed} : Kept s (t.replayRcd w type dt clear sealed) := by
  unfold State.replayRcd
  extract_lets t1 agree t2 t3
  have h1 : Kept s t1 := h.modRhl
  have h2 : Kept s t2 := .ite h1.standIn h1
  have h3 : Kept s t3 := by
    refine .ite ?_ h2
    cases unitOf (leNat (clear.drop 1)) with
    | none => exact h2
    | some un => exact h2.watchdog
  exact .ite h1 (.ite (.ite h1.modRhl h1.diverge) (.ite (.ite h1.takeFree h1.takeFree.diverge)
    (.ite (.ite h1.takeFree h1.takeFree.diverge) h3.replayInput)))

theorem execRhlReplayRecord_kept (h : Kept s t) {w r} : KeptBy s (execRhlReplayRecord w r t) := by
  unfold execRhlReplayRecord
  refine .ite (.next h) ?_
  split
  exacts [.next h.replayRcd, .next (.ite h.modRhl h.diverge), .next h.modRhl]

/-! ## SA commands -/

theorem Kept.installKey (h : Kept s t) {w sai r} : Kept s (t.installKey w sai r).2 := by
  unfold State.installKey
  dsimp only
  split
  · split
    exacts [h.readKey, .ite_snd h.readKey (.ite_snd h.readKey (.ite_snd h.readKey.spend h.readKey))]
  · exact h

theorem execSaInstall_kept (h : Kept s t) {ch} : KeptBy s (execSaInstall ch t) := by
  unfold execSaInstall
  refine .next (h.runCmd fun h => h.need (.ite_res h (.ite_res h (.ite_res h (.ite_res h (.ite_res h (.ite_res h (h.keyBack
    ?_))))))))
  split
  exacts [h.installKey.of_snd ‹_›, (h.installKey.of_snd ‹_›).stage]

theorem execSaModify_kept (h : Kept s t) {ch} : KeptBy s (execSaModify ch t) :=
  .next (h.runCmd fun h => h.need (.ite_res h (.ite_res h (.ite_res h (.ite_res h h.stage)))))

theorem execSaRead_kept (h : Kept s t) {ch} : KeptBy s (execSaRead ch t) := by
  unfold execSaRead
  refine .next (h.runCmd fun h => h.need (.ite_res h ?_))
  split
  exacts [h.needSa, h]

theorem Kept.onSa (h : Kept s t) {c f} (hf : ∀ a1, Kept s (f a1).state) : Kept s (t.onSa c f).state :=
  h.need (.ite_res h (.ite_res h (hf _)))

theorem execSaSwitch_kept (h : Kept s t) {ch} : KeptBy s (execSaSwitch ch t) :=
  .next (h.runCmd fun h => h.onSa fun _ => .ite_res h (.ite_res h (.ite_res h (h.foldl fun h => h.switchSa))))

theorem execSaClose_kept (h : Kept s t) {ch} : KeptBy s (execSaClose ch t) :=
  .next (h.runCmd fun h => h.onSa fun _ => .ite_res h (.ite_res (h.foldl fun h => h.forceSa) (h.foldl fun h => h.startSaClose)))

theorem execSaRemove_kept (h : Kept s t) {ch} : KeptBy s (execSaRemove ch t) :=
  .next (h.runCmd fun h => h.onSa fun _ => .ite_res h (h.foldl fun h => h.modWing.fix))

/-! ## System commands -/

theorem execNop_kept (h : Kept s t) {ch} : KeptBy s (execNop ch t) := .next (h.runCmd fun h => h)

theorem execCurtain_kept (h : Kept s t) {ch} : KeptBy s (execCurtain ch t) := .next (h.runCmd fun h => h.curtain)

theorem execInfo_kept (h : Kept s t) {ch} : KeptBy s (execInfo ch t) := .next (h.runCmd fun h => h)

theorem execChanOwn_kept (h : Kept s t) {ch} : KeptBy s (execChanOwn ch t) :=
  .next (h.runCmd fun h => .ite_res h (h.need (.ite_res h h.modHead)))

theorem execChanLock_kept (h : Kept s t) {ch} : KeptBy s (execChanLock ch t) :=
  .next (h.runCmd fun h => .ite_res h (h.need (h.foldl fun h => .ite h.modChan h)))

theorem Kept.remap (h : Kept s t) {n w} : Kept s (t.remap n w) := h.modChan

theorem execChanMap_kept (h : Kept s t) {ch} : KeptBy s (execChanMap ch t) := by
  unfold execChanMap
  exact .next (h.runCmd fun k => k.need (.ite_res k (.good (k.foldl fun k => k.remap))))

theorem execEvtRoute_kept (h : Kept s t) {ch} : KeptBy s (execEvtRoute ch t) := by
  unfold execEvtRoute
  exact .next (h.runCmd fun k => k.need k.modWing.good)

theorem execStatsRead_kept (h : Kept s t) {ch} : KeptBy s (execStatsRead ch t) := by
  unfold execStatsRead
  refine .next (h.runCmd fun h => h.need ?_)
  split
  exacts [h.reaching h, h]

theorem execDiagEcho_kept (h : Kept s t) {ch} : KeptBy s (execDiagEcho ch t) := .next (h.runCmd fun h => h)

theorem execDiagMark_kept (h : Kept s t) {ch} : KeptBy s (execDiagMark ch t) := .next (h.runCmd fun h => h.log)

/-! ## The test port -/

theorem Kept.tapScan (h : Kept s t) {f} : Kept s (t.tapScan f) := .ite (h.same (by rfl)) h

theorem execTapBypass_kept (h : Kept s t) {tdi} : KeptBy s (execTapBypass tdi t) := .next h.tapScan

theorem execTapIdcode_kept (h : Kept s t) {tdi} : KeptBy s (execTapIdcode tdi t) := .next h.tapScan

theorem execTapSample_kept (h : Kept s t) {pins tdi} : KeptBy s (execTapSample pins tdi t) := .next h.tapScan

theorem execTapExtest_kept (h : Kept s t) {pins tdi} : KeptBy s (execTapExtest pins tdi t) := .next h.tapScan

theorem execTapTestAccess_kept (h : Kept s t) {code tdi} : KeptBy s (execTapTestAccess code tdi t) := by
  unfold execTapTestAccess
  refine .ite (.next h) (.ite ?_ (.next h.logBoth.tapScan))
  rintro _ ⟨⟩

/-! ## Time commands -/

theorem execPrmCfg_kept (h : Kept s t) {ch} : KeptBy s (execPrmCfg ch t) := .next (h.runCmd fun h => h.need h.stage)

theorem execPrmStatus_kept (h : Kept s t) {ch} : KeptBy s (execPrmStatus ch t) := .next (h.runCmd fun h => .ite h h.takeFree)

theorem execPrmAtPps_kept (h : Kept s t) {ch} : KeptBy s (execPrmAtPps ch t) := by
  unfold execPrmAtPps
  exact .next (h.runSel fun k => k.need (.ite_res k k.modPrm.good))

theorem execPrmSetOffset_kept (h : Kept s t) {ch} : KeptBy s (execPrmSetOffset ch t) :=
  .next (h.runSel fun h => h.need (.ite_res h h.stage))

theorem execToutSet_kept (h : Kept s t) {ch} : KeptBy s (execToutSet ch t) := by
  unfold execToutSet
  dsimp only
  refine .next (h.runCmd fun h => ?_)
  split
  exacts [h.stage, h]

theorem execToutGet_kept (h : Kept s t) {ch} : KeptBy s (execToutGet ch t) := .next (h.runCmd fun h => h.need (.ite_res h h))

theorem execTsExportRead_kept (h : Kept s t) {ch} : KeptBy s (execTsExportRead ch t) := by
  unfold execTsExportRead
  exact .next (h.runCmd fun k => .done k.modWing)

/-! ## Time events -/

theorem Kept.discipline (h : Kept s t) {w tod keepF} : Kept s (t.discipline w tod keepF) :=
  have h1 := h.modPrm
  .ite h1.log.modPrm h1

theorem Kept.stepArmed (h : Kept s t) {w tod} : Kept s (t.stepArmed w tod) := (h.foldl fun h => h.stepPrompt).modPrm

theorem Kept.usedEdge (h : Kept s t) {w tod} : Kept s (t.usedEdge w tod) := by
  unfold State.usedEdge
  dsimp only
  split
  · exact h.modPrm.modPrm.copyRt.log.dropOldEpoch
  · exact .ite h.modPrm.stepArmed h.modPrm.discipline
  · exact
      have h1 := h.modPrm.modPrm.log
      .ite h1.stepArmed h1.discipline.modPrm

theorem execTodPps_kept (h : Kept s t) {w t'} : KeptBy s (execTodPps w t' t) :=
  .ite (.next h) (have h1 := h.modPrm; .ite (.next h1.countWing) (have h2 := h1.rhlRec; .ite (.next h2.countWing) (.ite (.next
    h2) (.next h2.usedEdge))))

theorem Kept.holdover (h : Kept s t) {w} : Kept s (t.holdover w) := .ite h.modPrm.log h

theorem execTodLock_kept (h : Kept s t) {w} : KeptBy s (execTodLock w t) := .next (.ite h.holdover h)

theorem execPrmHoldover_kept (h : Kept s t) {w} : KeptBy s (execPrmHoldover w t) := .next (.ite h.holdover h)

theorem execPrmClockLost_kept (h : Kept s t) {w} : KeptBy s (execPrmClockLost w t) := .ite (.next h) (.next h.holdover.modPrm.log)

theorem execCueFire_kept (h : Kept s t) {c} : KeptBy s (execCueFire c t) := .next (.ite h.fireCue h)

theorem execCuePulseEnd_kept (h : Kept s t) {c} : KeptBy s (execCuePulseEnd c t) := .next (.ite h.modCue h)

/-! ## Usher commands -/

theorem Kept.modUsh (h : Kept s t) {w f} : Kept s (t.modUsh w f) := h.modWing

theorem Kept.stageUsh (h : Kept s t) {ch o body} (hf : ∀ {t a2}, Kept s t → Kept s (body t a2).state) : Kept s (t.stageUsh ch o
    body) :=
  .ite h (h.runCmd fun h => hf h)

theorem execUshRule_kept (h : Kept s t) {ch} : KeptBy s (execUshRule ch t) := .next (h.stageUsh fun h => .ite_res h.modUsh.fix h)

theorem execUshDefault_kept (h : Kept s t) {ch} : KeptBy s (execUshDefault ch t) :=
  .next (h.stageUsh fun h => .ite_res h.modUsh.fix h)

theorem execUshMgmap_kept (h : Kept s t) {ch} : KeptBy s (execUshMgmap ch t) :=
  .next (h.stageUsh fun h => h.need (h.foldl fun h => h.modUsh.foldl fun h => h.fix))

theorem execUshMode_kept (h : Kept s t) {ch} : KeptBy s (execUshMode ch t) := by
  unfold execUshMode
  exact .next (h.stageUsh fun k => k.need k.modUsh.good)

theorem execUshDiscard_kept (h : Kept s t) {ch} : KeptBy s (execUshDiscard ch t) := .next (h.stageUsh fun h => h.modUsh)

theorem execUshRead_kept (h : Kept s t) {ch} : KeptBy s (execUshRead ch t) := .next (h.runCmd fun h => h.need h)

theorem Kept.ushStart (h : Kept s t) {w ch both} : Kept s (t.ushStart w ch both).state := by
  unfold State.ushStart
  extract_lets u bad t1
  have h1 : Kept s t1 := h.foldl fun k => k.logUsher
  refine .ite_res h (.ite_res h.countWing ?_)
  split
  · exact .done h1.countWing
  · exact .wait h1.modUsh

theorem execUshCommit_kept (h : Kept s t) {ch} : KeptBy s (execUshCommit ch t) := .next (h.runCmd fun h => h.ushStart)

theorem Kept.nextUsh (h : Kept s t) {n w} : Kept s (State.nextUsh n w t) := by
  induction n generalizing t with
  | zero => exact h
  | succ n ih =>
    unfold State.nextUsh
    refine .ite h ?_
    split
    · exact h
    · split
      · split
        · next e => exact ih (.finish (h.ushStart.of_res e))
        · next e => exact h.ushStart.of_res e
        · next e => exact h.ushStart.of_res e
      · exact h

theorem execUshBankSwitch_kept (h : Kept s t) {w} : KeptBy s (execUshBankSwitch w t) := by
  unfold execUshBankSwitch
  extract_lets t1 u t2 t3
  have h1 : Kept s t1 := h.pumpDrain
  have h2 : Kept s t2 := h1.usherSwitch.mgCompare
  refine .ite (.next h1) (.next (.nextUsh ?_))
  dsimp only [t3]
  split
  · exact h2
  · split
    · exact .ite h2 (.ite h2.ushStart.settle_res h2.finish)
    · exact h2

theorem execUshDrainTimeout_kept (h : Kept s t) {w} : KeptBy s (execUshDrainTimeout w t) := by
  unfold execUshDrainTimeout
  dsimp only
  split
  · refine .next (.nextUsh ?_)
    split
    · split
      exacts [.ite h.pumpDrain.modUsh.countWing.log.finish h.pumpDrain.modUsh.countWing.log, h.pumpDrain.modUsh.countWing.log]
    · exact h.pumpDrain.modUsh.countWing.log
  · exact .next h.pumpDrain

theorem execUshFaultSummary_kept (h : Kept s t) {w} : KeptBy s (execUshFaultSummary w t) := .ite (.next h) (.next h.log.modUsh)

/-! ## Wing events -/

theorem Kept.restartLost (h : Kept s t) : Kept s t.restartLost := by
  unfold State.restartLost
  dsimp only
  refine .ite h ?_
  split
  · exact h.takeFree.modLane.restartItem
  · split
    exacts [h.takeFree.dropItem.modLine.admitLine, h.takeFree.dropItem.modLine]
  · exact h.takeFree

theorem execBridgeToken_kept (h : Kept s t) {w t' parityOk} : KeptBy s (execBridgeToken w t' parityOk t) :=
  .ite (.next h) (.ite (.ite (have h1 := h.countWing.rhlFault.modWing; have h2 := .ite h1.restartLost h1; .next (.ite
    h2.declareLost h2)) (.next h)) (.next h.takeFree.rhlRec.rhlRec.hearToken))

theorem execBridgeSilence_kept (h : Kept s t) {w} : KeptBy s (execBridgeSilence w t) := by
  unfold execBridgeSilence
  refine .ite (.next h) ?_
  split
  exacts [.next h.declareLost, .next h.dropJoin.setLink, .next h, .next h]

theorem execLivenessMark_kept (h : Kept s t) {w} : KeptBy s (execLivenessMark w t) := by
  unfold execLivenessMark
  extract_lets t1 far
  have h1 : Kept s t1 := by
    refine h.modVlt ?_
    cases w <;> exact .of_eq (by rfl)
  exact .ite (.next h) (.next (.ite h1.setLink h1))

theorem execFarMarkStale_kept (h : Kept s t) {w} : KeptBy s (execFarMarkStale w t) := .ite (.next h.setLink) (.next h)

theorem execRejoinReady_kept (h : Kept s t) {w} : KeptBy s (execRejoinReady w t) := .ite (.next h.modWing.log) (.next h)

theorem execHeartbeat_kept (h : Kept s t) {c} : KeptBy s (execHeartbeat c t) := .ite (.next h) (.next h.modCore)

theorem execHeartbeatMiss_kept (h : Kept s t) {c} : KeptBy s (execHeartbeatMiss c t) :=
  .ite (.next h) (have h1 := h.modCore; .next (.ite h1.rhlFault.loseCore h1))

/-! ## All commands -/

theorem exec_kept (h : Kept s t) {i} : KeptBy s (exec i t) := by
  cases i with
  | nop => exact execNop_kept h
  | curtain => exact execCurtain_kept h
  | info => exact execInfo_kept h
  | chanOwn => exact execChanOwn_kept h
  | chanLock => exact execChanLock_kept h
  | chanMap => exact execChanMap_kept h
  | evtRoute => exact execEvtRoute_kept h
  | storeSet => exact execStoreSet_kept h
  | statsRead => exact execStatsRead_kept h
  | portOpen => exact execPortOpen_kept h
  | portClose => exact execPortClose_kept h
  | portClsSet => exact execPortClsSet_kept h
  | portSpSet => exact execPortSpSet_kept h
  | portGet => exact execPortGet_kept h
  | rqpOpen => exact execRqpOpen_kept h
  | rqpClose => exact execRqpClose_kept h
  | mpTimeout => exact execMpTimeout_kept h
  | closeTimeout => exact execCloseTimeout_kept h
  | saInstall => exact execSaInstall_kept h
  | saModify => exact execSaModify_kept h
  | saRead => exact execSaRead_kept h
  | saSwitch => exact execSaSwitch_kept h
  | saClose => exact execSaClose_kept h
  | saRemove => exact execSaRemove_kept h
  | ptStage => exact execPtStage_kept h
  | groupSet => exact execGroupSet_kept h
  | ptCommit => exact execPtCommit_kept h
  | ptDiscard => exact execPtDiscard_kept h
  | ptRead => exact execPtRead_kept h
  | ptWriteEntry => exact execPtWriteEntry_kept h
  | ptPolicy => exact execPtPolicy_kept h
  | ptStatus => exact execPtStatus_kept h
  | meshEtype => exact execMeshEtype_kept h
  | boxInsert => exact execBoxInsert_kept h
  | boxUpdate => exact execBoxUpdate_kept h
  | boxRemove => exact execBoxRemove_kept h
  | boxLookup => exact execBoxLookup_kept h
  | boxReadSlot => exact execBoxReadSlot_kept h
  | boxTtl => exact execBoxTtl_kept h
  | grqList => exact execGrqList_kept h
  | grqRead => exact execGrqRead_kept h
  | grqDrop => exact execGrqDrop_kept h
  | grqRelease => exact execGrqRelease_kept h
  | grqTimeout => exact execGrqTimeout_kept h
  | classSet => exact execClassSet_kept h
  | laneStatus => exact execLaneStatus_kept h
  | regionInstall => exact execRegionInstall_kept h
  | regionRead => exact execRegionRead_kept h
  | regionClose => exact execRegionClose_kept h
  | regionRemove => exact execRegionRemove_kept h
  | regionPin => exact execRegionPin_kept h
  | memslotLoad => exact execMemslotLoad_kept h
  | ushRule => exact execUshRule_kept h
  | ushDefault => exact execUshDefault_kept h
  | ushMgmap => exact execUshMgmap_kept h
  | ushMode => exact execUshMode_kept h
  | ushCommit => exact execUshCommit_kept h
  | ushRead => exact execUshRead_kept h
  | ushDiscard => exact execUshDiscard_kept h
  | devKeys ch => exact execDevKeys_kept (ch := ch) h
  | kumPart => exact execKumPart_kept h
  | installKey => exact execInstallKey_kept h
  | destroyKey => exact execDestroyKey_kept h
  | ownerRotate => exact execOwnerRotate_kept h
  | reinstate => exact execReinstate_kept h
  | lcMove => exact execLcMove_kept h
  | ownerEnrol => exact execOwnerEnrol_kept h
  | blobLoad => exact execBlobLoad_kept h
  | classAUnload => exact execClassAUnload_kept h
  | keyGenerate => exact execKeyGenerate_kept h
  | keyUnwrap => exact execKeyUnwrap_kept h
  | keyDerive => exact execKeyDerive_kept h
  | mkaDerive => exact execMkaDerive_kept h
  | mkaIcv => exact execMkaIcv_kept h
  | keyDestroy => exact execKeyDestroy_kept h
  | keyInfo => exact execKeyInfo_kept h
  | attest => exact execAttest_kept h
  | attestRest => exact execAttestRest_kept h
  | bootStatus => exact execBootStatus_kept h
  | rcbRead => exact execRcbRead_kept h
  | imageWrite => exact execImageWrite_kept h
  | imageGo => exact execImageGo_kept h
  | lcStatus => exact execLcStatus_kept h
  | lcAdvance => exact execLcAdvance_kept h
  | lcRetire => exact execLcRetire_kept h
  | tamperSet => exact execTamperSet_kept h
  | tamperGet => exact execTamperGet_kept h
  | tamperRelease => exact execTamperRelease_kept h
  | prmCfg => exact execPrmCfg_kept h
  | prmStatus => exact execPrmStatus_kept h
  | prmAtPps => exact execPrmAtPps_kept h
  | prmSetOffset => exact execPrmSetOffset_kept h
  | toutSet => exact execToutSet_kept h
  | toutGet => exact execToutGet_kept h
  | ptpSet => exact execPtpSet_kept h
  | tsExportRead => exact execTsExportRead_kept h
  | wearCfg => exact execWearCfg_kept h
  | wearReport => exact execWearReport_kept h
  | wearHistory => exact execWearHistory_kept h
  | strike => exact execStrike_kept h
  | handover => exact execHandover_kept h
  | updateWrite => exact execUpdateWrite_kept h
  | updateGo => exact execUpdateGo_kept h
  | join => exact execJoin_kept h
  | rhlStop => exact execRhlStop_kept h
  | rhlStartTrace => exact execRhlStartTrace_kept h
  | rhlStartRecord => exact execRhlStartRecord_kept h
  | rhlSetTarget => exact execRhlSetTarget_kept h
  | rhlStatus => exact execRhlStatus_kept h
  | rhlExport => exact execRhlExport_kept h
  | rhlReplay => exact execRhlReplay_kept h
  | rhlResume => exact execRhlResume_kept h
  | pwrStatus => exact execPwrStatus_kept h
  | diagEcho => exact execDiagEcho_kept h
  | diagMark => exact execDiagMark_kept h
  | doorbell => exact execDoorbell_kept h
  | reqFree => exact execReqFree_kept h
  | rspWrite => exact execRspWrite_kept h
  | rspAck => exact execRspAck_kept h
  | cbdTail => exact execCbdTail_kept h
  | cbdEntry => exact execCbdEntry_kept h
  | zeroiseArm => exact execZeroiseArm_kept h
  | zeroiseFire => exact execZeroiseFire_kept h
  | zeroiseGap => exact execZeroiseGap_kept h
  | registerWrite => exact execRegisterWrite_kept h
  | cpRstN => exact execCpRstN_kept h
  | tapBypass => exact execTapBypass_kept h
  | tapIdcode => exact execTapIdcode_kept h
  | tapSample => exact execTapSample_kept h
  | tapExtest => exact execTapExtest_kept h
  | tapTestAccess => exact execTapTestAccess_kept h
  | outboundFrame => exact execOutboundFrame_kept h
  | inboundFrame => exact execInboundFrame_kept h
  | strayBeat => exact execStrayBeat_kept h
  | creditPulse => exact execCreditPulse_kept h
  | lsHold => exact execLsHold_kept h
  | frameRelease => exact execFrameRelease_kept h
  | frameTagCheck => exact execFrameTagCheck_kept h
  | saFetch w sai tagOk keyOk => exact execSaFetch_kept (_tagOk := tagOk) (_keyOk := keyOk) h
  | boxInsertion => exact execBoxInsertion_kept h
  | lateFrame => exact execLateFrame_kept h
  | lsHoldLimit => exact execLsHoldLimit_kept h
  | rekeyOverlap => exact execRekeyOverlap_kept h
  | leaseGrant => exact execLeaseGrant_kept h
  | leaseRefreshRetry => exact execLeaseRefreshRetry_kept h
  | unkeyedTtl => exact execUnkeyedTtl_kept h
  | grqHoldTimeout => exact execGrqHoldTimeout_kept h
  | grqSummary => exact execGrqSummary_kept h
  | ushFaultSummary => exact execUshFaultSummary_kept h
  | memRead => exact execMemRead_kept h
  | memWrite => exact execMemWrite_kept h
  | partialWrite => exact execPartialWrite_kept h
  | curtainOnly => exact execCurtainOnly_kept h
  | writeData => exact execWriteData_kept h
  | mpResponse => exact execMpResponse_kept h
  | mpResponseTimeout => exact execMpResponseTimeout_kept h
  | lineVerify => exact execLineVerify_kept h
  | curtainIssue => exact execCurtainIssue_kept h
  | curtainVerify => exact execCurtainVerify_kept h
  | curtainPersist => exact execCurtainPersist_kept h
  | pageReencrypted => exact execPageReencrypted_kept h
  | tagRepair => exact execTagRepair_kept h
  | regionReady => exact execRegionReady_kept h
  | pinFill => exact execPinFill_kept h
  | ushBankSwitch => exact execUshBankSwitch_kept h
  | ushDrainTimeout => exact execUshDrainTimeout_kept h
  | trieSwitch => exact execTrieSwitch_kept h
  | trieCommitComplete => exact execTrieCommitComplete_kept h
  | journalCommit => exact execJournalCommit_kept h
  | fuseCopy => exact execFuseCopy_kept h
  | fuseVppLoss => exact execFuseVppLoss_kept h
  | resetHold => exact execResetHold_kept h
  | startUp => exact execStartUp_kept h
  | coreRstN => exact execCoreRstN_kept h
  | portReset => exact execPortReset_kept h
  | portResetRelease => exact execPortResetRelease_kept h
  | portClockLost => exact execPortClockLost_kept h
  | scriptReady => exact execScriptReady_kept h
  | todPps => exact execTodPps_kept h
  | todLock => exact execTodLock_kept h
  | prmHoldover => exact execPrmHoldover_kept h
  | prmClockLost => exact execPrmClockLost_kept h
  | cueFire => exact execCueFire_kept h
  | cuePulseEnd => exact execCuePulseEnd_kept h
  | sleepEntry => exact execSleepEntry_kept h
  | slpAck => exact execSlpAck_kept h
  | supplyExcursion => exact execSupplyExcursion_kept h
  | vddcLoss => exact execVddcLoss_kept h
  | vddvLoss => exact execVddvLoss_kept h
  | tempSource => exact execTempSource_kept h
  | tamperChip => exact execTamperChip_kept h
  | tamperWindow => exact execTamperWindow_kept h
  | bridgeToken => exact execBridgeToken_kept h
  | bridgeSilence => exact execBridgeSilence_kept h
  | livenessMark => exact execLivenessMark_kept h
  | farMarkStale => exact execFarMarkStale_kept h
  | rejoinReady => exact execRejoinReady_kept h
  | heartbeat => exact execHeartbeat_kept h
  | heartbeatMiss => exact execHeartbeatMiss_kept h
  | stuckHandshake => exact execStuckHandshake_kept h
  | marginSample => exact execMarginSample_kept h
  | wearCheck => exact execWearCheck_kept h
  | understudyPromotion => exact execUnderstudyPromotion_kept h
  | marchTest => exact execMarchTest_kept h
  | bankStruck => exact execBankStruck_kept h
  | unitClosed => exact execUnitClosed_kept h
  | forcedClose => exact execForcedClose_kept h
  | updateCoreStarted => exact execUpdateCoreStarted_kept h
  | rtCopy => exact execRtCopy_kept h
  | maskRefresh => exact execMaskRefresh_kept h
  | drbgReseed => exact execDrbgReseed_kept h
  | entropyFail => exact execEntropyFail_kept h
  | keyExpiry => exact execKeyExpiry_kept h
  | rhlSnapshotDone => exact execRhlSnapshotDone_kept h
  | rhlBlockSpill w ok => exact execRhlBlockSpill_kept (_ok := ok) h
  | rhlPostBlocks => exact execRhlPostBlocks_kept h
  | rhlReplayRecord => exact execRhlReplayRecord_kept h
  | supplyPresent => exact execSupplyPresent_kept h
  | mpRequestAccepted => exact execMpRequestAccepted_kept h
  | rqpResponseAccepted => exact execRqpResponseAccepted_kept h
  | vaultPathRestored => exact execVaultPathRestored_kept h
  | updateStartTimeout => exact execUpdateStartTimeout_kept h

/-! ## Tokens -/

theorem Kept.laneToken (h : Kept s t) {l} : Kept s (t.laneToken l) := by
  unfold State.laneToken
  split
  · split
    · exact .ite h (.ite h.fix.logEntry.rhlFault.modLane.restartItem (have h1 := .ite h.takeFree h; .modLane (.ite h1.rhlGrant
        h1)))
    · exact h
  · exact h

theorem Kept.laneTick (h : Kept s t) : Kept s t.laneTick := by
  unfold State.laneTick
  exact (h.foldl fun h => h.laneToken).eachWing fun h => h.dispatch

/-! ## The passing of time -/

theorem Kept.leadShift (h : Kept s t) : Kept s t.leadShift := by
  unfold State.leadShift
  exact h.same (by rfl)

theorem Kept.softUpset (h : Kept s t) : Kept s t.softUpset := by
  unfold State.softUpset
  split
  exacts [.ite h.takeFree (h.takeFree.same (by rfl)), h.takeFree]

theorem Kept.tick (h : Kept s t) : Kept s t.tick := by
  unfold State.tick
  exact
    have h1 := .ite (h.modVlt (.of_eq (by rfl))) h
    have h2 := .ite (h1.modVlt (.of_eq (by rfl))) h1
    have h3 := .ite h2.condReturn h2
    have h4 := .ite (h3.eachWing fun h => h.modPrm) h3
    .ite ((((((h4.bridgeTick.leadShift.laneTick.eachWing fun h => h.pumpKs).foldl fun h =>
      h.beginPort.readmit.credit).sleepIdle).eachWing fun h => h.pumpOwn).pump).softUpset) h4

/-! ## The step -/

theorem step_kept (s : State) : KeptBy s (step s) := by
  unfold step
  split
  · exact .next (Kept.refl s).tick
  · next c rest _ =>
    have h : Kept s { s with pending := rest } := Kept.refl s
    exact exec_kept h

end Sys2Proof.Machine
end

section
/-! The two invariants of every step: the retention SRAM's form, and the fuses. -/

namespace Sys2Proof.Machine
open Sys2Proof.Safety

/-- Settles O59: a step loses nothing of the vault, and so keeps the SRAM's form. -/
theorem stepKeepsSram : Obligations.StepKeepsSram := by
  unfold Obligations.StepKeepsSram
  intro s t hs ht
  obtain ⟨hm, _⟩ := step_kept s t ht
  exact hm hs

/-- Settles O60: a step loses nothing of the vault, and so unburns nothing. -/
theorem fusesOnlyBurn : Obligations.FusesOnlyBurn := by
  unfold Obligations.FusesOnlyBurn
  intro s t ht
  obtain ⟨_, hfuses⟩ := step_kept s t ht
  exact hfuses

end Sys2Proof.Machine
end

section
/-! SUPPORT. What a sparse table and the retention SRAM read after a write (R238). -/

namespace Sys2Proof.Machine

/-! ## Sparse tables -/

section Tables
variable {α : Type}

theorem tget_tput (t : Tbl α) (k n : Nat) (v : α) : tget (tput t k v) n = if n = k then some v else tget t n := by
  induction t with
  | nil => simp [tput, tget, eq_comm]
  | cons c t ih =>
    simp only [tput]
    split
    · simp [tget, eq_comm]
    · split
      · next h =>
        subst h
        simp only [tget, eq_comm]
        split <;> rfl
      · simp only [tget, ih]
        split
        · rw [if_neg (by omega)]
        · rfl

/-- A table whose keys rise: the first is below the next, and the rest rise. -/
theorem Tbl.wf_cons {c : Nat × α} {t : Tbl α} : Tbl.wf (c :: t) = true ↔ (∀ d ∈ t.head?, c.1 < d.1) ∧ Tbl.wf t = true := by
  cases t <;> simp [Tbl.wf]

/-- The first key of a table after a put is the key put or the first key before. -/
theorem tput_head {t : Tbl α} {k : Nat} {v : α} : ∀ d ∈ (tput t k v).head?, d.1 = k ∨ ∃ e ∈ t.head?, d.1 = e.1 := by
  cases t with
  | nil => simp [tput]
  | cons c t =>
    simp only [tput]
    split
    · simp
    · split <;> simp

theorem tput_wf {t : Tbl α} {k : Nat} {v : α} (h : Tbl.wf t = true) : Tbl.wf (tput t k v) = true := by
  induction t with
  | nil => rfl
  | cons c t ih =>
    obtain ⟨hc, ht⟩ := Tbl.wf_cons.1 h
    simp only [tput]
    split
    · next hk => exact Tbl.wf_cons.2 ⟨by simpa using hk, h⟩
    · split
      · next hk => exact Tbl.wf_cons.2 ⟨by simpa [hk] using hc, ht⟩
      · refine Tbl.wf_cons.2 ⟨fun d hd => ?_, ih ht⟩
        obtain hd | ⟨e, he, hd⟩ := tput_head d hd
        · omega
        · exact hd ▸ hc e he

/-- A rising table holds no key at or below one that is below its first. -/
theorem tget_below {t : Tbl α} {k : Nat} (h : Tbl.wf t = true) (hk : ∀ d ∈ t.head?, k < d.1) : tget t k = none := by
  induction t with
  | nil => rfl
  | cons c t ih =>
    obtain ⟨hc, ht⟩ := Tbl.wf_cons.1 h
    have hlt : k < c.1 := hk c rfl
    rw [tget, if_neg (by omega)]
    exact ih ht fun d hd => hlt.trans (hc d hd)

theorem tdel_head {t : Tbl α} {k x : Nat} (h : Tbl.wf t = true) (hx : ∀ d ∈ t.head?, x < d.1) : ∀ d ∈ (tdel t k).head?, x < d.1 := by
  cases t with
  | nil => simp [tdel]
  | cons c t =>
    obtain ⟨hc, -⟩ := Tbl.wf_cons.1 h
    have hxc : x < c.1 := hx c rfl
    simp only [tdel]
    split
    · exact fun d hd => hxc.trans (hc d hd)
    · simpa using hxc

theorem tdel_wf {t : Tbl α} {k : Nat} (h : Tbl.wf t = true) : Tbl.wf (tdel t k) = true := by
  induction t with
  | nil => rfl
  | cons c t ih =>
    obtain ⟨hc, ht⟩ := Tbl.wf_cons.1 h
    simp only [tdel]
    split
    · exact ht
    · exact Tbl.wf_cons.2 ⟨tdel_head ht hc, ih ht⟩

theorem tget_tdel {t : Tbl α} {k n : Nat} (h : Tbl.wf t = true) : tget (tdel t k) n = if n = k then none else tget t n := by
  induction t with
  | nil => simp [tdel, tget]
  | cons c t ih =>
    obtain ⟨hc, ht⟩ := Tbl.wf_cons.1 h
    simp only [tdel]
    split
    · next hk =>
      split
      · next hn => exact hn ▸ hk ▸ tget_below ht hc
      · rw [tget, if_neg (by omega)]
    · simp only [tget, ih ht]
      split
      · rw [if_neg (by omega)]
      · rfl

end Tables

/-! ## The retention SRAM -/

variable {m m' : List Host.Cell} {a n : Nat}

/-- A canonical memory reads 0 below its first address. -/
theorem memRead_below (h : Memory.wf m = true) (hn : ∀ c ∈ m.head?, n < c.1) : memRead m n = 0 := by
  induction m with
  | nil => rfl
  | cons c m ih =>
    obtain ⟨-, hc, hm⟩ := Memory.wf_cons.1 h
    have hlt : n < c.1 := hn c rfl
    rw [memRead, if_neg (by omega)]
    exact ih hm fun d hd => hlt.trans (hc d hd)

theorem memRead_memWrite (h : Memory.wf m = true) (b : Byte) :
    memRead (memWrite m a b) n = if n = a then b else memRead m n := by
  induction m with
  | nil =>
    simp only [memWrite]
    split
    · next hb =>
      rw [hb]
      split <;> rfl
    · simp [memRead, eq_comm]
  | cons c m ih =>
    obtain ⟨-, hc, hm⟩ := Memory.wf_cons.1 h
    simp only [memWrite]
    split
    · next hlt =>
      have h0 : memRead (c :: m) a = 0 := memRead_below h (by simpa using hlt)
      split
      · next hb =>
        split
        · next hn => rw [hn, hb, h0]
        · rfl
      · simp [memRead, eq_comm]
    · split
      · next ha =>
        have h0 : memRead m a = 0 := memRead_below hm (ha ▸ hc)
        split
        · next hb =>
          split
          · next hn => rw [hn, hb, h0]
          · rw [memRead, if_neg (by omega)]
        · simp only [memRead, ← ha, eq_comm]
          split <;> rfl
      · simp only [memRead, ih hm]
        split
        · rw [if_neg (by omega)]
        · rfl

theorem memRead_memPut (h : Memory.wf m = true) (bs : Bytes) :
    memRead (memPut m a bs) n = if a ≤ n ∧ n < a + bs.length then bs.getD (n - a) 0 else memRead m n := by
  induction bs generalizing m a with
  | nil => rw [if_neg (by simp)]; rfl
  | cons b bs ih =>
    rw [memPut, ih (memWrite_wf m a b h), memRead_memWrite h]
    simp only [List.length_cons]
    by_cases hn : n = a
    · rw [if_neg (by omega), if_pos hn, if_pos (by omega), hn]
      simp
    · rw [if_neg hn]
      by_cases ha : a < n
      · obtain ⟨k, rfl⟩ : ∃ k, n = a + 1 + k := ⟨n - (a + 1), by omega⟩
        rw [show a + 1 + k - (a + 1) = k by omega, show a + 1 + k - a = k + 1 by omega, List.getD_cons_succ]
        by_cases hk : k < bs.length
        · rw [if_pos (by omega), if_pos (by omega)]
        · rw [if_neg (by omega), if_neg (by omega)]
      · rw [if_neg (by omega), if_neg (by omega)]

/-- A write of bytes leaves what lies outside them. -/
theorem memRead_memPut_outside (h : Memory.wf m = true) {bs : Bytes} (hn : n < a ∨ a + bs.length ≤ n) :
    memRead (memPut m a bs) n = memRead m n := by
  rw [memRead_memPut h, if_neg (by omega)]

/-- Bytes read within a write of bytes. -/
theorem memBytes_memPut_within (h : Memory.wf m = true) {bs : Bytes} {i k : Nat} (hk : i + k ≤ bs.length) :
    memBytes (memPut m a bs) (a + i) k = (bs.drop i).take k := by
  refine List.ext_getElem (by simp [memBytes]; omega) fun j hj _ => ?_
  simp only [memBytes, List.length_map, List.length_range] at hj
  simp only [memBytes, List.getElem_map, List.getElem_range, memRead_memPut h, List.getElem_take, List.getElem_drop]
  rw [if_pos (by omega), List.getD_eq_getElem _ _ (by omega)]
  congr 1
  omega

/-- Bytes read outside a write of bytes. -/
theorem memBytes_memPut_outside (h : Memory.wf m = true) {bs : Bytes} {k : Nat} (hn : n + k ≤ a ∨ a + bs.length ≤ n) :
    memBytes (memPut m a bs) n k = memBytes m n k := by
  refine List.map_congr_left fun j hj => memRead_memPut_outside h ?_
  have : j < k := List.mem_range.1 hj
  omega

theorem memBytes_memPut (h : Memory.wf m = true) (bs : Bytes) : memBytes (memPut m a bs) a bs.length = bs := by
  simpa using memBytes_memPut_within (a := a) (bs := bs) (i := 0) (k := bs.length) h (by omega)

@[simp] theorem leBytes_length (k x : Nat) : (leBytes k x).length = k := by simp [leBytes]

/-- The least byte comes first. -/
theorem leBytes_succ (k x : Nat) : leBytes (k + 1) x = BitVec.ofNat 8 x :: leBytes k (x / 256) := by
  simp only [leBytes, List.range_succ_eq_map, List.map_cons, List.map_map]
  refine congrArg₂ _ (by simp) (List.map_congr_left fun i _ => ?_)
  simp only [Function.comp, Nat.shiftRight_eq_div_pow, Nat.div_div_eq_div_mul]
  rw [show 2 ^ (8 * i.succ) = 256 * 2 ^ (8 * i) by rw [Nat.mul_succ, Nat.pow_add, Nat.mul_comm]]

theorem leNat_leBytes {k x : Nat} (h : x < 256 ^ k) : leNat (leBytes k x) = x := by
  induction k generalizing x with
  | zero => simpa [leBytes, leNat, eq_comm] using h
  | succ k ih =>
    have hx : leNat (leBytes k (x / 256)) = x / 256 := ih (Nat.div_lt_of_lt_mul (by rwa [pow_succ'] at h))
    rw [leBytes_succ]
    simp only [leNat, List.foldr_cons, BitVec.toNat_ofNat] at hx ⊢
    rw [hx]
    omega

theorem memRd32_memWr32 (h : Memory.wf m = true) {x : Nat} (hx : x < 2 ^ 32) : memRd32 (memWr32 m a x) a = x := by
  have hb := memBytes_memPut (a := a) h (leBytes 4 x)
  rw [leBytes_length] at hb
  rw [memRd32, memWr32, hb, leNat_leBytes (by omega)]

theorem memRd64_memWr64 (h : Memory.wf m = true) {x : Nat} (hx : x < 2 ^ 64) : memRd64 (memWr64 m a x) a = x := by
  have hb := memBytes_memPut (a := a) h (leBytes 8 x)
  rw [leBytes_length] at hb
  rw [memRd64, memWr64, hb, leNat_leBytes (by omega)]

/-- The first address of a canonical memory is the first that reads other than 0. -/
theorem memRead_head {c : Host.Cell} (h : Memory.wf (c :: m) = true) : memRead (c :: m) c.1 ≠ 0 := by
  obtain ⟨hc, -, -⟩ := Memory.wf_cons.1 h
  simpa [memRead] using hc

/-- A canonical memory is what it reads. -/
theorem Memory.wf_ext (h : Memory.wf m = true) (h' : Memory.wf m' = true) (e : ∀ i, memRead m i = memRead m' i) : m = m' := by
  induction m generalizing m' with
  | nil =>
    cases m' with
    | nil => rfl
    | cons c' m' => exact absurd (e c'.1).symm (memRead_head h')
  | cons c m ih =>
    cases m' with
    | nil => exact absurd (e c.1) (memRead_head h)
    | cons c' m' =>
      obtain ⟨-, hc, hm⟩ := Memory.wf_cons.1 h
      obtain ⟨-, hc', hm'⟩ := Memory.wf_cons.1 h'
      have haddr : c.1 = c'.1 := by
        rcases Nat.lt_trichotomy c.1 c'.1 with hlt | heq | hgt
        · exact absurd ((e c.1).trans (memRead_below h' (by simpa using hlt))) (memRead_head h)
        · exact heq
        · exact absurd ((e c'.1).symm.trans (memRead_below h (by simpa using hgt))) (memRead_head h')
      obtain ⟨x, b⟩ := c
      obtain ⟨x', b'⟩ := c'
      obtain rfl : x = x' := haddr
      obtain rfl : b = b' := by simpa [memRead] using e x
      refine congrArg _ (ih hm hm' fun i => ?_)
      by_cases hi : i = x
      · subst hi
        rw [memRead_below hm hc, memRead_below hm' hc']
      · simpa [memRead, Ne.symm hi] using e i

/-- Settles O55: tables by induction on the put and the delete, the SRAM by what each write reads back. -/
theorem tablesAndSram : Obligations.TablesAndSram := by
  unfold Obligations.TablesAndSram
  refine ⟨fun α t k n v => ⟨tget_tput t k n v, tput_wf, fun h => ⟨tdel_wf h, tget_tdel h⟩⟩, fun m m' a n b bs h => ?_⟩
  exact ⟨memRead_memWrite h b, memBytes_memPut h bs, memRead_memPut_outside h, fun x => memRd32_memWr32 h,
    fun x => memRd64_memWr64 h, Memory.wf_ext h⟩

end Sys2Proof.Machine
end

section
/-! SUPPORT. The journal record (R264, R265): its layout, and what its two writes leave and read back. -/

namespace Sys2Proof.Machine

theorem padTo_length (k : Nat) (b : Bytes) : (padTo k b).length = k := by
  simp only [padTo, List.length_append, List.length_take, List.length_replicate]
  omega

theorem padTo_of_le {k : Nat} {b : Bytes} (h : b.length ≤ k) : padTo k b = b ++ List.replicate (k - b.length) 0 := by
  rw [padTo, List.take_of_length_le h]

theorem cmac_length (key msg : Bytes) : (cmac key msg).length = 16 := by simp [cmac, beBytes]

theorem slotAddr_cases (i : Nat) : slotAddr i = 0x80 ∨ slotAddr i = 0x140 := by
  unfold slotAddr
  split <;> simp

/-- The two slots do not overlap, and lie between the COMMIT word and the tables (R238). -/
theorem slotAddr_other {i : Nat} (h : i = 0 ∨ i = 1) :
    slotAddr i + 192 ≤ slotAddr (1 - i) ∨ slotAddr (1 - i) + 192 ≤ slotAddr i := by
  rcases h with rfl | rfl <;> decide

theorem Vault.activeSlot_cases (v : Vault) : v.activeSlot = 0 ∨ v.activeSlot = 1 := by
  simp only [Vault.activeSlot, activeSlotOf]
  split
  · exact .inl rfl
  · split
    · exact .inr rfl
    · exact .inl rfl

/-! ## The record's bytes -/

section Record
variable {key digest body : Bytes} {rtype count seq upd : Nat}

theorem recordBytes_length : (recordBytes key rtype count seq upd digest body).length = 192 := by
  simp [recordBytes, padTo_length, cmac_length]

/-- The MAC of a record stands after the bytes it is over. -/
theorem recordBytes_mac : ((recordBytes key rtype count seq upd digest body).drop 176).take 16 =
    cmac key ((recordBytes key rtype count seq upd digest body).take 176) := by
  simp only [recordBytes]
  generalize hb : leBytes 4 (rtype + count * 2 ^ 8) ++ leBytes 4 seq ++ leBytes 8 upd ++ padTo 48 digest ++ padTo 108 body
    ++ List.replicate 4 0 = b
  have hl : b.length = 176 := by simp [← hb, padTo_length]
  rw [List.drop_left' hl, List.take_left' hl, List.take_of_length_le (cmac_length _ _).le]

/-- The parts of a record: its type and count, SEQ, the counter, the digest, the body, and what follows. -/
theorem recordBytes_parts : ∃ rest, recordBytes key rtype count seq upd digest body =
    leBytes 4 (rtype + count * 2 ^ 8) ++ (leBytes 4 seq ++ (leBytes 8 upd ++ (padTo 48 digest ++ (padTo 108 body ++ rest)))) := by
  simp only [recordBytes, List.append_assoc]
  exact ⟨_, rfl⟩

theorem recordBytes_seq : ((recordBytes key rtype count seq upd digest body).drop 4).take 4 = leBytes 4 seq := by
  obtain ⟨rest, h⟩ := recordBytes_parts (key := key) (digest := digest) (body := body) (rtype := rtype) (count := count)
    (seq := seq) (upd := upd)
  rw [h, List.drop_left' (leBytes_length _ _), List.take_left' (leBytes_length _ _)]

theorem recordBytes_upd : ((recordBytes key rtype count seq upd digest body).drop 8).take 8 = leBytes 8 upd := by
  obtain ⟨rest, h⟩ := recordBytes_parts (key := key) (digest := digest) (body := body) (rtype := rtype) (count := count)
    (seq := seq) (upd := upd)
  rw [h, show 8 = 4 + 4 from rfl, ← List.drop_drop, List.drop_left' (leBytes_length _ _), List.drop_left' (leBytes_length _ _)]
  exact List.take_left' (leBytes_length _ _)

theorem recordBytes_digest : ((recordBytes key rtype count seq upd digest body).drop 16).take 48 = padTo 48 digest := by
  obtain ⟨rest, h⟩ := recordBytes_parts (key := key) (digest := digest) (body := body) (rtype := rtype) (count := count)
    (seq := seq) (upd := upd)
  rw [h, show 16 = 4 + 4 + 8 from rfl, ← List.drop_drop, ← List.drop_drop, List.drop_left' (leBytes_length _ _),
    List.drop_left' (leBytes_length _ _), List.drop_left' (leBytes_length _ _)]
  exact List.take_left' (padTo_length _ _)

theorem recordBytes_body : ((recordBytes key rtype count seq upd digest body).drop 64).take 108 = padTo 108 body := by
  obtain ⟨rest, h⟩ := recordBytes_parts (key := key) (digest := digest) (body := body) (rtype := rtype) (count := count)
    (seq := seq) (upd := upd)
  rw [h, show 64 = 4 + 4 + 8 + 48 from rfl, ← List.drop_drop, ← List.drop_drop, ← List.drop_drop,
    List.drop_left' (leBytes_length _ _), List.drop_left' (leBytes_length _ _), List.drop_left' (leBytes_length _ _),
    List.drop_left' (padTo_length _ _)]
  exact List.take_left' (padTo_length _ _)

end Record

/-! ## PREPARED and COMMITTED -/

section Commit
variable {v : Vault} {rtype count upd : Nat} {digest body : Bytes}

theorem Vault.prepare_sram : (v.prepare rtype count upd digest body).sram = memPut v.sram (slotAddr (1 - v.activeSlot))
    (recordBytes (v.keys.ret.getD []) rtype count ((memRd32 v.sram (slotAddr v.activeSlot + 4) + 1) % 2 ^ 32) upd digest body) := by
  unfold Vault.prepare
  dsimp only

theorem Vault.commit_sram : v.commit.sram = memWr32 v.sram 0x40 (if v.activeSlot = 0 then 1 else 2) := by
  unfold Vault.commit
  dsimp only

variable (hw : Memory.wf v.sram = true)
include hw

/-- PREPARED writes the slot that is not active, and nothing else. -/
theorem Vault.prepare_bytes {a k : Nat} (ha : a + k ≤ slotAddr (1 - v.activeSlot) ∨ slotAddr (1 - v.activeSlot) + 192 ≤ a) :
    memBytes (v.prepare rtype count upd digest body).sram a k = memBytes v.sram a k := by
  rw [Vault.prepare_sram]
  exact memBytes_memPut_outside hw (by rwa [recordBytes_length])

theorem Vault.prepare_activeSlot : (v.prepare rtype count upd digest body).activeSlot = v.activeSlot := by
  have h : memRd32 (v.prepare rtype count upd digest body).sram 0x40 = memRd32 v.sram 0x40 :=
    congrArg leNat (Vault.prepare_bytes hw (by have := slotAddr_cases (1 - v.activeSlot); omega))
  simp only [Vault.activeSlot, activeSlotOf, h]

/-- The active slot reads as before after PREPARED. -/
theorem Vault.prepare_active {i k : Nat} (hi : i + k ≤ 192) :
    memBytes (v.prepare rtype count upd digest body).sram (slotAddr (v.prepare rtype count upd digest body).activeSlot + i) k =
      memBytes v.sram (slotAddr v.activeSlot + i) k := by
  rw [Vault.prepare_activeSlot hw]
  refine Vault.prepare_bytes hw ?_
  have := slotAddr_other v.activeSlot_cases
  omega

theorem Vault.prepare_updCtr : (v.prepare rtype count upd digest body).updCtr = v.updCtr := by
  rw [Vault.updCtr, Vault.updCtr, memRd64, memRd64, Vault.prepare_active hw (by decide)]

theorem Vault.prepare_journalBody : (v.prepare rtype count upd digest body).journalBody = v.journalBody := by
  rw [Vault.journalBody, Vault.journalBody, Vault.prepare_active hw (by decide)]

/-- COMMITTED names the other slot. -/
theorem Vault.commit_activeSlot : v.commit.activeSlot = 1 - v.activeSlot := by
  have h : memRd32 v.commit.sram 0x40 = if v.activeSlot = 0 then 1 else 2 := by
    rw [Vault.commit_sram]
    exact memRd32_memWr32 hw (by split <;> decide)
  have hc : ∀ u : Vault, memRd32 u.sram 0x40 = 1 → u.activeSlot = 1 := fun u e => by simp [Vault.activeSlot, activeSlotOf, e]
  have hc' : ∀ u : Vault, memRd32 u.sram 0x40 = 2 → u.activeSlot = 0 := fun u e => by simp [Vault.activeSlot, activeSlotOf, e]
  rcases v.activeSlot_cases with e | e
  · rw [hc _ (by rw [h, e]; rfl), e]
  · rw [hc' _ (by rw [h, e]; rfl), e]

/-- COMMITTED writes its word alone. -/
theorem Vault.commit_bytes {a k : Nat} (ha : a + k ≤ 0x40 ∨ 0x44 ≤ a) : memBytes v.commit.sram a k = memBytes v.sram a k := by
  rw [Vault.commit_sram, memWr32]
  exact memBytes_memPut_outside hw (by rwa [leBytes_length])

/-- The slot a commit names holds the record prepared. -/
theorem Vault.committed_bytes {i k : Nat} (hi : i + k ≤ 192) :
    memBytes (v.prepare rtype count upd digest body).commit.sram (slotAddr (1 - v.activeSlot) + i) k =
      ((recordBytes (v.keys.ret.getD []) rtype count ((memRd32 v.sram (slotAddr v.activeSlot + 4) + 1) % 2 ^ 32) upd digest
        body).drop i).take k := by
  rw [Vault.commit_bytes (v.prepare_wf _ _ _ _ _ hw) (by have := slotAddr_cases (1 - v.activeSlot); omega), Vault.prepare_sram]
  exact memBytes_memPut_within hw (by rwa [recordBytes_length])

theorem Vault.committed_read {a : Nat} (ha : a < 0x40 ∨ (0x44 ≤ a ∧ a < 0x80) ∨ 0x200 ≤ a) :
    memRead (v.prepare rtype count upd digest body).commit.sram a = memRead v.sram a := by
  have hs := slotAddr_cases (1 - v.activeSlot)
  rw [Vault.commit_sram, memWr32, memRead_memPut_outside (v.prepare_wf _ _ _ _ _ hw) (by rw [leBytes_length]; omega),
    Vault.prepare_sram, memRead_memPut_outside hw (by rw [recordBytes_length]; omega)]

end Commit

/-- Settles O56: PREPARED by what it leaves, COMMITTED by the record's parts read back. -/
theorem journalRecord : Obligations.JournalRecord := by
  unfold Obligations.JournalRecord
  intro v p t k rtype count upd digest body hw hk hd hb _ _ hu hp ht
  have hact : t.activeSlot = 1 - v.activeSlot := by
    rw [ht, hp, Vault.commit_activeSlot (v.prepare_wf _ _ _ _ _ hw), Vault.prepare_activeSlot hw]
  have hslot : ∀ {i n}, i + n ≤ 192 → memBytes t.sram (slotAddr t.activeSlot + i) n =
      ((recordBytes k rtype count ((memRd32 v.sram (slotAddr v.activeSlot + 4) + 1) % 2 ^ 32) upd digest body).drop i).take n := by
    intro i n h
    rw [hact, ht, hp, Vault.committed_bytes hw h, hk, Option.getD_some]
  refine ⟨?_, ?_, ?_, hact, ?_, ?_, ?_, ?_, ?_, fun a ha => ?_⟩
  · rw [hp, Vault.prepare_activeSlot hw]
  · rw [hp, Vault.prepare_updCtr hw]
  · rw [hp, Vault.prepare_journalBody hw]
  · rw [Vault.updCtr, memRd64, hslot (by decide), recordBytes_upd, leNat_leBytes (by omega)]
  · rw [Vault.kumDigest, hslot (by decide), recordBytes_digest, padTo_of_le hd.le, hd, Nat.sub_self, List.replicate_zero,
      List.append_nil]
  · rw [Vault.journalBody, hslot (by decide), recordBytes_body, padTo_of_le hb]
  · have h0 := hslot (i := 0) (n := 176) (by decide)
    rw [Nat.add_zero, List.drop_zero] at h0
    rw [slotMacOk, hslot (by decide), recordBytes_mac, h0]
    exact decide_eq_true rfl
  · rw [memRd32, hslot (by decide), recordBytes_seq, leNat_leBytes (by omega)]
  · rw [ht, hp, Vault.committed_read hw ha]

end Sys2Proof.Machine
end

section
/-! SUPPORT. Commands of the vault: what their wrappers come to where the wing reaches the vault and the key named may be used (R247,
R254, R267, R369). -/

namespace Sys2Proof.Machine

open Sys2Proof.Safety Sys2Proof.Laws

/-! ## A command that runs once, on the serving wing -/

section Once
variable {s : State} {ch : Fin 8} {o : OpSpec} {p : Place} {body : State → Ctx → Res}

theorem answers_once (h : Served s ch o p) (hw : o.wing = 0) {t : State} {st : Status} {ws : List Word}
    (hb : body (took s ch) (ctx0 s ch p) = .done t st ws) : Answers (.next (s.runCmd ch o body)) t ch st ws :=
  answers_oneWing h (if_pos hw) hb

theorem waits_once (h : Served s ch o p) (hw : o.wing = 0) {t : State} {x : Wait}
    (hb : body (took s ch) (ctx0 s ch p) = .wait t x) : Waits (.next (s.runCmd ch o body)) t ch x :=
  waits_oneWing h (if_pos hw) hb

end Once

theorem took_cmdWing (s : State) (ch : Fin 8) (p : Place) : (took s ch).cmdWing (ctx0 s ch p) = home s ch := took_home s ch

theorem took_reaches {s : State} {ch : Fin 8} (h : s.pathLost (home s ch) = false) (p : Place) :
    (took s ch).pathLost ((took s ch).cmdWing (ctx0 s ch p)) = false := by
  rw [took_cmdWing, ← h]
  cases home s ch <;> rfl

@[simp] theorem ctx0_w (s : State) (ch : Fin 8) (p : Place) (i : Nat) : (ctx0 s ch p).w i = wordAt p.words i := rfl

@[simp] theorem ctx0_words (s : State) (ch : Fin 8) (p : Place) : (ctx0 s ch p).words = p.words := rfl

@[simp] theorem ctx0_ch (s : State) (ch : Fin 8) (p : Place) : (ctx0 s ch p).ch = ch := rfl

@[simp] theorem ctx0_salt (s : State) (ch : Fin 8) (p : Place) (i : Nat) :
    (ctx0 s ch p).salt i = wordsToBytes (wordsAt p.words i 3) := rfl

/-! ## The wrappers -/

theorem Res.vault_of {s : State} {c : Ctx} (h : s.pathLost (s.cmdWing c) = false) (r : Res) : Res.vault s c r = r :=
  if_neg (by simp [h])

theorem Res.vaultRec_done {c : Ctx} {t : State} {w : Wing} (h : t.cmdWing c = w) (sealed : Bytes) (st : Status) (ws : List Word) :
    Res.vaultRec c sealed (.done t st ws) = .done (t.rhlVault w st.code sealed) st ws := by
  rw [← h]
  rfl

theorem Res.keyBack_of {s : State} {c : Ctx} {l : KLoc} (h : s.isSpilled (s.cmdWing c) l = false) (r : Res) :
    Res.keyBack s c l r = r := if_neg (by simpa [State.cmdWing] using h)

/-- A key that its wing holds, and that the command may use, is handed to the body (R254). -/
theorem Res.named_of {s t : State} {c : Ctx} {ref : Nat} {l : KLoc} {k : Key} {u : Usage} (f : State → KLoc → Key → Res)
    (hk : s.commandKey c l u = (.ok k, t)) (hl : kLoc ref = some l) (hr : ref < 2 ^ 24)
    (hs : s.isSpilled (s.cmdWing c) l = false) : Res.named s c ref u f = f t l k := by
  simp only [Res.named, hl]
  rw [Res.need_of (decide_eq_true hr), Res.keyBack_of hs, hk]

/-- A free target with clean attributes is handed to the body, whose answer the VAULT record notes (R247, R397). -/
theorem Res.target_of {s t : State} {c : Ctx} {i ai : Nat} {l : KLoc} {st : Status} {ws : List Word} {f : KLoc → KeyAttr → Res}
    {a : KeyAttr} (ha0 : a = { KeyAttr.ofWords c.words ai with generated := false }) (hl : kLoc (c.w i) = some l)
    (hi : c.w i < 2 ^ 24) (ht : l.isTarget = true) (ha : keyAttrClean c.words ai = true)
    (hv : s.pathLost (s.cmdWing c) = false)
    (hf : f l a = .done t st ws) :
    Res.target s c i ai f =
      .done (t.rhlVault (t.cmdWing c) st.code (leBytes 4 l.ref ++ wordsToBytes (wordsAt c.words ai 4))) st ws := by
  subst ha0
  have hc : c.clean i 24 = true := decide_eq_true (Nat.div_eq_of_lt hi)
  simp only [Res.target, hl]
  rw [Res.need_of (by rw [hc, ht, ha]; rfl), Res.vault_of hv, hf]
  rfl

end Sys2Proof.Machine
end

section
/-! SUPPORT. Where a key is placed, and the operations that place one (R247, R267). -/

namespace Sys2Proof.Machine

open Sys2Proof.Safety Sys2Proof.Laws

/-! ## Placing a key -/

theorem State.placeKey_sess (s : State) (w : Wing) (n : Nat) (k : Key) :
    (s.placeKey w (.sess n) k).1 = .ok ∧ (s.placeKey w (.sess n) k).2.vlt = { s.vlt with sess := tput s.vlt.sess n k } :=
  ⟨rfl, (State.freshKey_only _ w n).vlt⟩

/-- A slot whose two wings the vault reaches has its copy in both (R276). -/
theorem State.writeSlot_both {s : State} (hl : s.pathLost .sl = false) (hr : s.pathLost .sr = false) (n : Nat) (ref : Option Nat)
    (k : Option Key) : s.writeSlot n ref k =
      (.ok, s.modVlt fun v => { v with slots := tput v.slots n { ref := ref, key := k, inSl := true, inSr := true } }) := by
  simp [State.writeSlot, hl, hr]

/-! ## Operations that place a key -/

section Intake
variable {s : State} {ch : Fin 8} {p : Place} {l : KLoc} {u v : State}
  (hl : kLoc (wordAt p.words 2) = some l) (hl24 : wordAt p.words 2 < 2 ^ 24) (ht : l.isTarget = true)
  (hreach : s.pathLost (home s ch) = false)
include hl hl24 ht hreach

theorem keyGenerate_places {a : KeyAttr} {t : State}
    (h : Served s ch { op := 0x126, lenMin := 9, lenMax := 9, hold := true, iron := true } p) (hclean : keyAttrClean p.words 3 = true)
    (ha : a = { KeyAttr.ofWords p.words 3 with generated := true }) (hwrap : wordAt p.words 10 < 2 ^ 24)
    (hfree : (took s ch).placeCheck (ctx0 s ch p) l a = (none, v)) (hdrbg : v.vlt.drbgOk = true)
    (hdraw : t = (v.draw (ktypeLen a.ktype)).2)
    (hplace : t.placeKey (t.cmdWing (ctx0 s ch p)) l
      (t.newKey a (v.draw (ktypeLen a.ktype)).1 (wordsToBytes (wordsAt p.words 7 3))) = (.ok, u)) :
    Answers (exec (.keyGenerate ch) s)
      (u.rhlVault (u.cmdWing (ctx0 s ch p)) Status.ok.code (leBytes 4 l.ref ++ wordsToBytes (wordsAt p.words 3 4))) ch .ok
      (List.replicate 11 0) := by
  have hunused : fld (wordAt p.words 10) 30 24 = 0 := by
    rw [fld_eq, Nat.div_eq_of_lt hwrap]
    rfl
  have hplain : bitOf (wordAt p.words 10) 31 = false := Nat.testBit_lt_two_pow (by omega)
  obtain ⟨a0, ha0⟩ : ∃ a0, a0 = { KeyAttr.ofWords p.words 3 with generated := false } := ⟨_, rfl⟩
  replace ha : a = { a0 with generated := true } := by rw [ha, ha0]
  subst ha hdraw
  refine answers_once h rfl (Res.target_of ha0 hl hl24 ht hclean (took_reaches hreach p) ?_)
  refine (Res.need_of (decide_eq_true hunused) _ _).trans ?_
  dsimp only at hfree hplace ⊢
  rw [hfree, ctx0_w, hplain]
  dsimp only
  rw [hdrbg, ctx0_salt, hplace]
  rfl

variable {a : KeyAttr} {kl : KLoc} {k : Key} {t : State}
  (hclean : keyAttrClean p.words 4 = true) (ha : a = { KeyAttr.ofWords p.words 4 with generated := false })
  (hfree : (took s ch).placeCheck (ctx0 s ch p) l a = (none, v)) (hkl : kLoc (wordAt p.words 3) = some kl)
  (hkl24 : wordAt p.words 3 < 2 ^ 24) (hspill : v.isSpilled (home v ch) kl = false)
include hclean ha hfree hkl hkl24 hspill

theorem keyUnwrap_places {m : Bytes} (h : Served s ch { op := 0x127, lenMin := 20, lenMax := 20, hold := true, iron := true } p)
    (hlen : wordAt p.words 11 = ktypeLen a.ktype + 8) (hkey : v.commandKey (ctx0 s ch p) kl .wrap = (.ok k, t))
    (hm : kwUnwrap k.material ((wordsToBytes (wordsAt p.words 12 10)).take (wordAt p.words 11)) = some m)
    (hplace : (t.useKey (t.cmdWing (ctx0 s ch p)) kl 1).placeKey (t.cmdWing (ctx0 s ch p)) l
      (t.newKey a m (wordsToBytes (wordsAt p.words 8 3))) = (.ok, u)) :
    Answers (exec (.keyUnwrap ch) s)
      (u.rhlVault (u.cmdWing (ctx0 s ch p)) Status.ok.code (leBytes 4 l.ref ++ wordsToBytes (wordsAt p.words 4 4))) ch .ok [] := by
  refine answers_once h rfl (Res.target_of ha hl hl24 ht hclean (took_reaches hreach p) ?_)
  rw [hfree]
  dsimp only
  rw [ctx0_w, if_neg (not_not_intro hlen), ctx0_w, Res.named_of _ hkey hkl hkl24 hspill]
  dsimp only [ctx0_w, ctx0_words, ctx0_salt]
  rw [hm]
  dsimp only
  rw [hplace]

theorem keyUnwrap_fails (h : Served s ch { op := 0x127, lenMin := 20, lenMax := 20, hold := true, iron := true } p)
    (hlen : wordAt p.words 11 = ktypeLen a.ktype + 8) (hkey : v.commandKey (ctx0 s ch p) kl .wrap = (.ok k, t))
    (hm : kwUnwrap k.material ((wordsToBytes (wordsAt p.words 12 10)).take (wordAt p.words 11)) = none) :
    Answers (exec (.keyUnwrap ch) s)
      (t.rhlVault (t.cmdWing (ctx0 s ch p)) Status.unwrapFail.code (leBytes 4 l.ref ++ wordsToBytes (wordsAt p.words 4 4))) ch
      .unwrapFail [] := by
  refine answers_once h rfl (Res.target_of ha hl hl24 ht hclean (took_reaches hreach p) ?_)
  rw [hfree]
  dsimp only
  rw [ctx0_w, if_neg (not_not_intro hlen), ctx0_w, Res.named_of _ hkey hkl hkl24 hspill]
  dsimp only [ctx0_w, ctx0_words]
  rw [hm]
  rfl

theorem keyDerive_places (h : Served s ch { op := 0x128, lenMin := 13, lenMax := 13, hold := true, iron := true } p)
    (hkey : v.commandKey (ctx0 s ch p) kl .derive = (.ok k, t))
    (hplace : (t.useKey (t.cmdWing (ctx0 s ch p)) kl 1).placeKey (t.cmdWing (ctx0 s ch p)) l
      (t.newKey a (derive k.material "HOST-DRV" t.vlt.ctx (8 * ktypeLen a.ktype)
        (wordsToBytes (wordsAt p.words 11 4))) (wordsToBytes (wordsAt p.words 8 3))) = (.ok, u)) :
    Answers (exec (.keyDerive ch) s)
      (u.rhlVault (u.cmdWing (ctx0 s ch p)) Status.ok.code (leBytes 4 l.ref ++ wordsToBytes (wordsAt p.words 4 4))) ch .ok [] := by
  refine answers_once h rfl (Res.target_of ha hl hl24 ht hclean (took_reaches hreach p) ?_)
  rw [hfree]
  dsimp only
  rw [ctx0_w, Res.named_of _ hkey hkl hkl24 hspill]
  dsimp only [ctx0_words, ctx0_salt]
  rw [hplace]

end Intake

/-- Settles O18: the key goes where `placeKey` writes it, and each operation comes to `placeKey` once its wrappers pass. -/
theorem keyIntake : Obligations.KeyIntake := by
  unfold Obligations.KeyIntake
  refine ⟨fun s w k n => ⟨s.placeKey_sess w n k, fun hl hr => State.writeSlot_both hl hr n none k, fun _ => ⟨rfl, rfl⟩⟩, ?_⟩
  rintro s ch p l u v t c rfl hl hl24 ht hreach
  refine ⟨fun a h hclean ha hwrap hfree hdrbg hdraw hplace =>
      keyGenerate_places hl hl24 ht hreach h hclean ha hwrap hfree hdrbg hdraw hplace,
    fun a kl k h hclean ha hfree hlen hkl hkl24 hspill hkey => ⟨fun m hm hplace => ?_, fun hm => ?_⟩,
    fun a kl k h hclean ha hfree hkl hkl24 hspill hkey hplace => ?_⟩
  · exact keyUnwrap_places hl hl24 ht hreach hclean ha hfree hkl hkl24 hspill h hlen hkey hm hplace
  · exact keyUnwrap_fails hl hl24 ht hreach hclean ha hfree hkl hkl24 hspill h hlen hkey hm
  · exact keyDerive_places hl hl24 ht hreach hclean ha hfree hkl hkl24 hspill h hkey hplace

end Sys2Proof.Machine
end

section
/-! SUPPORT. MKA keys and integrity values (R268). -/

namespace Sys2Proof.Machine

open Sys2Proof.Safety Sys2Proof.Laws

/-! ## The wing that serves the command, through the operations on keys -/

theorem State.cmdWing_congr {s t : State} (h : t.chans = s.chans) (c : Ctx) : t.cmdWing c = s.cmdWing c := by
  rw [State.cmdWing, h]
  rfl

/-- A change of a channel that leaves its wing leaves the wing that serves a command. -/
theorem State.modChan_cmdWing (s : State) (n : Fin 8) (f : Chan → Chan) (c : Ctx) (h : ∀ x, (f x).mapWing = x.mapWing) :
    (s.modChan n f).cmdWing c = s.cmdWing c := by
  unfold State.cmdWing
  by_cases hn : n = c.ch
  · subst hn
    simp [h]
  · simp [Vector.getElem_set_ne, Fin.val_ne_of_ne hn]

theorem keyed_chans (s : State) (ch : Fin 8) (l : KLoc) : (keyed s ch l).chans = (took s ch).chans :=
  (State.needKey_only _ _ _).chans

theorem keyed_cmdWing (s : State) (ch : Fin 8) (p : Place) (l : KLoc) : (keyed s ch l).cmdWing (ctx0 s ch p) = home s ch := by
  rw [State.cmdWing_congr (keyed_chans s ch l), took_cmdWing]

theorem State.newKey_congr {s t : State} (h : t.vlt.rt = s.vlt.rt) : t.newKey = s.newKey := by
  funext a key salt
  simp only [State.newKey, State.rt, h]

/-- A key that may be used is one that the command reads at once. -/
theorem Res.named_usable {s : State} {ch : Fin 8} {p : Place} {l : KLoc} {u : Usage} {k : Key} (h : Usable s ch p l u k)
    {ref : Nat} (hl : kLoc ref = some l) (hr : ref < 2 ^ 24) (f : State → KLoc → Key → Res) :
    Res.named (took s ch) (ctx0 s ch p) ref u f = f (keyed s ch l) l k := by
  have hk := usable_command h
  obtain ⟨_, _, _, _, hs⟩ := h
  refine Res.named_of f hk hl hr ?_
  rw [took_cmdWing, took_isSpilled, hs]

/-! ## MKA_DERIVE -/

/-- A free session entry holds no key, and looking changes nothing. -/
theorem State.holdsKey_free {s : State} {j : Nat} (h : tget s.vlt.sess j = none) (w : Wing) :
    s.holdsKey w (.sess j) = (false, s) := by
  have hr : s.readKey w (.sess j) = (none, s) := by
    have hk : s.vlt.keyAt (.sess j) = none := h
    simp only [State.readKey, hk]
    split
    · rfl
    · rfl
  rw [State.holdsKey, hr]
  rfl

/-- Two keys placed in session entries: both stand there, and the channels are as they were. -/
theorem State.placeKey_sess_sess (t : State) (w : Wing) (a b : Nat) (i k : Key) :
    ((t.placeKey w (.sess a) i).2.placeKey w (.sess b) k).2.vlt = { t.vlt with sess := tput (tput t.vlt.sess a i) b k }
      ∧ ((t.placeKey w (.sess a) i).2.placeKey w (.sess b) k).2.chans = t.chans := by
  have hfst := (t.placeKey_sess w a i).2
  refine ⟨?_, (State.freshKey_only _ w b).chans.trans (State.freshKey_only _ w a).chans⟩
  rw [(State.placeKey_sess _ w b k).2, hfst]

section Derive
variable {s : State} {ch : Fin 8} {p : Place} {k : Key} {t : State}
include s

theorem mkaDerive_answers {id n a b : Nat} (hreach : s.pathLost (home s ch) = false)
    (h : Served s ch { op := 0x129, lenMin := 12, lenMax := 12, hold := true, iron := true } p)
    (hl : kLoc (wordAt p.words 2) = some (.classA id)) (hr : wordAt p.words 2 < 2 ^ 24) (ha : wordAt p.words 3 = a)
    (ha20 : a < 2 ^ 20) (hb : wordAt p.words 4 = b) (hb20 : b < 2 ^ 20) (hab : a ≠ b) (hn : wordAt p.words 5 = n) (hn1 : 1 ≤ n)
    (hn32 : n ≤ 32) (hfa : tget s.vlt.sess a = none) (hfb : tget s.vlt.sess b = none) (hk : Usable s ch p (.classA id) .mka k)
    (ht : t = (took s ch).useKey (home s ch) (.classA id) 1) :
    ∃ (u : State) (ick kek : Key),
      ick = t.newKey (mkaAttr k.attr .icv) (mkaKdf k.material "IEEE8021 ICK"
        ((wordsToBytes (wordsAt p.words 6 8)).take n) (8 * ktypeLen k.attr.ktype)) []
      ∧ kek = t.newKey (mkaAttr k.attr .wrap) (mkaKdf k.material "IEEE8021 KEK"
        ((wordsToBytes (wordsAt p.words 6 8)).take n) (8 * ktypeLen k.attr.ktype)) []
      ∧ u.vlt = { t.vlt with sess := tput (tput t.vlt.sess a ick) b kek } ∧ u.chans = t.chans
      ∧ Answers (exec (.mkaDerive ch) s) (u.rhlVault (home s ch) Status.ok.code (leBytes 4 (wordAt p.words 2))) ch .ok [] := by
  subst ha hb hn
  obtain ⟨hchans, hrt⟩ : t.chans = (took s ch).chans ∧ t.vlt.rt = (took s ch).vlt.rt := by
    rw [ht]
    exact State.useKey_chans ..
  rw [State.newKey_congr hrt]
  set ick := (took s ch).newKey (mkaAttr k.attr .icv) (mkaKdf k.material "IEEE8021 ICK"
    ((wordsToBytes (wordsAt p.words 6 8)).take (wordAt p.words 5)) (8 * ktypeLen k.attr.ktype)) [] with hick
  set kek := (took s ch).newKey (mkaAttr k.attr .wrap) (mkaKdf k.material "IEEE8021 KEK"
    ((wordsToBytes (wordsAt p.words 6 8)).take (wordAt p.words 5)) (8 * ktypeLen k.attr.ktype)) [] with hkek
  obtain ⟨hvlt, hch⟩ := t.placeKey_sess_sess (home s ch) (wordAt p.words 3) (wordAt p.words 4) ick kek
  refine ⟨_, ick, kek, rfl, rfl, hvlt, hch, answers_once h rfl ?_⟩
  have hfreeA := (took s ch).holdsKey_free (j := wordAt p.words 3) hfa
  have hfreeB := (took s ch).holdsKey_free (j := wordAt p.words 4) hfb
  dsimp only [ctx0_w, ctx0_words]
  rw [hl, Res.need_of (by simp [ctx0_clean hr, ctx0_clean ha20, ctx0_clean hb20, hn1, hn32]),
    Res.vault_of (took_reaches hreach p), hfreeA]
  dsimp only
  rw [hfreeB]
  dsimp only
  have hboth : ¬(false = true ∨ false = true ∨ wordAt p.words 3 = wordAt p.words 4) := by simp [hab]
  refine (congrArg (Res.vaultRec _ _) ((if_neg hboth).trans (Res.named_usable hk hl hr _))).trans ?_
  rw [show keyed s ch (.classA id) = took s ch from rfl, took_cmdWing, ← ht, ← hick, ← hkek]
  exact Res.vaultRec_done ((State.cmdWing_congr (hch.trans hchans) _).trans (took_cmdWing s ch p)) ..

end Derive

/-! ## MKA_ICV -/

theorem b2n_le_one (b : Bool) : b2n b ≤ 1 := by cases b <;> decide

theorem decide_b2n (b : Bool) : decide (b2n b = 1) = b := by cases b <;> decide

/-- The word that tells the first part, the last and the count of bytes. -/
theorem icvWord_fields {x n : Nat} {first last : Bool} (hn : n ≤ 236) (hx : x = b2n first + b2n last * 2 + n * 256) :
    fld x 15 8 = n ∧ fld x 7 2 = 0 ∧ fld x 31 16 = 0 ∧ bitOf x 0 = first ∧ bitOf x 1 = last := by
  have hf := b2n_le_one first
  have hl := b2n_le_one last
  have h0 : x / 2 ^ 0 % 2 = b2n first := by omega
  have h1 : x / 2 ^ 1 % 2 = b2n last := by omega
  simp only [fld_eq, bitOf, Nat.testBit_eq_decide_div_mod_eq, h0, h1, decide_b2n, and_self, and_true]
  omega

section Icv
variable {s : State} {ch : Fin 8} {p : Place} {k : Key} {t : State} {l : KLoc} {n : Nat} {first last : Bool} {bytes all : Bytes}

theorem mkaIcv_answers (hreach : s.pathLost (home s ch) = false)
    (h : Served s ch { op := 0x12A, lenMin := 3, lenMax := 61, hold := true, iron := true } p)
    (hl : kLoc (wordAt p.words 2) = some l) (hr : wordAt p.words 2 < 2 ^ 24) (hn1 : 1 ≤ n) (hn : n ≤ 236)
    (hlen : p.len = 2 + (n + 3) / 4) (hw : wordAt p.words 3 = b2n first + b2n last * 2 + n * 256) (hk : Usable s ch p l .icv k)
    (ht : t = (keyed s ch l).useKey (home s ch) l 1) (hbytes : bytes = (wordsToBytes (wordsAt p.words 4 59)).take n)
    (hall : all = (if first then [] else s.chans[ch].icv) ++ bytes) :
    Answers (exec (.mkaIcv ch) s)
      ((t.modChan ch fun x => { x with icv := if last then [] else all }).rhlVault (home s ch) Status.ok.code
        (leBytes 4 (wordAt p.words 2))) ch .ok (if last then bytesToWords (cmac k.material all) else []) := by
  obtain ⟨hcount, hlow, hhigh, hfirst, hlast⟩ := icvWord_fields hn hw
  have hchans : t.chans = (took s ch).chans := by
    rw [ht, (State.useKey_chans ..).1, keyed_chans]
  have hicv : (keyed s ch l).chans[ch].icv = s.chans[ch].icv := by
    rw [keyed_chans]
    simp [took]
  have hwing : (t.modChan ch fun x => { x with icv := if last then [] else all }).cmdWing (ctx0 s ch p) = home s ch := by
    rw [State.modChan_cmdWing, State.cmdWing_congr hchans, took_cmdWing]
    exact fun _ => rfl
  refine answers_once h rfl ?_
  have hlen' : fld (wordAt p.words 0) 21 16 = 2 + (n + 3) / 4 := hlen
  dsimp only [ctx0_w, ctx0_words]
  rw [hcount, Res.need_of (by simp [ctx0_clean hr, hlow, hhigh, hlen', hn1, hn]), Res.vault_of (took_reaches hreach p),
    Res.named_usable hk hl hr, keyed_cmdWing, ← ht]
  simp only [hfirst, hlast, ctx0_ch, hicv, ← hbytes, ← hall]
  exact Res.vaultRec_done hwing ..

end Icv

/-- Settles O19: the two entries are free, so both keys are placed; the parts of an integrity value gather in their order. -/
theorem keyAgreement : Obligations.KeyAgreement := by
  unfold Obligations.KeyAgreement
  intro s ch p k t hreach
  refine ⟨fun id n a b h hl hr ha ha20 hb hb20 hab hn hn1 hn32 hfa hfb hk ht =>
      mkaDerive_answers hreach h hl hr ha ha20 hb hb20 hab hn hn1 hn32 hfa hfb hk ht,
    fun l n first last bytes all h hl hr hn1 hn hlen hw hk ht hbytes hall => ?_⟩
  have hans := mkaIcv_answers hreach h hl hr hn1 hn hlen hw hk ht hbytes hall
  refine ⟨fun hlast => ?_, fun hlast => ?_⟩
  · subst hlast
    exact hans
  · subst hlast
    exact hans

end Sys2Proof.Machine
end

section
/-! SUPPORT. Referring a slot to a Class A key, and ending a key (R247, R274). -/

namespace Sys2Proof.Machine

open Sys2Proof.Safety Sys2Proof.Laws

/-! ## A close of a key begins -/

theorem OnlyWings.foldl {α : Type} {f : State → α → State} (h : ∀ s a, OnlyWings s (f s a)) (l : List α) (s : State) :
    OnlyWings s (l.foldl f s) := by
  induction l generalizing s with
  | nil => exact .refl s
  | cons a l ih => exact (h s a).trans (ih _)

/-- The grants met by a close of a key are recorded first, and change the wings alone. -/
theorem State.closeGrants_only (s : State) (met : State → Fin 4 → Bool) :
    OnlyWings s ((List.finRange 4).foldl (fun s q => s.closeGrant (rqpWing q) (met s q)) s) :=
  OnlyWings.foldl (fun s _ => s.closeGrant_only _ _) _ s

theorem State.startKeyClose_only (s : State) (l : KLoc) : s.startKeyClose l =
    { s with vlt := (s.startKeyClose l).vlt, sl := (s.startKeyClose l).sl, sr := (s.startKeyClose l).sr } := by
  unfold State.startKeyClose
  extract_lets uses t
  obtain ⟨a, b, ht⟩ : ∃ a b, t = { s with sl := a, sr := b } := (s.closeGrants_only _).exists
  rw [ht]
  cases l <;> rfl

theorem State.startKeyClose_slot (s : State) (j : Nat) : (s.startKeyClose (.slot j)).vlt =
    { s.vlt with slots := tmod s.vlt.slots j fun e => if e.closeAt.isSome then e else { e with closeAt := some s.rt } } := by
  unfold State.startKeyClose
  extract_lets uses t
  have ht : OnlyWings s t := s.closeGrants_only _
  simp only [State.modVlt, State.rt, ht.vlt]
  rfl

theorem State.startKeyClose_classA (s : State) (j : Nat) : (s.startKeyClose (.classA j)).vlt =
    s.vlt.modKey (.classA j) fun k => if k.closeAt.isSome then k else { k with closeAt := some s.rt } := by
  unfold State.startKeyClose
  extract_lets uses t
  have ht : OnlyWings s t := s.closeGrants_only _
  simp only [State.modVlt, State.rt, ht.vlt]

/-! ## A session key that no command waits for -/

theorem State.answerWaiters_none {s : State} (h : ∀ c : Fin 8, s.chans[c].waiting = none) (w : Wait) (st : Status)
    (ws : List Word) : s.answerWaiters w st ws = s := by
  unfold State.answerWaiters
  generalize List.finRange 8 = l
  induction l with
  | nil => rfl
  | cons c l ih => rw [List.foldl_cons, h c, if_neg (by simp), ih]

theorem State.endKeyClose_sess {s : State} (h : ∀ c : Fin 8, s.chans[c].waiting = none) (j : Nat) (forced : Bool) :
    s.endKeyClose (.sess j) forced = s.modVlt fun v => { v with sess := tdel v.sess j } :=
  State.answerWaiters_none (s := s.modVlt fun v => { v with sess := tdel v.sess j }) h _ _ _

theorem took_waiting {s : State} (ch c : Fin 8) : (took s ch).chans[c].waiting = s.chans[c].waiting := by
  by_cases h : ch = c
  · subst h
    simp only [took, State.modChan_chans, Fin.getElem_fin, Vector.getElem_set_self]
    rfl
  · simp [took, Vector.getElem_set_ne, Fin.val_ne_of_ne h]

/-! ## A use of a key changes the keys alone -/

/-- Two states of the vault that differ in the keys they hold at most. -/
def OnlyKeys (v u : Vault) : Prop := u = { v with classA := u.classA, slots := u.slots, sess := u.sess }

theorem OnlyKeys.refl (v : Vault) : OnlyKeys v v := rfl

theorem OnlyKeys.trans {v u x : Vault} (h : OnlyKeys v u) (k : OnlyKeys u x) : OnlyKeys v x := by
  unfold OnlyKeys at h k ⊢
  rw [k, h]

theorem OnlyKeys.paths {v u : Vault} (h : OnlyKeys v u) : u.pathLostSl = v.pathLostSl ∧ u.pathLostSr = v.pathLostSr := by
  rw [h]
  exact ⟨rfl, rfl⟩

theorem OnlyKeys.drbgOk {v u : Vault} (h : OnlyKeys v u) : u.drbgOk = v.drbgOk := by rw [h]

theorem Vault.modKey_only (v : Vault) (l : KLoc) (f : Key → Key) : OnlyKeys v (v.modKey l f) := by
  unfold Vault.modKey
  extract_lets inCell
  have hcell : ∀ id, OnlyKeys v (inCell v id) := by
    intro id
    dsimp only [inCell]
    split
    · rfl
    · rfl
  split
  · exact hcell _
  · rfl
  · split
    · split
      · exact hcell _
      · rfl
    · rfl

theorem State.spend_keys (s : State) (w : Wing) (l : KLoc) : OnlyKeys s.vlt (s.spend w l).vlt := by
  have hclose := (s.closeUnder_only l).vlt
  rcases s.spend_eq w l with e | e | e
  · rw [e]
    exact .refl _
  · rw [e, hclose]
    exact .refl _
  · rw [e]
    simp only [State.countWing_vlt, State.log_vlt, State.modVlt_vlt, hclose]
    exact Vault.modKey_only ..

theorem State.useKey_keys (s : State) (w : Wing) (l : KLoc) (n : Nat) : OnlyKeys s.vlt (s.useKey w l n).vlt := by
  unfold State.useKey
  extract_lets t
  have ht : OnlyKeys s.vlt t.vlt := Vault.modKey_only ..
  split
  · split
    · exact ht.trans (State.spend_keys ..)
    · exact ht
  · exact ht

theorem State.pathLost_congr {s t : State} (h : t.vlt.pathLostSl = s.vlt.pathLostSl ∧ t.vlt.pathLostSr = s.vlt.pathLostSr)
    (w : Wing) : t.pathLost w = s.pathLost w := by
  cases w
  · exact h.1
  · exact h.2

theorem State.useKey_pathLost (s : State) (w v : Wing) (l : KLoc) (n : Nat) : (s.useKey w l n).pathLost v = s.pathLost v :=
  State.pathLost_congr (s.useKey_keys w l n).paths v

/-! ## The commands -/

section Ends
variable {s : State} {ch : Fin 8} {p : Place} {j : Nat} (hsl : s.pathLost .sl = false) (hsr : s.pathLost .sr = false)
include hsl hsr

theorem home_reaches (ch : Fin 8) : s.pathLost (home s ch) = false := by
  cases home s ch
  · exact hsl
  · exact hsr

theorem memslotLoad_refers {id : Nat} {k : Key}
    (h : Served s ch { op := 0x0E5, lenMin := 2, lenMax := 2, hold := true, iron := true } p) (hj : wordAt p.words 2 = j)
    (hj12 : j < 2 ^ 12) (hr : wordAt p.words 3 < 2 ^ 24) (hl : kLoc (wordAt p.words 3) = some (.classA id))
    (hfree : tget s.vlt.slots j = none)
    (hk : (took s ch).commandKey (ctx0 s ch p) (.classA id) .memory = (.ok k, took s ch)) (haes : k.attr.ktype ≤ 2) :
    Answers (exec (.memslotLoad ch) s) (((took s ch).useKey (home s ch) (.classA id) 1).modVlt fun v =>
      { v with slots := tput v.slots j { ref := some id, key := none, inSl := true, inSr := true } }) ch .ok [] := by
  subst hj
  have hfree' : tget (took s ch).vlt.slots (wordAt p.words 2) = none := hfree
  refine answers_once h rfl ?_
  rw [ctx0_w, hl, Res.need_of (by simp [ctx0_clean hj12, ctx0_clean hr])]
  dsimp only
  rw [ctx0_w, show (took s ch).chans[(ctx0 s ch p).ch].mapWing = home s ch from took_home s ch, hfree',
    show (took s ch).pathLost .sl = false from hsl, hk]
  dsimp only
  have hpath (w : Wing) : ((took s ch).useKey (home s ch) (.classA id) 1).pathLost w = (took s ch).pathLost w :=
    State.useKey_pathLost ..
  rw [if_neg (Nat.not_lt.2 haes), State.writeSlot_both ((hpath .sl).trans hsl) ((hpath .sr).trans hsr)]
  rfl

theorem keyDestroy_sess (h : Served s ch { op := 0x12B, lenMin := 1, lenMax := 1, close := true, hold := true, iron := true } p)
    (hr : wordAt p.words 2 < 2 ^ 24) (hl : kLoc (wordAt p.words 2) = some (.sess j)) (hj : (tget s.vlt.sess j).isSome = true)
    (huse : (took s ch).keyInUse (wordAt p.words 2) = false) (hwait : ∀ c : Fin 8, s.chans[c].waiting = none) :
    Answers (exec (.keyDestroy ch) s) ((took s ch).modVlt fun v => { v with sess := tdel v.sess j }) ch .ok [] := by
  have hj' : (tget (took s ch).vlt.sess j).isNone = false := Option.isNone_eq_false_iff.2 hj
  refine answers_once h rfl ?_
  rw [ctx0_w, hl, Res.need_of (ctx0_clean hr)]
  dsimp only
  rw [Res.vault_of (took_reaches (home_reaches hsl hsr ch) p), hj', huse,
    State.endKeyClose_sess fun c => (took_waiting ch c).trans (hwait c)]
  rfl

theorem keyDestroy_used (h : Served s ch { op := 0x12B, lenMin := 1, lenMax := 1, close := true, hold := true, iron := true } p)
    (hr : wordAt p.words 2 < 2 ^ 24) (hl : kLoc (wordAt p.words 2) = some (.sess j)) (hj : (tget s.vlt.sess j).isSome = true)
    (huse : (took s ch).keyInUse (wordAt p.words 2) = true) : Answers (exec (.keyDestroy ch) s) (took s ch) ch .keyInUse [] := by
  have hj' : (tget (took s ch).vlt.sess j).isNone = false := Option.isNone_eq_false_iff.2 hj
  refine answers_once h rfl ?_
  rw [ctx0_w, hl, Res.need_of (ctx0_clean hr)]
  dsimp only
  rw [Res.vault_of (took_reaches (home_reaches hsl hsr ch) p), hj', huse]
  rfl

theorem keyDestroy_slot (h : Served s ch { op := 0x12B, lenMin := 1, lenMax := 1, close := true, hold := true, iron := true } p)
    (hr : wordAt p.words 2 < 2 ^ 24) (hl : kLoc (wordAt p.words 2) = some (.slot j)) (hj : (tget s.vlt.slots j).isSome = true)
    (hforce : p.force = false) :
    Waits (exec (.keyDestroy ch) s) ((took s ch).startKeyClose (.slot j)) ch (.key (wordAt p.words 2)) := by
  have hj' : (tget (took s ch).vlt.slots j).isNone = false := Option.isNone_eq_false_iff.2 hj
  refine waits_once h rfl ?_
  rw [ctx0_w, hl, Res.need_of (ctx0_clean hr)]
  dsimp only
  rw [Res.vault_of (took_reaches (home_reaches hsl hsr ch) p), hj', show (ctx0 s ch p).force = false from hforce]
  rfl

theorem classAUnload_closes
    (h : Served s ch { op := 0x125, lenMin := 1, lenMax := 1, close := true, hold := true, iron := true } p)
    (hw : wordAt p.words 2 = j) (hj : j < 2 ^ 7) (hkey : (s.vlt.keyAt (.classA j)).isSome = true) (hforce : p.force = false) :
    Waits (exec (.classAUnload ch) s) ((took s ch).startKeyClose (.classA j)) ch (.classA j) := by
  subst hw
  have hkey' : ((took s ch).vlt.keyAt (.classA (wordAt p.words 2))).isNone = false := Option.isNone_eq_false_iff.2 hkey
  refine waits_once h rfl ?_
  rw [ctx0_w, Res.need_of (ctx0_clean hj), Res.vault_of (took_reaches (home_reaches hsl hsr ch) p), State.closeKey, hkey',
    show (ctx0 s ch p).force = false from hforce]
  rfl

end Ends

/-- Settles O20: each command passes its checks and comes to the slot written, the key dropped or the close begun. -/
theorem keyEnds : Obligations.KeyEnds := by
  unfold Obligations.KeyEnds
  intro s ch p j hsl hsr
  refine ⟨fun id k h hj hj12 hr hl hfree hk haes => memslotLoad_refers hsl hsr h hj hj12 hr hl hfree hk haes,
    fun h hr => ⟨fun hl hj huse hwait => keyDestroy_sess hsl hsr h hr hl hj huse hwait,
      fun hl hj huse => keyDestroy_used hsl hsr h hr hl hj huse,
      fun hl hj hforce => keyDestroy_slot hsl hsr h hr hl hj hforce⟩,
    fun h hw hj hkey hforce => classAUnload_closes hsl hsr h hw hj hkey hforce, ?_⟩
  rintro t l rfl
  refine ⟨s.startKeyClose_only l, ?_, ?_⟩
  · rintro rfl
    exact s.startKeyClose_slot j
  · rintro rfl
    exact s.startKeyClose_classA j

end Sys2Proof.Machine
end

section
/-! SUPPORT. Loading a blob, and reading of keys (R244, R245, R258). -/

namespace Sys2Proof.Machine

open Sys2Proof.Safety Sys2Proof.Laws

/-! ## A Class A cell that is free -/

theorem State.readKey_unloaded {s : State} {id : Nat} (h : s.vlt.keyAt (.classA id) = none) (w : Wing) :
    s.readKey w (.classA id) = (none, s) := by
  simp only [State.readKey, h]
  rfl

theorem State.loadClassA_free {s : State} {id : Nat} {i : Fin 64} (hc : s.vlt.cellOf id = none) (hi : s.vlt.freeCell = some i)
    (k : Key) : s.loadClassA id k = s.modVlt fun v => { v with classA := v.classA.set i (some (id, k)) } := by
  simp only [State.loadClassA, hc, hi]

/-! ## The commands -/

section Blobs
variable {s : State} {ch : Fin 8} {p : Place} (hreach : s.pathLost (home s ch) = false)
include hreach

theorem blobLoad_loads {blob : List Word} {id : Nat} {a : KeyAttr} {m : Bytes} {i : Fin 64}
    (h : Served s ch { op := 0x124, lenMin := 27, lenMax := 27, hold := true, iron := true } p)
    (hblob : blob = wordsAt p.words 2 27) (hid : id = fld (wordAt blob 0) 22 16) (ha : a = KeyAttr.ofWords blob 3)
    (hm : kwUnwrap (s.vlt.keys.wkr.getD []) (wordsToBytes (wordsAt blob 7 20)) = some m)
    (hhead : m.take 28 = wordsToBytes (blob.take 7)) (hcls : a.clsB = false)
    (hver : wordsNat (wordsAt blob 1 2) = s.vlt.version id) (hlc : a.lcAllowed.testBit (s.vlt.lcCode - 1) = true)
    (hcell : s.vlt.cellOf id = none) (hfree : s.vlt.freeCell = some i) :
    ∃ k : Key, k = { attr := a, key := (m.drop 28).take 32, salt := (m.drop 60).take 12, at' := s.rt } ∧
      Answers (exec (.blobLoad ch) s) (((took s ch).modVlt fun v => { v with classA := v.classA.set i (some (id, k)) }).rhlVault
        (home s ch) Status.ok.code (leBytes 4 (KLoc.classA id).ref ++ wordsToBytes a.words)) ch .ok [] := by
  have hkey : (took s ch).vlt.keyAt (.classA id) = none := by
    show ((s.vlt.cellOf id).map (·.2)) = none
    rw [hcell]
    rfl
  refine ⟨_, rfl, answers_once h rfl ?_⟩
  dsimp only
  rw [ctx0_words, ← hblob, ← hid, ← ha, Res.vault_of (took_reaches hreach p),
    show kwUnwrap ((took s ch).vlt.keys.wkr.getD []) (wordsToBytes (wordsAt blob 7 20)) = some m from hm]
  dsimp only
  rw [if_neg (by simp [hhead, hcls]), if_neg (not_not_intro (show _ = (took s ch).vlt.version id from hver)),
    if_neg (by rw [show (took s ch).vlt = s.vlt from rfl, hlc]; decide), State.readKey_unloaded hkey]
  dsimp only
  rw [show (took s ch).vlt.freeCell = some i from hfree, State.loadClassA_free (s := took s ch) hcell hfree]
  refine Res.vaultRec_done ?_ ..
  exact (State.cmdWing_congr (s := took s ch) rfl _).trans (took_cmdWing s ch p)

theorem keyInfo_answers {l : KLoc} {k : Key} (h : Served s ch { op := 0x12C, lenMin := 1, lenMax := 1 } p)
    (hr : wordAt p.words 2 < 2 ^ 24) (hl : kLoc (wordAt p.words 2) = some l) (hspill : s.isSpilled (home s ch) l = false)
    (hk : (took s ch).readKey (home s ch) l = (some k, took s ch)) :
    Answers (exec (.keyInfo ch) s) ((took s ch).rhlVault (home s ch) Status.ok.code (leBytes 4 (wordAt p.words 2))) ch .ok
      (k.attr.words ++ [wd k.uses, 1]) := by
  refine answers_once h rfl ?_
  rw [ctx0_w, hl, Res.need_of (ctx0_clean hr)]
  dsimp only
  rw [Res.vault_of (took_reaches hreach p), took_cmdWing, Res.keyBack_of (by rw [took_cmdWing, took_isSpilled, hspill]), hk]
  exact Res.vaultRec_done (took_cmdWing s ch p) ..

theorem keyInfo_unloaded {id : Nat} (h : Served s ch { op := 0x12C, lenMin := 1, lenMax := 1 } p)
    (hr : wordAt p.words 2 < 2 ^ 24) (hl : kLoc (wordAt p.words 2) = some (.classA id)) (hk : s.vlt.keyAt (.classA id) = none)
    (hver : s.vlt.version id ≠ 0) :
    Answers (exec (.keyInfo ch) s) ((took s ch).rhlVault (home s ch) Status.ok.code (leBytes 4 (wordAt p.words 2))) ch .ok
      (List.replicate 6 0) := by
  refine answers_once h rfl ?_
  rw [ctx0_w, hl, Res.need_of (ctx0_clean hr)]
  dsimp only
  rw [Res.vault_of (took_reaches hreach p), Res.keyBack_of rfl, State.readKey_unloaded (s := took s ch) hk]
  dsimp only
  rw [if_pos (show (took s ch).vlt.version id ≠ 0 from hver)]
  exact Res.vaultRec_done (took_cmdWing s ch p) ..

theorem devKeys_answers {d e : Nat} (h : Served s ch { op := 0x120, lenMin := 0, lenMax := 0 } p)
    (hd : s.vlt.keys.trans = some d) (he : s.vlt.keys.attest = some e) :
    Answers (exec (.devKeys ch) s) ((took s ch).rhlVault (home s ch) Status.ok.code (leBytes 4 s.vlt.ctx)) ch .ok
      (bytesToWords didBytes ++ [wd s.vlt.ctx] ++ bytesToWords (ecPub d) ++ bytesToWords (ecPub e)) := by
  refine answers_once h rfl ?_
  rw [Res.vault_of (took_reaches hreach p), show (took s ch).vlt = s.vlt from rfl, hd, he]
  exact Res.vaultRec_done (took_cmdWing s ch p) ..

end Blobs

/-- Settles O21: a blob that passes R258's checks in their order is loaded; a key's attributes and the public keys are read. -/
theorem keyBlobs : Obligations.KeyBlobs := by
  unfold Obligations.KeyBlobs
  intro s ch p hreach
  refine ⟨fun blob id a m i h hblob hid ha hm hhead hcls hver hlc hcell hfree =>
      blobLoad_loads hreach h hblob hid ha hm hhead hcls hver hlc hcell hfree,
    fun l h hr hl => ⟨fun k hspill hk => keyInfo_answers hreach h hr hl hspill hk, ?_⟩,
    fun d e h hd he => devKeys_answers hreach h hd he⟩
  rintro id rfl hk hver
  exact keyInfo_unloaded hreach h hr hl hk hver

end Sys2Proof.Machine
end

section
/-! SUPPORT. Key update messages: a verified message reaches its action (R259 to R263, R276, R301). -/

namespace Sys2Proof.Machine

open Sys2Proof.Safety Sys2Proof.Laws

/-! ## A message that passes the checks of R262 -/

section Verified
variable {s : State} {ch : Fin 8} {p : Place} {ws : List Word} {n : Nat}

theorem took_kumWords (s : State) (ch : Fin 8) : (took s ch).chans[ch].kumWords = s.chans[ch].kumWords := by
  simp only [took, State.modChan_chans, Fin.getElem_fin, Vector.getElem_set_self]
  rfl

theorem kumTook_cmdWing (s : State) (ch : Fin 8) (p : Place) : (kumTook s ch).cmdWing (ctx0 s ch p) = home s ch := by
  rw [kumTook, State.modChan_cmdWing, took_cmdWing]
  exact fun _ => rfl

/-- A verified message whose action the Iron leaves is handed to it, the words gathered being dropped. -/
theorem kum_verified (h : KumServed s ch p ws n)
    (hiron : s.vlt.ironHeld = true → kumAction ws = 4 ∨ (kumAction ws = 5 ∧ kumArg ws = 6)) (action : State → List Word → Res) :
    (took s ch).kum (ctx0 s ch p) action = action (kumTook s ch) ws := by
  obtain ⟨_, hws, _, _, hreach, hlc, hearly, hmac, hseen⟩ := h
  have hv : (kumTook s ch).vlt = s.vlt := rfl
  have hpath : (kumTook s ch).pathLost ((kumTook s ch).cmdWing (ctx0 s ch p)) = false := by
    rw [kumTook_cmdWing, ← hreach]
    exact State.pathLost_congr ⟨rfl, rfl⟩ _
  have hpass : ¬(s.vlt.ironHeld ∧ ¬(kumAction ws = 4 ∨ (kumAction ws = 5 ∧ kumArg ws = 6))) := fun ⟨hi, hn⟩ => hn (hiron hi)
  unfold State.kum
  extract_lets ws' t
  have hws' : ws' = ws := (took_kumWords s ch).trans hws
  have ht : t = kumTook s ch := rfl
  rw [hws', ht, Res.vault_of hpath, hv, if_neg hpass, if_neg hlc, hearly]
  dsimp only
  rw [hmac, hseen]
  rfl

/-- The row of the action of a verified message carries it out. -/
theorem runKum_verified {f : Nat → Bool} {action : Ctx → State → List Word → Res} (h : KumServed s ch p ws n) (hf : f n = true)
    (hiron : s.vlt.ironHeld = true → kumAction ws = 4 ∨ (kumAction ws = 5 ∧ kumArg ws = 6)) :
    s.runKum ch f action =
      (Res.vaultRec (ctx0 s ch p) (leBytes 4 s.vlt.ctx) (action (ctx0 s ch p) (kumTook s ch) ws)).settle ch s.chans[ch].expect := by
  have hkum := kum_verified h hiron (action (ctx0 s ch p))
  obtain ⟨hserved, hws, haction, hburn, _⟩ := h
  have hrow : s.kumIs ch f = true := by rw [State.kumIs, hws, haction, hf]
  rw [State.runKum, hburn, if_neg (by simp), runSel_served _ _ hserved hrow, ← hkum]
  rfl

theorem answers_kum {f : Nat → Bool} {action : Ctx → State → List Word → Res} {t : State} {st : Status} {r : List Word}
    (h : KumServed s ch p ws n) (hf : f n = true)
    (hiron : s.vlt.ironHeld = true → kumAction ws = 4 ∨ (kumAction ws = 5 ∧ kumArg ws = 6))
    (ha : action (ctx0 s ch p) (kumTook s ch) ws = .done t st r) :
    Answers (.next (s.runKum ch f action)) (t.rhlVault (t.cmdWing (ctx0 s ch p)) st.code (leBytes 4 s.vlt.ctx)) ch st r := by
  rw [runKum_verified h hf hiron, ha]
  rfl

theorem waits_kum {f : Nat → Bool} {action : Ctx → State → List Word → Res} {t : State} {w : Wait} (h : KumServed s ch p ws n)
    (hf : f n = true) (hiron : s.vlt.ironHeld = true → kumAction ws = 4 ∨ (kumAction ws = 5 ∧ kumArg ws = 6))
    (ha : action (ctx0 s ch p) (kumTook s ch) ws = .wait t w) : Waits (.next (s.runKum ch f action)) t ch w := by
  rw [runKum_verified h hf hiron, ha]
  rfl

end Verified

/-! ## The actions -/

section Actions
variable {s : State} {ch : Fin 8} {p : Place} {ws : List Word} {cut : JCut} {t : State}

theorem kumPart_gathers {first n : Nat} (h : Served s ch { op := 0x121, lenMin := 1, lenMax := 62 } p)
    (hw : wordAt p.words 2 = first) (hlen : p.len = n + 1) (hn : first + n ≤ 104) :
    Answers (exec (.kumPart ch) s) ((took s ch).modChan ch fun x =>
      { x with kum := (List.range n).foldl (fun t i => tput t (first + i) (p.words.getD (3 + i) 0)) x.kum }) ch .ok [] := by
  subst hw
  have hlen' : fld (wordAt p.words 0) 21 16 - 1 = n := by
    rw [show fld (wordAt p.words 0) 21 16 = n + 1 from hlen, Nat.add_sub_cancel]
  refine answers_once h rfl ?_
  dsimp only
  rw [ctx0_w, ctx0_w, hlen', Res.need_of (by simp [ctx0_clean (show wordAt p.words 2 < 2 ^ 7 by omega), hn])]
  rfl

theorem installKey_commits {key salt : Bytes} {blob : List Word} (h : KumServed s ch p ws 1) (hiron : s.vlt.ironHeld = false)
    (hkey : s.vlt.kumKey ws = .ok (key, salt))
    (hblob : blob = blobWords (s.vlt.keys.wkr.getD []) (kumKeyId ws) (kumCtr ws) (kumAttr ws) key salt)
    (ht : t = (kumTook s ch).commitKum ws (wordsToBytes blob) cut (fun u =>
      (u.modVlt fun v => v.setVersion (kumKeyId ws) (kumCtr ws)).loadClassA (kumKeyId ws)
        { attr := kumAttr ws, key := key, salt := salt, at' := s.rt })) :
    Answers (exec (.installKey ch cut) s)
      (t.rhlVault (t.cmdWing (ctx0 s ch p)) Status.ok.code (leBytes 4 s.vlt.ctx)) ch .ok blob := by
  have hstored : s.vlt.kumBlob ws = blob := by
    unfold Vault.kumBlob
    generalize s.vlt.kumKey ws = r at hkey
    subst hkey
    exact hblob.symm
  refine answers_kum h rfl (fun hi => absurd hi (by simp [hiron])) ?_
  rw [show (kumTook s ch).vlt = s.vlt from rfl, hkey]
  dsimp only
  rw [hstored, ht]
  rfl

theorem destroyKey_commits (h : KumServed s ch p ws 2) (hiron : s.vlt.ironHeld = false)
    (ht : t = (kumTook s ch).commitKum ws [] cut (fun u =>
      (u.modVlt fun v => v.setVersion (kumKeyId ws) (kumCtr ws)).startKeyClose (.classA (kumKeyId ws)))) :
    Answers (exec (.destroyKey ch cut) s)
      (t.rhlVault (t.cmdWing (ctx0 s ch p)) Status.ok.code (leBytes 4 s.vlt.ctx)) ch .ok [] := by
  refine answers_kum h rfl (fun hi => absurd hi (by simp [hiron])) ?_
  rw [ht]
  rfl

theorem ownerRotate_burns {i n : Fin 4} (hn : n = i + 1) (h : KumServed s ch p ws 3) (hiron : s.vlt.ironHeld = false)
    (hslot : s.vlt.ownerSlot = some i) (hi : i ≠ 3) (hfuse : s.fuseOk = true)
    (ht : t = ((kumTook s ch).modVlt fun v =>
      { v with owner := v.owner.set n (some (sha384 (wordsToBytes (wordsAt ws 38 24)))) }).commitKum ws [] cut id) :
    Answers (exec (.ownerRotate ch cut) s)
      (t.rhlVault (t.cmdWing (ctx0 s ch p)) Status.ok.code (leBytes 4 s.vlt.ctx)) ch .ok [] := by
  refine answers_kum h rfl (fun hi => absurd hi (by simp [hiron])) ?_
  subst hn
  rw [show (kumTook s ch).vlt = s.vlt from rfl, hslot]
  dsimp only
  rw [if_neg hi, show (kumTook s ch).fuseOk = true from hfuse, ht]
  rfl

theorem reinstate_returns {k : Bytes} {u : State} (h : KumServed s ch p ws 4) (hiron : s.vlt.ironHeld = true)
    (hk : s.vlt.keys.ret.getD (retKeyOf s.vlt.ctx) = k) (hquiet : s.vlt.quiet 0 = true)
    (hu : u = ((kumTook s ch).modVlt fun v => { v with keys := { v.keys with ret := some k } }).commitKum ws [] cut (fun u =>
      u.modVlt fun v => (v.setIron false).deriveAll))
    (ht : t = (if cut = .beforeCommit then u.modVlt fun v => { v with keys := { v.keys with ret := s.vlt.keys.ret } } else u)) :
    Answers (exec (.reinstate ch cut) s)
      (t.rhlVault (t.cmdWing (ctx0 s ch p)) Status.ok.code (leBytes 4 s.vlt.ctx)) ch .ok [] := by
  obtain ⟨hserved, hws, haction, hrest⟩ := h
  have hret : ((kumTook s ch).modVlt fun v => { v with keys := { v.keys with ret := some v.kumRet } }) =
      (kumTook s ch).modVlt fun v => { v with keys := { v.keys with ret := some k } } := by
    have hk' : (kumTook s ch).vlt.kumRet = k := hk
    simp only [State.modVlt, hk']
  refine answers_kum ⟨hserved, hws, haction, hrest⟩ rfl (fun _ => .inl haction) ?_
  dsimp only
  rw [hret, ← hu, show (kumTook s ch).vlt = s.vlt from rfl, ← ht, hiron, hquiet]
  rfl

theorem lcMove_burns {b : Nat} (h : KumServed s ch p ws 5) (hiron : s.vlt.ironHeld = true → kumArg ws = 6)
    (hbit : s.vlt.moveBit (kumArg ws) = some (b, true)) (ht : t = (kumTook s ch).abortVault .lcAbort (some ch))
    (hfuse : t.fuseOk = true) : Waits (exec (.lcMove ch cut) s) (t.beginBurn b) ch .burn := by
  obtain ⟨hserved, hws, haction, hrest⟩ := h
  refine waits_kum ⟨hserved, hws, haction, hrest⟩ rfl (fun hi => .inr ⟨haction, hiron hi⟩) ?_
  rw [show (kumTook s ch).vlt = s.vlt from rfl, hbit]
  dsimp only
  rw [ctx0_ch, ← ht, hfuse]
  rfl

theorem ownerEnrol_burns (h : Served s ch { op := 0x123, lenMin := 12, lenMax := 12, hold := true } p) (hburn : s.vlt.burn = none)
    (hreach : s.pathLost (home s ch) = false) (hlc : s.vlt.lcCode = 3) (hfree : s.vlt.owner[(0 : Fin 4)] = none)
    (hfuse : s.fuseOk = true) :
    Answers (exec (.ownerEnrol ch) s) (((took s ch).modVlt fun v =>
      { v with owner := v.owner.set 0 (some (wordsToBytes (wordsAt p.words 2 12))) }).rhlVault (home s ch)
        Status.ok.code []) ch .ok [] := by
  have hrow : exec (.ownerEnrol ch) s = .next (s.runCmd ch _ _) := congrArg _ (if_neg (by simp [hburn]))
  rw [hrow]
  refine answers_once h rfl ?_
  rw [Res.vault_of (took_reaches hreach p), show (took s ch).vlt = s.vlt from rfl, hlc, hfree,
    show (took s ch).fuseOk = true from hfuse]
  refine Res.vaultRec_done ?_ ..
  exact (State.cmdWing_congr (s := took s ch) rfl _).trans (took_cmdWing s ch p)

end Actions

/-- Settles O22: a message that passes R262's checks reaches its action, which commits the record or begins to burn. -/
theorem kumUpdates : Obligations.KumUpdates := by
  unfold Obligations.KumUpdates
  intro s ch p ws cut t
  exact ⟨fun first n h hw hlen hn => kumPart_gathers h hw hlen hn,
    fun key salt blob h hiron hkey hblob ht => installKey_commits h hiron hkey hblob ht,
    fun h hiron ht => destroyKey_commits h hiron ht,
    fun i n hn h hiron hslot hi hfuse ht => ownerRotate_burns hn h hiron hslot hi hfuse ht,
    fun k u h hiron hk hquiet hu ht => reinstate_returns h hiron hk hquiet hu ht,
    fun b h hiron hbit ht hfuse => lcMove_burns h hiron hbit ht hfuse,
    fun h hburn hreach hlc hfree hfuse => ownerEnrol_burns h hburn hreach hlc hfree hfuse⟩

end Sys2Proof.Machine
end

section
/-! SUPPORT. Attestation statements (R272, R273). -/

namespace Sys2Proof.Machine

open Sys2Proof.Safety Sys2Proof.Laws

/-! ## A key that a read gives leaves the state as it was -/

theorem State.readCell_given {s t : State} {w : Wing} {l : KLoc} {x : Option Key} {k : Key} (h : s.readCell w l x = (some k, t)) :
    t = s := by
  unfold State.readCell at h
  split at h
  · simp at h
  · simp at h
    exact h.2.symm

theorem State.readKey_given {s t : State} {w : Wing} {l : KLoc} {k : Key} (h : s.readKey w l = (some k, t)) : t = s := by
  unfold State.readKey at h
  split at h
  · split at h
    · simp at h
    · split at h
      · simp at h
      · split at h
        · exact State.readCell_given h
        · split at h
          · exact State.readCell_given h
          · exact ((Prod.mk.injEq ..).mp h).2.symm
  · split at h
    · simp at h
    · exact State.readCell_given h
  · exact State.readCell_given h

theorem State.attestKey_given {s t : State} {c : Ctx} {l : KLoc} {k : Key} (h : s.attestKey c l = (.ok k, t)) : t = s := by
  cases hr : s.readKey (s.cmdWing c) l with
  | mk x u =>
    simp only [State.attestKey, hr] at h
    cases x with
    | none => simp at h
    | some y =>
      obtain rfl := State.readKey_given hr
      dsimp only at h
      split_ifs at h <;> cases h <;> rfl

/-! ## Signing -/

theorem State.sign_of {s : State} (h : s.vlt.drbgOk = true) (c : Ctx) (d : Nat) (st : List Word) : s.sign c d st =
    .done ((s.draw 48).2.modChan c.ch fun x => { x with
        stmt := st ++ bytesToWords (ecdsaSign d (leNat (s.draw 48).1 % (ecN - 1) + 1) (sha384 (wordsToBytes st))) }) .ok
      ((st ++ bytesToWords (ecdsaSign d (leNat (s.draw 48).1 % (ecN - 1) + 1) (sha384 (wordsToBytes st)))).take 62) := by
  rw [State.sign, h]
  rfl

section Attest
variable {s : State} {ch : Fin 8} {p : Place}

/-- A command whose body comes to signing answers with the statement signed. -/
theorem signedAnswer_of {o : OpSpec} {body : State → Ctx → Res} {u : State} {d : Nat} {st : List Word} (h : Served s ch o p)
    (hw : o.wing = 0) (hu : u.chans = (took s ch).chans) (hdrbg : u.vlt.drbgOk = true)
    (hb : body (took s ch) (ctx0 s ch p) = Res.vaultRec (ctx0 s ch p) (leBytes 4 s.vlt.ctx) (u.sign (ctx0 s ch p) d st)) :
    SignedAnswer (.next (s.runCmd ch o body)) s u ch d st := by
  refine ⟨_, rfl, answers_once h hw ?_⟩
  rw [hb, State.sign_of hdrbg]
  refine Res.vaultRec_done ?_ ..
  rw [State.modChan_cmdWing]
  · exact (State.cmdWing_congr (s := took s ch) hu _).trans (took_cmdWing s ch p)
  · exact fun _ => rfl

variable {nonce : List Word} {own : Nat} (hnonce : nonce = wordsAt p.words 4 4)
  (hown : own = s.vlt.keys.attest.getD (attestKeyOf s.vlt.ctx))
  (h : Served s ch { op := 0x12D, lenMin := 6, lenMax := 6, hold := true, iron := true } p)
  (hreach : s.pathLost (home s ch) = false)
include hnonce hown h hreach

theorem attest_identity (hdrbg : s.vlt.drbgOk = true) (hkind : wordAt p.words 2 = 2) :
    SignedAnswer (exec (.attest ch) s) s (took s ch) ch own
      ((took s ch).statement 2 s.vlt.ctx nonce 0 (List.replicate 4 0) [] (ecPub own)) := by
  refine signedAnswer_of h rfl rfl hdrbg ?_
  dsimp only
  rw [ctx0_w, ctx0_words, hkind, ← hnonce, show (took s ch).vlt = s.vlt from rfl, ← hown, Res.need_of (by decide),
    Res.vault_of (took_reaches hreach p), if_neg (by simp), if_neg (by decide), if_pos rfl]

theorem attest_key {l : KLoc} {k : Key} {u : State} (hkind : wordAt p.words 2 = 1) (hlc : s.vlt.lcCode ≠ 6)
    (hl : kLoc (wordAt p.words 3) = some l) (hr : wordAt p.words 3 < 2 ^ 24) (hspill : s.isSpilled (home s ch) l = false)
    (hk : (took s ch).attestKey (ctx0 s ch p) l = (.ok k, u)) (hdrbg : u.vlt.drbgOk = true) :
    SignedAnswer (exec (.attest ch) s) s (u.useKey (u.cmdWing (ctx0 s ch p)) l 1) ch own (u.statement 1 s.vlt.ctx nonce l.ref
      k.attr.words ((cmac k.material (asciiBytes "TRILOTH KEYCHECK")).take 8) []) := by
  obtain rfl : u = took s ch := State.attestKey_given hk
  have hdrbg' : s.vlt.drbgOk = true := hdrbg
  refine signedAnswer_of h rfl (State.useKey_chans ..).1 ((State.useKey_keys ..).drbgOk.trans hdrbg) ?_
  dsimp only
  rw [ctx0_w, ctx0_words, hkind, ← hnonce, show (took s ch).vlt = s.vlt from rfl, ← hown, Res.need_of (by decide),
    Res.vault_of (took_reaches hreach p), if_neg (by simp [hlc]), if_pos rfl, ctx0_w, hl]
  dsimp only
  rw [Res.need_of (ctx0_clean (s := s) (ch := ch) hr), Res.keyBack_of (by rw [took_cmdWing, took_isSpilled, hspill]), hk]
  dsimp only
  rw [hdrbg']
  rfl

theorem attest_link (hdrbg : s.vlt.drbgOk = true) (hkind : wordAt p.words 2 = 3) (hlc : s.vlt.lcCode ≠ 6)
    (hblank : s.vlt.lcCode ≠ 1) (hprev : s.vlt.prev ≠ 0) (hother : s.vlt.prev ≠ s.vlt.ctx) :
    SignedAnswer (exec (.attest ch) s) s (took s ch) ch (attestKeyOf s.vlt.prev)
      ((took s ch).statement 3 s.vlt.prev nonce s.vlt.ctx (List.replicate 4 0) [] (ecPub own)) := by
  refine signedAnswer_of h rfl rfl hdrbg ?_
  dsimp only
  rw [ctx0_w, ctx0_words, hkind, ← hnonce, show (took s ch).vlt = s.vlt from rfl, ← hown, Res.need_of (by decide),
    Res.vault_of (took_reaches hreach p), if_neg (by simp [hlc]), if_neg (by decide), if_neg (by decide),
    if_neg (by simp [hblank, hprev, hother])]

omit hnonce hown in
theorem attest_retired (hlc : s.vlt.lcCode = 6) (hkind : wordAt p.words 2 = 1 ∨ wordAt p.words 2 = 3) :
    Answers (exec (.attest ch) s)
      ((took s ch).rhlVault (home s ch) Status.lcRefused.code (leBytes 4 s.vlt.ctx)) ch .lcRefused [] := by
  have hrange : 1 ≤ wordAt p.words 2 ∧ wordAt p.words 2 ≤ 3 := by omega
  have hrefused : s.vlt.lcCode = 6 ∧ wordAt p.words 2 ≠ 2 := ⟨hlc, by omega⟩
  refine answers_once h rfl ?_
  dsimp only
  rw [ctx0_w, show (took s ch).vlt = s.vlt from rfl, Res.need_of (decide_eq_true hrange), Res.vault_of (took_reaches hreach p),
    if_pos hrefused]
  exact Res.vaultRec_done (took_cmdWing s ch p) ..

end Attest

/-! ## The rest of a longer statement -/

theorem took_stmt (s : State) (ch : Fin 8) : (took s ch).chans[ch].stmt = s.chans[ch].stmt := by
  simp [took]

theorem attestRest_answers {s : State} {ch : Fin 8} {p : Place} (h : Served s ch { op := 0x12E, lenMin := 0, lenMax := 0 } p)
    (hlen : 62 < s.chans[ch].stmt.length) :
    Answers (exec (.attestRest ch) s) (took s ch) ch .ok ((s.chans[ch].stmt.drop 62).take 6) := by
  refine answers_once h rfl ?_
  rw [show (took s ch).chans[(ctx0 s ch p).ch].stmt = s.chans[ch].stmt from took_stmt s ch, if_neg (by omega)]

theorem attestRest_notFound {s : State} {ch : Fin 8} {p : Place} (h : Served s ch { op := 0x12E, lenMin := 0, lenMax := 0 } p)
    (hlen : s.chans[ch].stmt.length ≤ 62) : Answers (exec (.attestRest ch) s) (took s ch) ch .notFound [] := by
  refine answers_once h rfl ?_
  rw [show (took s ch).chans[(ctx0 s ch p).ch].stmt = s.chans[ch].stmt from took_stmt s ch, if_pos hlen]
  rfl

/-- Settles O25: each kind of statement that is allowed comes to signing, whose words are held and returned. -/
theorem attestation : Obligations.Attestation := by
  unfold Obligations.Attestation
  intro s ch p nonce own hnonce hown
  exact ⟨fun h hreach hdrbg => ⟨fun hkind => attest_identity hnonce hown h hreach hdrbg hkind,
      fun l k u hkind hlc hl hr hspill hk hu => attest_key hnonce hown h hreach hkind hlc hl hr hspill hk hu,
      fun hkind hlc hblank hprev hother => attest_link hnonce hown h hreach hdrbg hkind hlc hblank hprev hother,
      fun hlc hkind => attest_retired h hreach hlc hkind⟩,
    fun h => ⟨fun hlen => attestRest_answers h hlen, fun hlen => attestRest_notFound h hlen⟩⟩

end Sys2Proof.Machine
end

section
/-! SUPPORT. Root records, key expiry and the vault's own upkeep (R255, R265, R270, R276, R307). -/

namespace Sys2Proof.Machine

open Sys2Proof.Safety Sys2Proof.Laws

/-! ## Root records -/

theorem journalCommit_roots {s : State} {cut : JCut} {rs : List Nat} {body : Bytes} (hrs : rs = s.vlt.rootsAsked) (hne : rs ≠ [])
    (hlen : rs.length ≤ 6) (hvddv : s.pwr.vddv = true) (hret : s.vlt.keys.ret.isSome = true) (hbody : body = rs.flatMap s.rootEntry) :
    exec (.journalCommit cut) s = .next ((s.modVlt fun v => { v with jq := [] }).commitRecord 3 rs.length s.vlt.updCtr
      s.vlt.kumDigest body cut fun t => ((t.modVlt fun v => Vault.applyRoots rs.length v body).rootsDone rs).pump) := by
  have hrun : ¬(rs.isEmpty = true ∨ (!s.pwr.vddv) = true) := by simp [hne, hvddv]
  have hheld : ¬s.vlt.keys.ret.isNone = true := by simp [Option.isNone_eq_false_iff.2 hret]
  show execJournalCommit cut s = _
  unfold execJournalCommit
  extract_lets all rs' rest body' t
  have hall : all = rs := hrs.symm
  have htake : rs' = rs := (congrArg (List.take 6) hall).trans (List.take_of_length_le hlen)
  have hdrop : rest = [] := (congrArg (List.drop 6) hall).trans (List.drop_of_length_le hlen)
  have hbody' : body' = body := by rw [hbody, ← htake]
  have ht : t = s.modVlt fun v => { v with jq := [] } := by
    show (s.modVlt fun v => { v with jq := if rest.isEmpty then [] else [.roots rest] }) = _
    rw [hdrop]
    rfl
  rw [hall, if_neg hrun, if_neg hheld, ht, htake, hbody']
  rfl

/-! ## The expiry of a key -/

theorem State.spend_first {s : State} {l : KLoc} {k : Key} (hk : s.vlt.keyAt l = some k) (hs : k.spent = false) (w : Wing) :
    s.spend w l = (((s.closeUnder l).modVlt fun v => v.modKey l fun k => { k with spent := true }).log w .keySpent 0 l.ref
      0 0).countWing w .keySpent := by
  simp [State.spend, hk, hs]

section Expiry
variable {s : State} {ref : BitVec 24} {l : KLoc} {k : Key} (hl : kLoc ref.toNat = some l) (hk : s.vlt.keyAt l = some k)
include hl hk

theorem keyExpiry_spends (hup : s.cpUp = true) (hs : k.spent = false) (he : k.attr.expiryS ≠ 0)
    (hpast : k.at' + k.attr.expiryS * 1000000000 ≤ s.rt) : exec (.keyExpiry ref) s = .next (s.spend (s.keyWing l) l) := by
  have hdue : ¬((!s.cpUp) = true ∨ k.spent = true ∨ k.attr.expiryS = 0 ∨ s.rt < k.at' + k.attr.expiryS * 1000000000) := by
    simp [hup, hs, he, hpast]
  show execKeyExpiry ref s = _
  simp only [execKeyExpiry, hl, hk, if_neg hdue]

theorem keyExpiry_early (hearly : s.rt < k.at' + k.attr.expiryS * 1000000000) : exec (.keyExpiry ref) s = .next s := by
  show execKeyExpiry ref s = _
  simp only [execKeyExpiry, hl, hk, hearly, or_true, if_true]

end Expiry

/-! ## The inbound SAs under a key close -/

/-- A change of a table's values that keeps its keys is read through. -/
theorem tget_map {α : Type} (t : Tbl α) (f : Nat × α → Nat × α) (hf : ∀ e, (f e).1 = e.1) (n : Nat) :
    tget (t.map f) n = (tget t n).map fun v => (f (n, v)).2 := by
  induction t with
  | nil => rfl
  | cons e t ih =>
    have hfe : f e = (e.1, (f e).2) := by rw [← hf e]
    rw [List.map_cons, hfe]
    by_cases h : e.1 = n
    · subst h
      simp [tget]
    · simp [tget, h, ih]

/-- An SA as the end of the session key j leaves it: closing, where it is active and inbound and names the key (R255). -/
def Sa.closedUnder (j now : Nat) (y : Sa) : Sa :=
  if y.r.inb ∧ fld y.r.keyRef 19 0 = j ∧ y.st = .active then { y with st := .closing, closeAt := now } else y

theorem State.closeUnder_sa (s : State) (j : Nat) (w : Wing) (sai : Nat) :
    (s.closeUnder (.sess j)).sa w sai = (s.sa w sai).map (Sa.closedUnder j s.rt) := by
  have hread (t : Tbl Sa) : tget (t.map fun e => if e.2.r.inb ∧ fld e.2.r.keyRef 19 0 = j ∧ e.2.st = .active then
      (e.1, { e.2 with st := .closing, closeAt := s.rt }) else e) sai = (tget t sai).map (Sa.closedUnder j s.rt) := by
    rw [tget_map]
    · congr 1
      funext y
      unfold Sa.closedUnder
      split
      · rfl
      · rfl
    · intro e
      split
      · rfl
      · rfl
  cases w
  · exact hread s.sl.sas
  · exact hread s.sr.sas

/-! ## A path that returns -/

theorem vaultPathRestored_struck {s : State} (h : s.sl.struck.contains (unitName 9 0 .sl) = true) (w : Wing) :
    exec (.vaultPathRestored w) s = .next s := congrArg _ (if_pos (.inr h))

section Returns
variable {s : State} (h : s.sl.struck.contains (unitName 9 0 .sl) = false)
include h

theorem path_back {w : Wing} (hlost : s.pathLost w = true) :
    ¬((!s.pathLost w) = true ∨ s.sl.struck.contains (unitName 9 0 .sl) = true) := by
  rw [h, hlost]
  decide

theorem vaultPathRestored_sl (hlost : s.pathLost .sl = true) : exec (.vaultPathRestored .sl) s = .next (s.modVlt fun v =>
    { v with pathLostSl := false, slots := v.slots.map fun e => (e.1, { e.2 with inSl := true }) }) :=
  congrArg _ (if_neg (path_back h hlost))

theorem vaultPathRestored_sr (hlost : s.pathLost .sr = true) : exec (.vaultPathRestored .sr) s = .next (s.modVlt fun v =>
    { v with pathLostSr := false, slots := v.slots.map fun e => (e.1, { e.2 with inSr := true }) }) :=
  congrArg _ (if_neg (path_back h hlost))

end Returns

/-! ## RT's copy, the masks and the DRBG -/

theorem rtCopy_copies {s : State} (hv : s.pwr.vddv = true) (hc : s.pwr.vddc = true) (hphase : s.boot.phase ≠ .off) :
    exec .rtCopy s = .next (s.modVlt fun v =>
      { v with
          rtCopy := if s.vlt.rtLive then s.rt else s.vlt.rtCopy
          vtCopy := if s.vlt.rtLive then s.vlt.vtimer else s.vlt.vtCopy
          epochCopy := laterEpoch s.sl.prm.epoch s.sr.prm.epoch }) := by
  show execRtCopy s = _
  simp only [execRtCopy, hv, hc, and_self, if_true, State.copyRt, if_neg hphase]
  rfl

theorem maskRefresh_draws {s : State} (h : s.cpUp = true ∧ s.vlt.drbgOk = true) :
    exec .maskRefresh s = .next (s.modVlt fun v => { v with maskAt := s.rt, maskDraw := v.drbgN, drbgN := v.drbgN + 1 }) :=
  congrArg _ (if_pos h)

theorem drbgReseed_reseeds {s : State} (h : s.cpUp = true ∧ s.vlt.drbgOk = true) :
    exec .drbgReseed s = .next (s.modVlt fun v => { v with reseedAt := s.rt }) := congrArg _ (if_pos h)

theorem entropyFail_stops {s : State} (h : s.cpUp = true ∧ s.vlt.drbgOk = true) :
    exec .entropyFail s =
      .next (((s.modVlt fun v => { v with drbgOk := false }).logBoth .entropyFail 0 0 0 0).raiseAlarm .key) :=
  congrArg _ (if_pos h)

theorem maskRefresh_failed {s : State} (h : s.vlt.drbgOk = false) : exec .maskRefresh s = .next s :=
  congrArg _ (if_neg (by simp [h]))

/-- Settles O48: the roots that wait share one record, a key past its expiry is spent once, and each event of the vault does its
own part where its condition holds. -/
theorem vaultEvents : Obligations.VaultEvents := by
  unfold Obligations.VaultEvents
  intro s
  refine ⟨fun cut rs body hrs hne hlen hvddv hret hbody => journalCommit_roots hrs hne hlen hvddv hret hbody,
    fun ref l k x u hl hk hup hs hx hu => ⟨fun he hpast => ?_, fun hearly => keyExpiry_early hl hk hearly⟩,
    fun j w sai y hy => ?_, fun w h => vaultPathRestored_struck h w, fun h hlost => vaultPathRestored_sl h hlost,
    fun h hlost => vaultPathRestored_sr h hlost, fun hv hc hphase => rtCopy_copies hv hc hphase,
    fun hup hdrbg => ⟨maskRefresh_draws ⟨hup, hdrbg⟩, drbgReseed_reseeds ⟨hup, hdrbg⟩, entropyFail_stops ⟨hup, hdrbg⟩⟩,
    fun h => maskRefresh_failed h⟩
  · rw [keyExpiry_spends hl hk hup hs he hpast, State.spend_first hk hs, hu, hx]
  · rw [State.closeUnder_sa, hy]
    rfl

end Sys2Proof.Machine
end

section
/-! SUPPORT. What the vault's own writes leave: the retention SRAM alone is written (R238). -/

namespace Sys2Proof.Machine

/-- Two states of the vault that differ in the retention SRAM at most. -/
def OnlySram (v u : Vault) : Prop := u = { v with sram := u.sram }

namespace OnlySram

theorem refl (v : Vault) : OnlySram v v := rfl

theorem trans {v u x : Vault} (h : OnlySram v u) (k : OnlySram u x) : OnlySram v x := by
  unfold OnlySram at h k ⊢
  rw [k, h]

theorem setSram (v : Vault) (m : List Host.Cell) : OnlySram v { v with sram := m } := rfl

theorem ite {c : Prop} {_ : Decidable c} {v a b : Vault} (ha : OnlySram v a) (hb : OnlySram v b) :
    OnlySram v (if c then a else b) := by
  split
  · exact ha
  · exact hb

theorem macHeader (v : Vault) : OnlySram v v.macHeader := by
  unfold Vault.macHeader
  split
  · exact setSram v _
  · exact refl v

theorem newHeader (v : Vault) (p : Nat) (i : Bool) : OnlySram { v with sramLost := false } (v.newHeader p i) := by
  unfold Vault.newHeader
  dsimp only
  exact (setSram { v with sramLost := false } _).trans (macHeader _)

theorem setIron (v : Vault) (x : Bool) : OnlySram v (v.setIron x) := (setSram v _).trans (macHeader _)

theorem setVersion (v : Vault) (i x : Nat) : OnlySram v (v.setVersion i x) := setSram v _

theorem applyRoots (n : Nat) (v : Vault) (b : Bytes) : OnlySram v (Vault.applyRoots n v b) := by
  induction n generalizing v b with
  | zero => exact refl v
  | succ n ih => exact (setSram v _).trans (ih _ _)

theorem applySlot (v : Vault) (i : Nat) : OnlySram v (v.applySlot i) := by
  unfold Vault.applySlot
  dsimp only
  split
  · split
    · exact setVersion v _ _
    · exact refl v
  · split
    · exact setSram v _
    · exact refl v
  · exact applyRoots _ v _
  · exact refl v

theorem recover (v : Vault) (i : Nat) : OnlySram v (v.recover i) := (setSram v _).trans (applySlot _ i)

theorem prepare (v : Vault) (t c u : Nat) (d b : Bytes) : OnlySram v (v.prepare t c u d b) := setSram v _

theorem commit (v : Vault) : OnlySram v v.commit := setSram v _

theorem setMac (v : Vault) : OnlySram v v.setMac := setSram v _

theorem defaultSettings (v : Vault) : OnlySram { v with setLost := false } v.defaultSettings := by
  unfold Vault.defaultSettings
  dsimp only
  exact (setSram { v with setLost := false } _).trans (setMac _)

end OnlySram

end Sys2Proof.Machine
end

section
/-! The life-cycle fuses (O23): how a bit is burnt and read, and which bit each move burns (R277, R280). -/

namespace Sys2Proof.Machine

theorem burnCopy_three (lc : Vector LcBit 20) (i : Fin 20) :
    burnCopy (burnCopy (burnCopy lc i 0) i 1) i 2 = lc.set i ⟨true, true, true⟩ := by
  simp [burnCopy, Vector.set_set]

/-- A sum of Booleans over a list counts the elements that satisfy them. -/
theorem foldl_add_b2n {α : Type} (f : α → Bool) (l : List α) (n : Nat) :
    l.foldl (fun a b => a + b2n (f b)) n = n + l.countP f := by
  induction l generalizing n with
  | nil => rfl
  | cons x l ih =>
    rw [List.foldl_cons, ih, List.countP_cons, b2n]
    split <;> omega

theorem lcSeqOf_countP (lc : Vector LcBit 20) : lcSeqOf lc = lc.toList.countP LcBit.read :=
  (foldl_add_b2n ..).trans (Nat.zero_add _)

theorem lcSeqOf_le (lc : Vector LcBit 20) : lcSeqOf lc ≤ 20 := by
  rw [lcSeqOf_countP]
  exact List.countP_le_length.trans_eq lc.length_toList

theorem fsBits_length (lc : Vector LcBit 20) : (fsBits lc).length = 16 := by simp [fsBits]

theorem fsBits_getElem (lc : Vector LcBit 20) {i : Nat} (h : i < 16) :
    (fsBits lc)[i]'(by rwa [fsBits_length]) = lc[3 + i].read := by
  simp [fsBits]

/-- The FS bit that a move burns is the lowest that does not read burnt. -/
theorem fsBits_lowest {lc : Vector LcBit 20} {i : Nat} (h : i < 16)
    (hlow : ∀ (j : Nat) (k : j < i), lc[3 + j].read = true) (hi : lc[3 + i].read = false) :
    (fsBits lc).findIdx? (! ·) = some i := by
  rw [List.findIdx?_eq_some_iff_getElem]
  refine ⟨by rwa [fsBits_length], ?_, fun j hj => ?_⟩
  · rw [fsBits_getElem lc h, hi]
    rfl
  · rw [fsBits_getElem lc (hj.trans h), hlow j hj]
    decide

section Moves
variable {v : Vault}

theorem Vault.moveBit_fs {i : Nat} (h : (fsBits v.lc).findIdx? (! ·) = some i) :
    (v.lcCode = 4 → v.moveBit 5 = some (3 + i, true)) ∧ (v.lcCode = 5 → v.moveBit 4 = some (3 + i, true)) := by
  constructor
  · intro hlc
    simp only [Vault.moveBit, hlc, h, Option.map_some]
  · intro hlc
    simp only [Vault.moveBit, hlc, h, Option.map_some]

theorem Vault.moveBit_retire (h1 : 1 ≤ v.lcCode) (h5 : v.lcCode ≤ 5) : v.moveBit 6 = some (19, decide (4 ≤ v.lcCode)) := by
  unfold Vault.moveBit
  dsimp only
  generalize v.lcCode = n at h1 h5
  interval_cases n <;> rfl

end Moves

/-- Settles O23: three copies make a bit, LC_SEQ counts those that read burnt, and each move has its bit. -/
theorem fuseBits : Obligations.FuseBits := by
  unfold Obligations.FuseBits
  refine ⟨by decide, fun lc i => ⟨burnCopy_three lc i, lcSeqOf_countP lc, lcSeqOf_le lc⟩,
    fun v => ⟨fun h => ?_, fun h => ?_, fun h => ?_, fun i h hlow hi => Vault.moveBit_fs (fsBits_lowest h hlow hi),
      fun h1 h5 => Vault.moveBit_retire h1 h5⟩⟩
  all_goals simp only [Vault.moveBit, h]

end Sys2Proof.Machine
end

section
/-! The life-cycle moves (O24): their commands, the burning of a bit, the loss of the rail, and the context that a move leaves
(R275, R280, R281, R439). -/

namespace Sys2Proof.Machine

open Sys2Proof.Safety Sys2Proof.Laws

/-! ## The commands that no KUM authorises -/

section Commands
variable {s t : State} {ch : Fin 8} {p : Place} {b : Nat} (ht : t = (took s ch).abortVault .lcAbort (some ch))
  (hreach : s.pathLost (home s ch) = false)
include hreach

theorem unsignedMove_none : (took s ch).unsignedMove (ctx0 s ch p) none = failed (took s ch) .lcRefused :=
  Res.vault_of (took_reaches hreach p) _

include ht

theorem unsignedMove_begins (hfuse : t.fuseOk = true) :
    (took s ch).unsignedMove (ctx0 s ch p) (some b) = .wait (t.beginBurn b) .burn := by
  rw [State.unsignedMove, Res.vault_of (took_reaches hreach p)]
  dsimp only
  rw [ctx0_ch, ← ht, if_pos hfuse]

theorem unsignedMove_norail (hfuse : t.fuseOk = false) :
    (took s ch).unsignedMove (ctx0 s ch p) (some b) = failed t .fuseRailAbsent := by
  rw [State.unsignedMove, Res.vault_of (took_reaches hreach p)]
  dsimp only
  rw [ctx0_ch, ← ht, if_neg (by simp [hfuse])]

end Commands

/-- The bit that LC_ADVANCE burns for a move: none where a KUM authorises it or LC_RETIRE makes it. -/
def advanceBit (v : Vault) (n : Nat) : Option Nat :=
  match v.moveBit n with
  | some (b, kum) => if kum ∨ n = 6 then none else some b
  | none => none

theorem advanceBit_some {v : Vault} {n b : Nat} (h6 : n ≠ 6) (h : v.moveBit n = some (b, false)) : advanceBit v n = some b := by
  simp [advanceBit, h, h6]

theorem advanceBit_none {v : Vault} {n : Nat} (h : v.moveBit n = none) : advanceBit v n = none := by
  simp [advanceBit, h]

section Advance
variable {s : State} {ch : Fin 8} {p : Place} {n : Nat} (hburn : s.vlt.burn = none) (hw : wordAt p.words 2 = n) (hn : n < 256)
include hburn hw hn

theorem lcAdvance_body : ∃ body, exec (.lcAdvance ch) s =
      .next (s.runCmd ch { op := 0x145, lenMin := 1, lenMax := 1, hold := true } body)
    ∧ body (took s ch) (ctx0 s ch p) = (took s ch).unsignedMove (ctx0 s ch p) (advanceBit s.vlt n) := by
  refine ⟨_, congrArg _ (if_neg (by simp [hburn])), ?_⟩
  subst hw
  exact Res.need_of (ctx0_clean hn) _ _

end Advance


section Retire
variable {s t : State} {ch : Fin 8} {p : Place} (ht : t = (took s ch).abortVault .lcAbort (some ch))
  (h : Served s ch { op := 0x146, lenMin := 0, lenMax := 0, hold := true } p) (hburn : s.vlt.burn = none)
  (hreach : s.pathLost (home s ch) = false) (hfuse : t.fuseOk = true)
include ht h hburn hreach hfuse

theorem lcRetire_exhausted (hphase : s.boot.phase = .held .epochExhausted) :
    Waits (exec (.lcRetire ch) s) (t.beginBurn 19) ch .burn := by
  have hrow : exec (.lcRetire ch) s = .next (s.runCmd ch _ _) := congrArg _ (if_neg (by simp [hburn]))
  rw [hrow]
  refine waits_once h rfl ?_
  rw [if_pos (show (took s ch).boot.phase = _ from hphase)]
  exact unsignedMove_begins ht hreach hfuse

theorem lcRetire_ready (hphase : s.boot.phase = .ready) (h3 : s.vlt.lcCode ≤ 3) (h1 : 1 ≤ s.vlt.lcCode) :
    Waits (exec (.lcRetire ch) s) (t.beginBurn 19) ch .burn := by
  have hrow : exec (.lcRetire ch) s = .next (s.runCmd ch _ _) := congrArg _ (if_neg (by simp [hburn]))
  have hbit : (took s ch).vlt.moveBit 6 = some (19, false) := by
    rw [show (took s ch).vlt = s.vlt from rfl, Vault.moveBit_retire h1 (by omega), decide_eq_false (by omega)]
  rw [hrow]
  refine waits_once h rfl ?_
  rw [if_neg (show ¬(took s ch).boot.phase = _ by rw [show (took s ch).boot = s.boot from rfl, hphase]; simp), hbit]
  exact unsignedMove_begins ht hreach hfuse

end Retire

/-! ## The burning of a bit -/

section Burning
variable {s : State} {x : Burn} (hburn : s.vlt.burn = some x) (hgo : x.stopped = false)
include hburn hgo

theorem fuseCopy_next (hcopy : x.copy < 2) (hfuse : s.fuseOk = true) : exec .fuseCopy s = .next (s.modVlt fun v =>
    { v with lc := burnCopy v.lc (Fin.ofNat 20 x.bit) x.copy, burn := some { x with copy := x.copy + 1 } }) := by
  have hfuse' : (s.burnNow x).fuseOk = true := hfuse
  show execFuseCopy s = _
  simp only [execFuseCopy, hburn, hgo, Nat.not_le.2 hcopy, hfuse', if_true, if_false, Bool.false_eq_true]
  rfl

theorem fuseCopy_third (hcopy : x.copy = 2) : exec .fuseCopy s = .next (State.finishMove
    (s.modVlt fun v => { v with lc := burnCopy v.lc (Fin.ofNat 20 x.bit) 2 }) x.after) := by
  show execFuseCopy s = _
  simp only [execFuseCopy, hburn, hgo, State.burnNow, hcopy, le_refl, if_true, if_false, Bool.false_eq_true]

end Burning

/-- Where no owner hash burns, the loss of the rail cuts none. -/
theorem State.cutHashes_none {s : State} (h : ∀ c q, s.chans[c].head = some q → s.hashBurn c q = none) : s.cutHashes = s := by
  refine List.foldl_fixed' (fun c => if_neg ?_) _
  cases hq : s.chans[c].head with
  | none => simp
  | some q => simp [h c q hq]

section RailLoss
variable {s y : State} {burnt : Bool}

theorem State.railLost_idle (hburn : s.vlt.burn = none) : s.railLost burnt = s := by
  simp only [State.railLost, hburn]

theorem State.railLost_stops {x : Burn} (hburn : s.vlt.burn = some x) (hgo : x.stopped = false) (hcopy : x.copy < 2) :
    s.railLost burnt = ((s.modVlt fun v =>
      { v with lc := if burnt then burnCopy v.lc (Fin.ofNat 20 x.bit) x.copy else v.lc }).stopBurn .fuseRailAbsent).endBurn := by
  simp only [State.railLost, hburn, hgo, Nat.not_le.2 hcopy, if_false, Bool.false_eq_true]
  cases burnt <;> rfl

theorem execFuseVppLoss_eq (hy : y = s.cutHashes) :
    exec (.fuseVppLoss burnt) s = .next (State.railLost { y with pwr := { y.pwr with fuseVpp := false } } burnt) := by
  rw [hy]
  rfl

theorem fuseVppLoss_idle (hy : y = s.cutHashes) (hburn : y.vlt.burn = none) :
    exec (.fuseVppLoss burnt) s = .next { y with pwr := { y.pwr with fuseVpp := false } } := by
  rw [execFuseVppLoss_eq hy]
  exact congrArg _ (State.railLost_idle (s := { y with pwr := { y.pwr with fuseVpp := false } }) hburn)

theorem fuseVppLoss_stops {x : Burn} (hy : y = s.cutHashes) (hburn : y.vlt.burn = some x) (hgo : x.stopped = false)
    (hcopy : x.copy < 2) : ∃ u, exec (.fuseVppLoss burnt) s = .next ((u.stopBurn .fuseRailAbsent).endBurn)
      ∧ u = { y with
          pwr := { y.pwr with fuseVpp := false }
          vlt := { y.vlt with lc := if burnt then burnCopy y.vlt.lc (Fin.ofNat 20 x.bit) x.copy else y.vlt.lc } } := by
  rw [execFuseVppLoss_eq hy, State.railLost_stops (s := { y with pwr := { y.pwr with fuseVpp := false } }) hburn hgo hcopy]
  exact ⟨_, rfl, rfl⟩

end RailLoss

/-! ## The context that a move leaves -/

/-- The vault as a move has written its new context: no key but the retention key, and the state that the fuses give (R275). -/
def Vault.moved (v : Vault) (m : List Host.Cell) : Vault :=
  { v with
    keys := { ret := some (retKeyOf (ctxWord v.epoch (lcCodeOf v.lc) (lcSeqOf v.lc))) }
    classA := Vector.replicate 64 none, slots := [], sess := [], sram := m
    lcCode := lcCodeOf v.lc, lcSeq := lcSeqOf v.lc, setLost := false, sramLost := false }

/-- The settings' MAC and then the header write the retention SRAM, and end what marks it lost. -/
theorem Vault.newHeader_settled {u c : Vault} (h : OnlySram u c) (p : Nat) (i : Bool) :
    ∃ m, ({ c with setLost := false } : Vault).newHeader p i = { u with sram := m, setLost := false, sramLost := false } := by
  have hnew := OnlySram.newHeader { c with setLost := false } p i
  unfold OnlySram at h hnew
  generalize Vault.newHeader _ p i = x at hnew ⊢
  refine ⟨x.sram, hnew.trans ?_⟩
  generalize x.sram = m
  rw [h]

theorem Vault.moveContext_moved (v : Vault) (held : Bool) : ∃ m, v.moveContext held =
    if held then { v.moved m with keys := {} } else if v.ironHeld then v.moved m else (v.moved m).deriveAll := by
  unfold Vault.moveContext
  generalize List.replicate 0xC00 (0 : Byte) = zeros
  extract_lets old iron wiped keyed digest journal ctr signed header
  have hjournal : OnlySram keyed journal := (OnlySram.prepare keyed 0 0 0 digest []).trans (.commit _)
  have hctr : OnlySram keyed ctr := hjournal.trans (.ite (.setSram _ _) (.refl _))
  clear_value ctr
  obtain ⟨m, hm⟩ := Vault.newHeader_settled (hctr.trans (.setMac ctr)) old iron
  have hmoved : header = v.moved m := hm
  rw [hmoved]
  exact ⟨m, rfl⟩

section Moved
variable (v : Vault) (held : Bool)

theorem Vault.moveContext_state : (v.moveContext held).lcCode = lcCodeOf v.lc ∧ (v.moveContext held).lcSeq = lcSeqOf v.lc := by
  obtain ⟨m, h⟩ := v.moveContext_moved held
  rw [h]
  split_ifs <;> exact ⟨rfl, rfl⟩

theorem Vault.moveContext_noKeys : (v.moveContext held).classA = Vector.replicate 64 none ∧ (v.moveContext held).sess = []
    ∧ (v.moveContext held).slots = [] := by
  obtain ⟨m, h⟩ := v.moveContext_moved held
  rw [h]
  split_ifs <;> exact ⟨rfl, rfl, rfl⟩

variable {v} {held}

theorem Vault.moveContext_derives (hiron : v.ironHeld = false) (hheld : held = false) :
    ∃ c, c = ctxWord v.epoch (lcCodeOf v.lc) (lcSeqOf v.lc)
      ∧ (v.moveContext held).keys.ret = some (retKeyOf c) ∧ (v.moveContext held).keys.wkr = some (wkrOf c)
      ∧ (v.moveContext held).keys.attest = some (attestKeyOf c) ∧ (v.moveContext held).keys.trans = some (transKeyOf c) := by
  obtain ⟨m, h⟩ := v.moveContext_moved held
  rw [h, hheld, if_neg (by decide), if_neg (by simp [hiron])]
  exact ⟨_, rfl, rfl, rfl, rfl, rfl⟩

end Moved

/-- Settles O24: the commands come to `beginBurn`, each copy to the next or to the end of the move, and a completed move leaves
the new context's keys alone. -/
theorem lifeCycleMoves : Obligations.LifeCycleMoves := by
  unfold Obligations.LifeCycleMoves
  intro s t ch p n b held burnt v x ht
  refine ⟨fun h hburn hreach hw hn => ?advance, fun h hburn hreach hfuse => ⟨fun hphase => ?_, fun hphase h3 h1 => ?_⟩,
    fun hburn hgo => ⟨fuseCopy_next hburn hgo, fuseCopy_third hburn hgo⟩, State.cutHashes_none,
    fun y hy => ⟨fuseVppLoss_idle hy, fuseVppLoss_stops hy⟩, (v.moveContext_state held).1, (v.moveContext_state held).2,
    (v.moveContext_noKeys held).1, (v.moveContext_noKeys held).2.1, (v.moveContext_noKeys held).2.2, Vault.moveContext_derives⟩
  case advance =>
    obtain ⟨body, hexec, hbody⟩ := lcAdvance_body (ch := ch) (p := p) hburn hw hn
    rw [hexec]
    refine ⟨fun h6 hbit hfuse => waits_once h rfl ?_, fun h6 hbit hfuse => answers_once h rfl ?_,
      fun hbit => answers_once h rfl ?_⟩
    · rw [hbody, advanceBit_some h6 hbit, unsignedMove_begins ht hreach hfuse]
    · rw [hbody, advanceBit_some h6 hbit, unsignedMove_norail ht hreach hfuse]
      rfl
    · rw [hbody, advanceBit_none hbit, unsignedMove_none hreach]
      rfl
  · exact lcRetire_exhausted ht h hburn hreach hfuse hphase
  · exact lcRetire_ready ht h hburn hreach hfuse hphase h3 h1

end Sys2Proof.Machine
end

section
/-! The commands of start-up and state (O26), and those of tamper (O27): what each comes to once its checks pass (R284 to R286,
R294 to R298, R305). -/

namespace Sys2Proof.Machine

open Sys2Proof.Safety Sys2Proof.Laws

/-! ## Start-up and state -/

section Boot
variable {s : State} {ch : Fin 8} {p : Place}

section Status
variable (h : Served s ch { op := 0x140, lenMin := 0, lenMax := 0 } p)
include h

theorem bootStatus_held {st : Status} (hphase : s.boot.phase = .held st) :
    Answers (exec (.bootStatus ch) s) (took s ch) ch .ok [wd (st.code + s.vlt.lcCode * 2 ^ 8), wd s.vlt.ctx] := by
  refine answers_once h rfl ?_
  dsimp only
  rw [show (took s ch).boot = s.boot from rfl, hphase]
  rfl

theorem bootStatus_running (hphase : s.boot.phase = .rom ∨ s.boot.phase = .ready) :
    Answers (exec (.bootStatus ch) s) (took s ch) ch .ok [wd (s.vlt.lcCode * 2 ^ 8), wd s.vlt.ctx] := by
  refine answers_once h rfl ?_
  dsimp only
  rw [show (took s ch).boot = s.boot from rfl]
  rcases hphase with e | e
  · rw [e, Nat.zero_add]
    rfl
  · rw [e, Nat.zero_add]
    rfl

end Status

section Rcb
variable (h : Served s ch { op := 0x141, lenMin := 1, lenMax := 1 } p) (hreach : s.pathLost (home s ch) = false)
include h hreach

theorem rcbRead_first (hw : wordAt p.words 2 = 0) :
    Answers (exec (.rcbRead ch) s) (took s ch) ch .ok (bytesToWords (memBytes s.vlt.sram 0xE00 128)) := by
  refine answers_once h rfl ?_
  rw [Res.need_of (ctx0_clean (by omega)), Res.vault_of (took_reaches hreach p)]
  dsimp only
  rw [ctx0_w, hw]
  rfl

theorem rcbRead_second (hw : wordAt p.words 2 = 1) :
    Answers (exec (.rcbRead ch) s) ((took s ch).modVlt fun v => { v with rcbUnread := false, rcbFill := 0 }) ch .ok
      (bytesToWords (memBytes s.vlt.sram 0xE80 128)) := by
  refine answers_once h rfl ?_
  rw [Res.need_of (ctx0_clean (by omega)), Res.vault_of (took_reaches hreach p)]
  dsimp only
  rw [ctx0_w, hw]
  rfl

end Rcb

theorem imageWrite_takes {t : Tbl Word} (h : Served s ch { op := 0x142, lenMin := 1, lenMax := 62 } p)
    (ht : (ctx0 s ch p).imagePart s.boot.image = some t) :
    Answers (exec (.imageWrite ch) s) { took s ch with boot := { s.boot with image := t } } ch .ok [] := by
  refine answers_once h rfl ?_
  rw [show (took s ch).boot = s.boot from rfl, ht]
  rfl

section Image
variable (h : Served s ch { op := 0x143, lenMin := 0, lenMax := 0 } p)
include h

theorem imageGo_loads {w : Nat} (hok : imageOk s.boot.image s.vlt.lcCode = true)
    (hw : w = wordAt (imageWords s.boot.image 1 1) 0) :
    Answers (exec (.imageGo ch) s) { took s ch with boot := { s.boot with
      phase := .loading
      hash := wordsToBytes (imageWords s.boot.image 5 12)
      scriptLevel := fld w 15 0
      stambe := fld w 31 16 } } ch .ok [] := by
  subst hw
  exact answers_once h rfl (if_pos hok)

theorem imageGo_drops (hbad : imageOk s.boot.image s.vlt.lcCode = false) :
    Answers (exec (.imageGo ch) s) { took s ch with boot := { s.boot with image := [] } } ch .imageInvalid [] := by
  have hbad' : ¬imageOk (took s ch).boot.image (took s ch).vlt.lcCode = true := by
    rw [show (took s ch).boot.image = s.boot.image from rfl, show (took s ch).vlt.lcCode = s.vlt.lcCode from rfl, hbad]
    decide
  exact answers_once h rfl (if_neg hbad')

end Image

theorem lcStatus_answers (h : Served s ch { op := 0x144, lenMin := 0, lenMax := 0 } p) (hreach : s.pathLost (home s ch) = false) :
    Answers (exec (.lcStatus ch) s) (took s ch) ch .ok ([wd (s.vlt.lcCode + s.vlt.lcSeq * 2 ^ 8 + s.vlt.epoch * 2 ^ 16
      + b2n s.vlt.ironHeld * 2 ^ 25 + b2n s.vlt.hold * 2 ^ 26)] ++ s.vlt.cond.toList.map wd) :=
  answers_once h rfl (Res.vault_of (took_reaches hreach p) _)

end Boot

/-- Settles O26: each command's body, at the state in which its work starts, is its answer. -/
theorem bootCommands : Obligations.BootCommands := by
  unfold Obligations.BootCommands
  intro s ch p
  exact ⟨fun h => ⟨fun st hphase => bootStatus_held h hphase, bootStatus_running h⟩,
    fun h hreach => ⟨rcbRead_first h hreach, rcbRead_second h hreach⟩, fun t h ht => imageWrite_takes h ht,
    fun h => ⟨fun w hok hw => imageGo_loads h hok hw, imageGo_drops h⟩, fun h hreach => lcStatus_answers h hreach⟩

/-! ## Tamper -/

section Tamper
variable {s : State} {ch : Fin 8} {p : Place} (hreach : s.pathLost (home s ch) = false)
include hreach

section Set
variable {ws : List Word} (hws : ws = wordsAt p.words 2 10) (h : Served s ch { op := 0x147, lenMin := 10, lenMax := 10 } p)
  (hok : settingsOk ws = true) (hret : s.vlt.keys.ret.isSome = true)
include hws h hok hret

theorem tamperSet_writes {m : List Host.Cell} (hopen : ¬(s.vlt.lcCode = 4 ∧ s.vlt.settingsLocked ws = true))
    (hm : m = memWr32 (memPut s.vlt.sram 0xF00 (wordsToBytes ws)) 0xF28 ((s.vlt.setting 10 + 1) % 2 ^ 16)) :
    Answers (exec (.tamperSet ch) s) ((took s ch).modVlt fun v => Vault.setMac { v with sram := m }) ch .ok [] := by
  refine answers_once h rfl ?_
  dsimp only
  rw [ctx0_words, ← hws, Res.need_of hok, Res.vault_of (took_reaches hreach p), show (took s ch).vlt = s.vlt from rfl,
    if_neg (by simp [Option.isNone_eq_false_iff.2 hret]), if_neg hopen, hm]
  simp only [good, State.modVlt, show (took s ch).vlt = s.vlt from rfl]

theorem tamperSet_locked (hlc : s.vlt.lcCode = 4) (hlock : s.vlt.settingsLocked ws = true) :
    Answers (exec (.tamperSet ch) s) (took s ch) ch .tamperLocked [] := by
  refine answers_once h rfl ?_
  dsimp only
  rw [ctx0_words, ← hws, Res.need_of hok, Res.vault_of (took_reaches hreach p), show (took s ch).vlt = s.vlt from rfl,
    if_neg (by simp [Option.isNone_eq_false_iff.2 hret]), if_pos ⟨hlc, hlock⟩]
  rfl

end Set

theorem tamperGet_answers (h : Served s ch { op := 0x148, lenMin := 0, lenMax := 0 } p) :
    Answers (exec (.tamperGet ch) s) (took s ch) ch .ok ((List.range 11).map fun i => wd (s.vlt.setting i)) :=
  answers_once h rfl (Res.vault_of (took_reaches hreach p) _)

section Release
variable (h : Served s ch { op := 0x149, lenMin := 0, lenMax := 0 } p)
include h

theorem tamperRelease_free (hhold : s.vlt.hold = false) : Answers (exec (.tamperRelease ch) s) (took s ch) ch .ok [] := by
  refine answers_once h rfl ?_
  rw [Res.vault_of (took_reaches hreach p), show (took s ch).vlt = s.vlt from rfl, hhold]
  rfl

theorem tamperRelease_ends (hhold : s.vlt.hold = true) (hquiet : s.vlt.quiet 1000000 = true) :
    Answers (exec (.tamperRelease ch) s) ((took s ch).modVlt fun v => { v with hold := false }) ch .ok [] := by
  refine answers_once h rfl ?_
  rw [Res.vault_of (took_reaches hreach p), show (took s ch).vlt = s.vlt from rfl, hhold, hquiet]
  rfl

theorem tamperRelease_active (hhold : s.vlt.hold = true) (hquiet : s.vlt.quiet 1000000 = false) :
    Answers (exec (.tamperRelease ch) s) (took s ch) ch .tamperActive [] := by
  refine answers_once h rfl ?_
  rw [Res.vault_of (took_reaches hreach p), show (took s ch).vlt = s.vlt from rfl, hhold, hquiet]
  rfl

end Release

end Tamper

/-- Settles O27: the settings are written or locked, read, and a hold ends or stays by what the sources read. -/
theorem tamperCommands : Obligations.TamperCommands := by
  unfold Obligations.TamperCommands
  intro s ch p ws hreach hws
  exact ⟨fun h hok hret => ⟨fun m hopen hm => tamperSet_writes hreach hws h hok hret hopen hm,
      tamperSet_locked hreach hws h hok hret⟩,
    fun h => tamperGet_answers hreach h,
    fun h => ⟨tamperRelease_free hreach h, tamperRelease_ends hreach h, tamperRelease_active hreach h⟩⟩

end Sys2Proof.Machine
end

section
/-! SUPPORT. What an alarm sets (R387), and what the Iron leaves of the retention SRAM (R299). -/

namespace Sys2Proof.Machine

/-! ## An alarm -/

theorem State.raiseAlarm_sys (s : State) (a : Alarm) :
    (s.raiseAlarm a).sys = { s.sys with alarm := s.sys.alarm ||| 2 ^ a.bit } := by
  have hfreeze : ∀ (u : State) (w : Wing), (if (u.wing w).rhl.cfg.freezeMask.testBit a.bit then u.rhlFreeze w 1 (2 ^ a.bit)
      else u).sys = u.sys := by
    intro u w
    split
    · exact u.rhlFreeze_sys w _ _
    · rfl
  exact (hfreeze _ .sr).trans (hfreeze _ .sl)

theorem State.raiseAlarm_sets (s : State) (a : Alarm) : (s.raiseAlarm a).sys.alarm.testBit a.bit = true := by
  rw [State.raiseAlarm_sys, Nat.testBit_or, Nat.testBit_two_pow_self, Bool.or_true]

theorem State.raiseAlarm_keeps_alarm {s : State} {i : Nat} (h : s.sys.alarm.testBit i = true) (a : Alarm) :
    (s.raiseAlarm a).sys.alarm.testBit i = true := by
  rw [State.raiseAlarm_sys, Nat.testBit_or, h, Bool.true_or]

/-! ## The Iron -/

/-- The vault as the Iron leaves it, with the retention SRAM that it has written. -/
def Vault.ironed (v : Vault) (m : List Host.Cell) : Vault :=
  { v with keys := {}, classA := Vector.replicate 64 none, slots := [], sess := [], sram := m }

theorem Vault.setIron_mac {v : Vault} {k : Bytes} (hk : v.keys.ret = some k) (x : Bool) : v.setIron x =
    { v with sram := memPut (memWr32 v.sram 12 (b2n x)) 48 (hdrMac k (memWr32 v.sram 12 (b2n x))) } := by
  simp only [Vault.setIron, Vault.macHeader, hk]

/-- The Iron zeroises the slot that is not active, sets IRON_HELD and writes HDR_MAC (R299). -/
theorem Vault.iron_ironed (v : Vault) : ∃ mac : Bytes, mac.length = 16 ∧ v.iron = v.ironed
    (memPut (memWr32 (memPut v.sram (slotAddr (1 - v.activeSlot)) (List.replicate 192 0)) 12 1) 48 mac) := by
  unfold Vault.iron
  generalize List.replicate 192 (0 : Byte) = zeros
  dsimp only
  rw [Vault.setIron_mac (k := v.kumRet) rfl, show b2n true = 1 from rfl]
  refine ⟨hdrMac v.kumRet (memWr32 (memPut v.sram (slotAddr (1 - v.activeSlot)) zeros) 12 1), cmac_length _ _, ?_⟩
  unfold Vault.ironed
  congr

section Iron
variable {v : Vault} (hw : Memory.wf v.sram = true)
include hw

theorem Vault.iron_bytes {a k : Nat} (ha : 64 ≤ a)
    (hs : a + k ≤ slotAddr (1 - v.activeSlot) ∨ slotAddr (1 - v.activeSlot) + 192 ≤ a) :
    memBytes v.iron.sram a k = memBytes v.sram a k := by
  obtain ⟨mac, hmac, h⟩ := v.iron_ironed
  have hzero : Memory.wf (memPut v.sram (slotAddr (1 - v.activeSlot)) (List.replicate 192 0)) = true := memPut_wf _ _ _ hw
  have hheld := memWr32_wf _ 12 1 hzero
  have hlen : (List.replicate 192 (0 : Byte)).length = 192 := List.length_replicate
  have h4 : (leBytes 4 1).length = 4 := leBytes_length 4 1
  rw [h]
  exact (memBytes_memPut_outside hheld (by omega)).trans
    ((memBytes_memPut_outside hzero (by omega)).trans (memBytes_memPut_outside hw (by omega)))

theorem Vault.iron_zeroises : memBytes v.iron.sram (slotAddr (1 - v.activeSlot)) 192 = List.replicate 192 0 := by
  obtain ⟨mac, hmac, h⟩ := v.iron_ironed
  have hslot := slotAddr_cases (1 - v.activeSlot)
  have hzero : Memory.wf (memPut v.sram (slotAddr (1 - v.activeSlot)) (List.replicate 192 0)) = true := memPut_wf _ _ _ hw
  have hheld := memWr32_wf _ 12 1 hzero
  have h4 : (leBytes 4 1).length = 4 := leBytes_length 4 1
  have hput := memBytes_memPut (a := slotAddr (1 - v.activeSlot)) hw (List.replicate 192 (0 : Byte))
  rw [List.length_replicate] at hput
  rw [h]
  exact (memBytes_memPut_outside hheld (by omega)).trans ((memBytes_memPut_outside hzero (by omega)).trans hput)

theorem Vault.iron_held : v.iron.ironHeld = true := by
  obtain ⟨mac, hmac, h⟩ := v.iron_ironed
  have hzero : Memory.wf (memPut v.sram (slotAddr (1 - v.activeSlot)) (List.replicate 192 0)) = true := memPut_wf _ _ _ hw
  have hread : memRd32 v.iron.sram 12 = 1 := by
    rw [h]
    exact (congrArg leNat (memBytes_memPut_outside (memWr32_wf _ 12 1 hzero) (by omega))).trans
      (memRd32_memWr32 hzero (by decide))
  rw [Vault.ironHeld, hread]
  rfl

theorem Vault.iron_updCtr : v.iron.updCtr = v.updCtr := by
  have hslot := slotAddr_cases (1 - v.activeSlot)
  have hactive : v.iron.activeSlot = v.activeSlot := by
    have hword : memRd32 v.iron.sram 0x40 = memRd32 v.sram 0x40 := congrArg leNat (Vault.iron_bytes hw (by omega) (by omega))
    simp only [Vault.activeSlot, activeSlotOf, hword]
  have hapart := slotAddr_other v.activeSlot_cases
  have hlow := slotAddr_cases v.activeSlot
  rw [Vault.updCtr, hactive]
  exact congrArg leNat (Vault.iron_bytes hw (by omega) (by omega))

/-- The tables lie past the slots (R238). -/
theorem Vault.iron_tables {a : Nat} (ha : 0x200 ≤ a) (k : Nat) : memBytes v.iron.sram a k = memBytes v.sram a k := by
  have hslot := slotAddr_cases (1 - v.activeSlot)
  exact Vault.iron_bytes hw (by omega) (by omega)

theorem Vault.iron_version (id : Nat) : v.iron.version id = v.version id :=
  congrArg leNat (Vault.iron_tables hw (by omega) 8)

theorem Vault.iron_lease (n : Nat) : v.iron.lease n = v.lease n := by
  have hword : memRd32 v.iron.sram (0x600 + 16 * n) = memRd32 v.sram (0x600 + 16 * n) :=
    congrArg leNat (Vault.iron_tables hw (by omega) 4)
  have hnext : memRd64 v.iron.sram (0x608 + 16 * n) = memRd64 v.sram (0x608 + 16 * n) :=
    congrArg leNat (Vault.iron_tables hw (by omega) 8)
  simp only [Vault.lease, hword, hnext]

end Iron

end Sys2Proof.Machine
end

section
/-! The tamper chips, the windows and what a detection does (O49; R290 to R293, R297, R299, R303). -/

namespace Sys2Proof.Machine

/-! ## Chips -/

theorem tamperChip_ends {s : State} {samples : List Bool} (hv : s.pwr.vddv = true) (hh : s.pwr.vddh = true)
    (hdue : s.vlt.chipAt + s.chipNs ≤ s.vlt.vtimer) :
    exec (.tamperChip samples) s = .next (s.modVlt fun _ => s.vlt.endChip samples) :=
  congrArg _ (if_neg (by simp [hv, hh, hdue]))

theorem tamperChip_early {s : State} {samples : List Bool} (h : s.vlt.vtimer < s.vlt.chipAt + s.chipNs) :
    exec (.tamperChip samples) s = .next s := congrArg _ (if_pos (.inr (.inr h)))

theorem Vault.endChip_frame (v : Vault) (samples : List Bool) : (v.endChip samples).chipN = v.chipN + 1
    ∧ (v.endChip samples).chipAt = v.vtimer ∧ (v.endChip samples).sram = v.sram ∧ (v.endChip samples).keys = v.keys
    ∧ (v.endChip samples).cond = v.cond := by
  unfold Vault.endChip
  exact ⟨rfl, rfl, rfl, rfl, rfl⟩

theorem Vault.choose_cases (v : Vault) (i : Fin 24) :
    v.choose i = v.lines[i].offer i.val ∨ v.choose i = altChip v.chipN i.val := by
  unfold Vault.choose
  extract_lets one group
  split
  · exact .inl rfl
  · exact .inr rfl

theorem Vault.endChip_line (v : Vault) (samples : List Bool) (i : Fin 24) : (v.endChip samples).lines[i] =
    if v.lineOn i.val then v.lines[i].chip (v.choose i) (samples.getD i.val false) else { v.lines[i] with chips := [] } := by
  simp [Vault.endChip]

/-- A driven line advances its LFSR and keeps its last 32 chips, of which the new one is one of R290's two. -/
theorem Vault.endChip_driven {v : Vault} {i : Fin 24} (samples : List Bool) (hon : v.lineOn i.val = true) :
    ∃ c all, (v.endChip samples).lines[i] = { lfsr := Config.lfsrNext v.lines[i].lfsr, chips := all }
      ∧ (c = (v.lines[i].lfsr.getLsbD 0, Config.chipPull i.val v.lines[i].lfsr) ∨ c = altChip v.chipN i.val)
      ∧ all = (v.lines[i].chips ++ [(c.1, c.2, samples.getD i.val false)]).drop (v.lines[i].chips.length + 1 - 32) := by
  refine ⟨v.choose i, _, ?_, v.choose_cases i, rfl⟩
  rw [Vault.endChip_line, if_pos hon, LineCode.chip]
  simp only [List.length_append, List.length_cons, List.length_nil]

theorem Vault.endChip_undriven {v : Vault} {i : Fin 24} (samples : List Bool) (hoff : v.lineOn i.val = false) :
    (v.endChip samples).lines[i] = { v.lines[i] with chips := [] } := by
  rw [Vault.endChip_line, if_neg (by simp [hoff])]

/-! ## Windows -/

section Window
variable {s : State} (hv : s.pwr.vddv = true)
include hv

theorem tamperWindow_classifies {v : Vault} (h : v = s.vlt.useSettings) (hh : s.pwr.vddh = true) (hn : v.chipN % 8 = 0) :
    exec .tamperWindow s = .next ((((((s.modVlt fun _ => v).sense 0 (v.pairReads 0 1)).sense 1 (v.pairReads 2 3)).sense 2
      (v.pairReads 4 5)).sense 3 (v.pairReads 6 7)).sense 4 v.shieldReads) := by
  have hn' : s.vlt.chipN % 8 = 0 := by
    rw [h] at hn
    exact hn
  have hset : s.modVlt Vault.useSettings = s.modVlt fun _ => v := by rw [h]; rfl
  show execTamperWindow s = _
  simp only [execTamperWindow, hset, State.modVlt_vlt, hv, hh, hn', ne_eq, not_true_eq_false, Bool.not_true, if_false,
    Bool.false_eq_true]

theorem tamperWindow_early (hh : s.pwr.vddh = true) (hn : s.vlt.chipN % 8 ≠ 0) : exec .tamperWindow s = .next s := by
  show execTamperWindow s = _
  simp only [execTamperWindow, hv, hh, ne_eq, hn, not_false_eq_true, if_true, Bool.not_true, if_false, Bool.false_eq_true]

theorem tamperWindow_noVddh (hh : s.pwr.vddh = false) : exec .tamperWindow s = .next (s.modVlt Vault.useSettings) := by
  show execTamperWindow s = _
  simp only [execTamperWindow, hv, hh, Bool.not_true, Bool.not_false, if_true, if_false, Bool.false_eq_true]

theorem tempSource_senses (hot : Bool) : exec (.tempSource hot) s = .next (s.sense 7 (if hot then 0xA else 9)) :=
  congrArg _ (if_pos hv)

end Window

/-! ## A source and its condition -/

section Sense
variable {s : State} {i : Fin 10} {c : Nat}

theorem State.sense_same (h : s.vlt.cond[i] = c) : s.sense i c = s := if_pos h

theorem State.sense_normal (h : s.vlt.cond[i] ≠ c) (hc : c = 0) : s.sense i c = s.setCond i c :=
  (if_neg h).trans (if_pos hc)

theorem State.sense_detects (h : s.vlt.cond[i] ≠ c) (hc : c ≠ 0) : s.sense i c = (s.setCond i c).detect i.val c :=
  (if_neg h).trans (if_neg hc)

/-- Outside a fuse move a detection is answered at its level, after the operations in progress have been aborted (R303). -/
theorem State.detect_responds {t r u : State} (hr : r = t.eachWing fun u w =>
      u.rhlFault w (if i = 5 ∨ i = 6 ∨ i = 8 then 4 else 3) (unitName 9 0 .sl))
    (hu : u = if r.cpUp then r.abortVault .tamperAbort none else r) (hburn : u.vlt.burn = none) :
    t.detect i.val c = u.respond (u.detected i.val c) := by
  have hkind : (if i.val = 5 ∨ i.val = 6 ∨ i.val = 8 then 4 else 3) = if i = 5 ∨ i = 6 ∨ i = 8 then 4 else 3 := by
    simp only [Fin.ext_iff]
    rfl
  unfold State.detect
  dsimp only
  rw [hkind, ← hr, ← hu, hburn]

end Sense

/-! ## The levels -/

theorem Vault.rcbPush_keys (v : Vault) (ws : List Word) : (v.rcbPush ws).keys = v.keys ∧ (v.rcbPush ws).classA = v.classA := by
  unfold Vault.rcbPush
  dsimp only
  split <;> exact ⟨rfl, rfl⟩

section Levels
variable {s : State} {d : Detected} (hup : s.cpUp = true)
include hup

theorem State.respond_log (hd : d.level = 0) :
    s.respond d = (((s.modVlt fun v => v.rcbPush d.rcb).logWords .sl d.sl).logWords .sr d.sr) := by
  have hup' : (s.pwr.awake && decide (s.boot.phase ≠ .off)) = true := hup
  simp only [State.respond, hup', hd, if_true]
  rfl

theorem State.respond_alarm (hd : d.level = 1) :
    s.respond d = ((((s.modVlt fun v => v.rcbPush d.rcb).logWords .sl d.sl).logWords .sr d.sr).raiseAlarm .tamper) := by
  have hup' : (s.pwr.awake && decide (s.boot.phase ≠ .off)) = true := hup
  simp only [State.respond, hup', hd, if_true]
  rfl

theorem State.respond_hold (hd : d.level = 2) : s.respond d =
    (((((s.modVlt fun v => v.rcbPush d.rcb).logWords .sl d.sl).logWords .sr d.sr).raiseAlarm .tamper).eachWing
      fun s w => s.rhlFreeze w 6 0).modVlt fun v => { v with hold := true } := by
  have hup' : (s.pwr.awake && decide (s.boot.phase ≠ .off)) = true := hup
  unfold State.respond
  extract_lets up pushed logged alarmed held
  have hlogged : logged = (pushed.logWords .sl d.sl).logWords .sr d.sr := if_pos hup'
  have halarmed : alarmed = logged.raiseAlarm .tamper := (if_neg (by omega)).trans (if_pos hup')
  have hawake : alarmed.pwr.awake = true := by
    rw [halarmed, State.raiseAlarm_pwr, hlogged, State.logWords_pwr, State.logWords_pwr]
    exact Bool.and_elim_left hup'
  have hheld : held = (alarmed.eachWing fun s w => s.rhlFreeze w 6 0).modVlt fun v => { v with hold := true } :=
    if_pos ⟨by omega, hawake⟩
  rw [if_neg (by omega), hheld, halarmed, hlogged]

/-- HOLD sets the hold and the TAMPER cause, and leaves the vault its keys (R293). -/
theorem State.respond_holds (hd : d.level = 2) : (s.respond d).vlt.hold = true ∧ (s.respond d).sys.alarm.testBit 3 = true
    ∧ (s.respond d).vlt.keys = s.vlt.keys ∧ (s.respond d).vlt.classA = s.vlt.classA := by
  have halarm := State.raiseAlarm_sets (((s.modVlt fun v => v.rcbPush d.rcb).logWords .sl d.sl).logWords .sr d.sr) .tamper
  obtain ⟨hkeys, hcells⟩ := s.vlt.rcbPush_keys d.rcb
  rw [State.respond_hold hup hd]
  simp only [State.modVlt_vlt, State.modVlt_sys, State.eachWing, State.rhlFreeze_vlt, State.rhlFreeze_sys, State.raiseAlarm_vlt,
    State.logWords_vlt, hkeys, hcells]
  exact ⟨trivial, halarm, trivial, trivial⟩

end Levels

/-- Settles O49: a chip by what it leaves of each line, a window by what each source then senses, a detection by its level, and
the Iron by what it has written of the vault. -/
theorem tamperEvents : Obligations.TamperEvents := by
  unfold Obligations.TamperEvents
  refine ⟨?chip,
    fun s samples h => tamperChip_early h, ?window, fun s hot hv => tempSource_senses hv hot, ?sense,
    fun s d hup => ⟨State.respond_log hup, State.respond_alarm hup, State.respond_holds hup⟩, ?iron⟩
  case chip =>
    intro s samples hv hh hdue
    obtain ⟨hn, hat, hsram, hkeys, hcond⟩ := s.vlt.endChip_frame samples
    refine ⟨s.vlt.endChip samples, tamperChip_ends hv hh hdue, hn, hat, hsram, hkeys, hcond, ?_⟩
    rintro i l rfl
    exact ⟨Vault.endChip_undriven samples, Vault.endChip_driven samples⟩
  case window =>
    rintro s u v hset rfl hv
    have hchip : v.chipN = s.vlt.chipN := by rw [hset]
    refine ⟨tamperWindow_classifies hv hset, fun hh hn => tamperWindow_early hv hh (hchip ▸ hn), fun hh => ?_⟩
    rw [tamperWindow_noVddh hv hh, hset]
    rfl
  case sense =>
    rintro s i c t rfl
    refine ⟨State.sense_same, State.sense_normal, fun h hc r u hr hu hburn => ?_⟩
    rw [State.sense_detects h hc, State.detect_responds hr hu hburn]
  case iron =>
    rintro v hw t rfl
    obtain ⟨mac, -, h⟩ := v.iron_ironed
    have hkeys : v.iron.keys = {} ∧ (∀ i : Fin 64, v.iron.classA[i] = none) ∧ v.iron.slots = [] ∧ v.iron.sess = []
        ∧ v.iron.lc = v.lc ∧ v.iron.epoch = v.epoch := by
      rw [h]
      exact ⟨rfl, fun i => by simp [Vault.ironed], rfl, rfl, rfl, rfl⟩
    obtain ⟨hderived, hcells, hslots, hsess, hlc, hepoch⟩ := hkeys
    exact ⟨hderived, hcells, hslots, hsess, Vault.iron_held hw, Vault.iron_zeroises hw, Vault.iron_updCtr hw,
      fun id _ => Vault.iron_version hw id, fun n _ => Vault.iron_lease hw n, hlc, hepoch⟩

end Sys2Proof.Machine
end

section
/-! SUPPORT. What the steps of start-up leave (R283): each keeps what `State.startView` shows but for what its lemma names. -/

namespace Sys2Proof.Machine

/-! ## The view -/

/-- What start-up leaves to its later steps and to the state that it ends in. -/
structure StartView where
  pwr : Power
  mps : Vector MPort 4
  lc : Vector LcBit 20
  lcCode : Nat
  lcSeq : Nat
  epoch : Nat
  sramLost : Bool
  ret : Option Bytes
  drbgOk : Bool
  rt : Nat
  rtLive : Bool
  epochs : Wing → Nat

/-- What a state holds of it; `epochs` are those of Prompt in the two wings. -/
def State.startView (s : State) : StartView where
  pwr := s.pwr
  mps := s.mps
  lc := s.vlt.lc
  lcCode := s.vlt.lcCode
  lcSeq := s.vlt.lcSeq
  epoch := s.vlt.epoch
  sramLost := s.vlt.sramLost
  ret := s.vlt.keys.ret
  drbgOk := s.vlt.drbgOk
  rt := s.vlt.rt
  rtLive := s.vlt.rtLive
  epochs := fun w => (s.wing w).prm.epoch

/-- The context that a view is in. -/
def StartView.ctx (x : StartView) : Nat := ctxWord x.epoch x.lcCode x.lcSeq

theorem State.startView_ctx (s : State) : s.startView.ctx = s.vlt.ctx := rfl

theorem State.startView_wing {s t : State} (hv : t.vlt = s.vlt) (hp : t.pwr = s.pwr) (hm : t.mps = s.mps)
    (hw : ∀ w, (t.wing w).prm.epoch = (s.wing w).prm.epoch) : t.startView = s.startView := by
  unfold State.startView
  rw [hv, hp, hm, funext hw]

theorem OnlySram.startView {s : State} {f : Vault → Vault} (h : OnlySram s.vlt (f s.vlt)) :
    (s.modVlt f).startView = s.startView := by
  have hs : s.modVlt f = { s with vlt := { s.vlt with sram := (f s.vlt).sram } } := congrArg (fun v => { s with vlt := v }) h
  rw [hs]
  rfl

/-- What Prompt's epoch is of a wing, its Call Board, its logger and its counts leave. -/
theorem apart_epoch : Apart fun x => x.prm.epoch := ⟨fun _ _ => rfl, fun _ _ => rfl, fun _ _ => rfl⟩

theorem State.rhlSeed_startView (s : State) (w : Wing) (purpose : Nat) (b : Bytes) :
    (s.rhlSeed w purpose b).startView = s.startView :=
  State.startView_wing (s.rhlRec_vlt ..) (s.rhlRec_pwr ..) (s.rhlRec_mps ..) fun v => s.rhlRec_keeps apart_epoch w v ..

theorem State.draw_startView (s : State) (k : Nat) : (s.draw k).2.startView = s.startView := rfl

theorem State.modWing_startView (s : State) (w : Wing) {f : WingSt → WingSt} (h : ∀ x, (f x).prm.epoch = x.prm.epoch) :
    (s.modWing w f).startView = s.startView :=
  State.startView_wing (s.modWing_vlt ..) (s.modWing_pwr ..) (s.modWing_mps ..) fun v =>
    s.modWing_keeps (g := fun x => x.prm.epoch) w v f h

theorem State.rcb_startView (s : State) (e : Ev) (n : Nat) : (s.rcb e n).startView = s.startView := by
  unfold State.rcb
  dsimp only
  generalize s.rcbWords .sl e 0 0 0 n _ = ws
  unfold State.modVlt Vault.rcbPush
  dsimp only
  split
  · rfl
  · rfl

theorem State.setCond_startView (s : State) (i : Fin 10) (c : Nat) : (s.setCond i c).startView = s.startView := rfl

/-! ## Steps 1 to 4 -/

theorem State.startPrompt_startView (s : State) : s.startPrompt.startView =
    { s.startView with epochs := fun _ => (s.vlt.epochCopy + 1) % 2 ^ 16 } := by
  have hw : (fun w => (s.startPrompt.wing w).prm.epoch) = fun _ => (s.vlt.epochCopy + 1) % 2 ^ 16 := by
    funext w
    cases w
    · rfl
    · rfl
  unfold State.startView
  rw [hw]
  rfl

/-- The fuses as step 1 leaves them: a bit any copy of which is burnt is completed where the rail allows it (R278). -/
def State.fusesRead (s : State) : Vector LcBit 20 :=
  if s.fuseOk then s.vlt.lc.map fun b => if b.any then LcBit.full else b else s.vlt.lc

theorem State.readFuses_startView (s : State) : s.readFuses.startView =
    { s.startView with lc := s.fusesRead, lcCode := lcCodeOf s.fusesRead, lcSeq := lcSeqOf s.fusesRead } := rfl

theorem State.eachWing_startView {f : State → Wing → State} (h : ∀ s w, (f s w).startView = s.startView) (s : State) :
    (s.eachWing f).startView = s.startView := (h _ .sr).trans (h s .sl)

theorem State.setLines_startView (s : State) (f : Vault → Vector LineCode 24) :
    (s.modVlt fun v => { v with lines := f v }).startView = s.startView := by
  rfl

theorem State.seedCodes_startView (s : State) : s.seedCodes.startView = s.startView := by
  unfold State.seedCodes
  dsimp only
  rw [foldl_keeps State.startView _ fun t i => ?_]
  · rfl
  · rw [State.setLines_startView, State.eachWing_startView fun t w => t.rhlSeed_startView w 1 _, State.draw_startView]

/-! The windows of step 4. -/

/-- One source's window at start-up: whether start-up is held so far, and the state. -/
def bootWindow (conds : List Nat) (a : Bool × State) (i : Fin 9) : Bool × State :=
  let s := a.2
  let c := conds.getD i.val 0
  let j : Fin 10 := i.castSucc
  if (i.val < 4 ∧ !s.vlt.tlpOn i.val) ∨ !condOf i.val c then (a.1, (s.setCond j 0))
  else (a.1 || !(decide (i.val < 4) && s.vlt.restoring), (s.setCond j c).detect i.val c)

theorem State.bootWindows_eq (s : State) (conds : List Nat) :
    s.bootWindows conds = (List.finRange 9).foldl (bootWindow conds) (false, s) := rfl

/-- Where every source reads NORMAL, nothing is held. -/
theorem State.bootWindows_normal {conds : List Nat} (h : ∀ i, i < 9 → condOf i (conds.getD i 0) = false) (s : State) :
    (s.bootWindows conds).1 = false ∧ (s.bootWindows conds).2.startView = s.startView := by
  rw [State.bootWindows_eq]
  refine List.foldlRecOn (motive := fun a : Bool × State => a.1 = false ∧ a.2.startView = s.startView) _ _ ⟨rfl, rfl⟩
    fun a ha i _ => ?_
  have hnormal : bootWindow conds a i = (a.1, a.2.setCond i.castSucc 0) :=
    if_pos (.inr (by rw [h i.val i.isLt]; rfl))
  rw [hnormal, State.setCond_startView]
  exact ha

theorem bootWindow_held {conds : List Nat} {a : Bool × State} {i : Fin 9}
    (h : a.1 = true ∨ (4 ≤ i.val ∧ condOf i.val (conds.getD i.val 0) = true)) : (bootWindow conds a i).1 = true := by
  unfold bootWindow
  dsimp only
  rcases h with h | ⟨h4, hc⟩
  · split
    · exact h
    · simp [h]
  · have hwindow : ¬((i.val < 4 ∧ (!a.2.vlt.tlpOn i.val) = true) ∨ (!condOf i.val (conds.getD i.val 0)) = true) := by
      rintro (⟨hlt, -⟩ | hnot)
      · omega
      · rw [hc] at hnot
        cases hnot
    rw [if_neg hwindow]
    simp [h4]

/-- A source other than a loop pair that is detected holds start-up (R298). -/
theorem foldl_bootWindow_held {conds : List Nat} {l : List (Fin 9)} {a : Bool × State}
    (h : a.1 = true ∨ ∃ i ∈ l, 4 ≤ i.val ∧ condOf i.val (conds.getD i.val 0) = true) :
    (l.foldl (bootWindow conds) a).1 = true := by
  induction l generalizing a with
  | nil => simpa using h
  | cons i l ih =>
    refine ih ?_
    rcases h with h | ⟨j, hj, hc⟩
    · exact .inl (bootWindow_held (.inl h))
    · rcases List.mem_cons.1 hj with rfl | hj
      · exact .inl (bootWindow_held (.inr hc))
      · exact .inr ⟨j, hj, hc⟩

theorem State.bootWindows_held {conds : List Nat} (h : ∃ i, 4 ≤ i ∧ i < 9 ∧ condOf i (conds.getD i 0) = true) (s : State) :
    (s.bootWindows conds).1 = true := by
  obtain ⟨i, h4, h9, hc⟩ := h
  rw [State.bootWindows_eq]
  exact foldl_bootWindow_held (.inr ⟨⟨i, h9⟩, List.mem_finRange _, h4, hc⟩)

/-- The state in which step 4's windows open: the retention key is derived, the settings are good. -/
def State.windowsOpen (s : State) : State :=
  let s := s.modVlt fun v => { v with keys := { v.keys with ret := some (retKeyOf v.ctx) } }
  (if !s.vlt.setLost ∧ s.vlt.setMacOk then s
    else (s.modVlt Vault.defaultSettings).rcb .tamperSettingsReset 0).modVlt Vault.useSettings

theorem State.checkTamper_eq (s : State) (conds : List Nat) : s.checkTamper conds = s.windowsOpen.bootWindows conds := rfl

theorem State.defaultSettings_startView (s : State) : (s.modVlt Vault.defaultSettings).startView = s.startView :=
  OnlySram.startView (s := s.modVlt fun v => { v with setLost := false }) (f := fun _ => s.vlt.defaultSettings)
    (OnlySram.defaultSettings s.vlt)

theorem State.windowsOpen_startView (s : State) :
    s.windowsOpen.startView = { s.startView with ret := some (retKeyOf s.vlt.ctx) } := by
  unfold State.windowsOpen
  extract_lets keyed
  show State.startView (if _ then _ else _) = keyed.startView
  split
  · rfl
  · rw [State.rcb_startView, State.defaultSettings_startView]

theorem State.checkTamper_normal {conds : List Nat} (h : ∀ i, i < 9 → condOf i (conds.getD i 0) = false) (s : State) :
    (s.checkTamper conds).1 = false
      ∧ (s.checkTamper conds).2.startView = { s.startView with ret := some (retKeyOf s.vlt.ctx) } := by
  obtain ⟨hheld, hview⟩ := State.bootWindows_normal h s.windowsOpen
  exact ⟨hheld, hview.trans s.windowsOpen_startView⟩

/-! ## Step 5 -/

/-- The view after a retention loss: one more epoch bit is burnt in the states that burn one, and RT and Prompt begin again (R240,
R307, R315). -/
def StartView.lost (x : StartView) : StartView :=
  let n := if burnsEpoch x.lcCode then x.epoch + 1 else x.epoch
  { x with epoch := n, sramLost := false, ret := some (retKeyOf (ctxWord n x.lcCode x.lcSeq)), rt := 0, epochs := fun _ => 1 }

/-- The vault that a retention loss leaves, with the retention SRAM that it has written anew (R240, R245, R307). -/
def Vault.afresh (v : Vault) (m : List Host.Cell) : Vault :=
  let n := if burnsEpoch v.lcCode then v.epoch + 1 else v.epoch
  { v with
    epoch := n, sram := m, rcbFill := 0, toApply := none, rcbUnread := false, classA := Vector.replicate 64 none, rt := 0
    epochCopy := 0, keys := { ret := some (retKeyOf (ctxWord n v.lcCode v.lcSeq)) }, sramLost := false, setLost := false }

/-- A new header, then the default settings after a further write: the retention SRAM alone, and it counts as lost no more. -/
theorem Vault.newHeader_defaults (u : Vault) (p : Nat) (i : Bool) (g : Vault → List Host.Cell) :
    ∃ m, Vault.defaultSettings { u.newHeader p i with sram := g (u.newHeader p i) } =
      { u with sram := m, sramLost := false, setLost := false } := by
  have hheader := OnlySram.newHeader u p i
  generalize u.newHeader p i = x at hheader ⊢
  generalize g x = written
  have hset := OnlySram.defaultSettings { x with sram := written }
  generalize Vault.defaultSettings _ = y at hset ⊢
  refine ⟨y.sram, Eq.trans hset ?_⟩
  generalize y.sram = m
  unfold OnlySram at hheader
  rw [hheader]

theorem State.loseRetention_startView (s : State) : s.loseRetention.startView = s.startView.lost := by
  unfold State.loseRetention
  extract_lets prev burn lost prompt noted
  have hnoted : noted.startView = prompt.startView := by
    dsimp only [noted]
    split
    · exact prompt.rcb_startView _ _
    · rfl
  obtain ⟨m, hm⟩ : ∃ m, lost.vlt = s.vlt.afresh m := Vault.newHeader_defaults _ prev false fun x =>
    memWr32 (memPut x.sram 0x80 (recordBytes (x.keys.ret.getD []) 0 0 0 0 [] [])) 0x40 2
  have hlost : lost = { s with vlt := s.vlt.afresh m } := congrArg (fun v => { s with vlt := v }) hm
  rw [State.rcb_startView, State.rcb_startView, hnoted, State.startPrompt_startView, hlost]
  rfl

theorem Vault.unload_only (v : Vault) (id : Nat) :
    v.unload id = { v with classA := (v.unload id).classA, slots := (v.unload id).slots } := by
  unfold Vault.unload
  dsimp only
  split
  · rfl
  · rfl

theorem Vault.applyKum_only (v : Vault) : v.applyKum =
    { v with sram := v.applyKum.sram, classA := v.applyKum.classA, slots := v.applyKum.slots, toApply := v.applyKum.toApply } := by
  unfold Vault.applyKum
  split
  · exact OnlySram.setVersion v _ _
  · rename_i id ctr _
    have h := (v.setVersion id ctr).unload_only id
    generalize (v.setVersion id ctr).unload id = u at h ⊢
    rw [h]
    rfl
  · have h := OnlySram.setIron v false
    generalize v.setIron false = u at h ⊢
    rw [h]
  · rfl
  · rfl

theorem Vault.recovered (v : Vault) (i : Nat) : ∃ m c l a,
    (v.recover i).applyKum = { v with sram := m, classA := c, slots := l, toApply := a } := by
  have hrecover := OnlySram.recover v i
  generalize v.recover i = u at hrecover ⊢
  have hkum := u.applyKum_only
  generalize u.applyKum = x at hkum ⊢
  refine ⟨x.sram, x.classA, x.slots, x.toApply, hkum.trans ?_⟩
  unfold OnlySram at hrecover
  rw [hrecover]

theorem Vault.headerOk_kept {v : Vault} (h : v.headerOk = true) : v.sramLost = false := by
  unfold Vault.headerOk at h
  simp only [Bool.and_eq_true, Bool.not_eq_true'] at h
  exact h.1

/-- The slot of the journal that step 5 takes; none where retention is lost. -/
def Vault.kept (v : Vault) : Option Nat := if v.headerOk then v.recoverSlot else none

theorem Vault.kept_none {v : Vault} (h : v.sramLost = true) : v.kept = none := by
  refine if_neg fun hok => ?_
  rw [Vault.headerOk_kept hok] at h
  cases h

theorem State.checkRetention_eq (s : State) : s.checkRetention = match s.vlt.kept with
    | some i => some (s.modVlt fun v => { (v.recover i).applyKum with rt := v.resumeRt, rtLive := true })
    | none => if 256 ≤ s.vlt.epoch then none else some (s.loseRetention.modVlt fun v => { v with rtLive := true }) := rfl

theorem State.checkRetention_exhausted {s : State} (hlost : s.vlt.sramLost = true) (h : 256 ≤ s.vlt.epoch) :
    s.checkRetention = none := by
  rw [State.checkRetention_eq, Vault.kept_none hlost]
  exact if_pos h

theorem State.live_startView (s : State) :
    (s.modVlt fun v => { v with rtLive := true }).startView = { s.startView with rtLive := true } := rfl

/-- Where an epoch bit is left, step 5 goes on with a view that was kept or lost. -/
theorem State.checkRetention_view {s : State} (h : s.vlt.epoch < 256) : ∃ t, s.checkRetention = some t ∧
    ((s.vlt.sramLost = false ∧ t.startView = { s.startView with rt := s.vlt.resumeRt, rtLive := true })
      ∨ t.startView = { s.startView.lost with rtLive := true }) := by
  rw [State.checkRetention_eq]
  cases hk : s.vlt.kept with
  | some i =>
    have hkept : s.vlt.sramLost = false := by
      by_contra hlost
      rw [Vault.kept_none (Bool.eq_true_of_not_eq_false hlost)] at hk
      cases hk
    obtain ⟨m, c, l, a, hrec⟩ := s.vlt.recovered i
    refine ⟨_, rfl, .inl ⟨hkept, ?_⟩⟩
    have hresumed := congrArg (fun x : Vault => { s with vlt := { x with rt := s.vlt.resumeRt, rtLive := true } }) hrec
    exact (congrArg State.startView hresumed).trans rfl
  | none =>
    refine ⟨_, if_neg (Nat.not_le.2 h), .inr ?_⟩
    rw [State.live_startView, State.loseRetention_startView]

theorem State.losesEpoch_of {s : State} (hlost : s.vlt.sramLost = true) (hburn : burnsEpoch s.vlt.lcCode = true)
    (h : s.vlt.epoch < 256) : s.losesEpoch = true := by
  show (s.vlt.kept.isNone && burnsEpoch s.vlt.lcCode && decide (s.vlt.epoch < 256)) = true
  rw [Vault.kept_none hlost, hburn, decide_eq_true h]
  rfl

theorem State.losesEpoch_not {s : State} (hburn : burnsEpoch s.vlt.lcCode = false) : s.losesEpoch = false := by
  rw [State.losesEpoch, hburn, Bool.and_false, Bool.false_and]

/-! ## Steps 6 to 9 -/

/-- The boot nonce is drawn (R270). -/
def State.nonced (s : State) : State :=
  ((s.modVlt fun v => { v with drbgOk := true }).draw 16).2.modVlt fun v =>
    { v with bootNonce := ((s.modVlt fun v => { v with drbgOk := true }).draw 16).1 }

/-- A wing's Box Office seeds are drawn (R104). -/
def State.seedBox (s : State) (w : Wing) : State :=
  let (a, s) := s.draw 4
  let (b, s) := s.draw 4
  (s.modWing w fun x => { x with box := { x.box with seed0 := wd (leNat a), seed1 := wd (leNat b) } }).rhlSeed w 0 (a ++ b)

theorem State.seedBox_startView (s : State) (w : Wing) : (s.seedBox w).startView = s.startView := by
  unfold State.seedBox
  dsimp only
  rw [State.rhlSeed_startView, State.modWing_startView, State.draw_startView, State.draw_startView]
  exact fun _ => rfl

theorem State.drawBoot_eq (s : State) : s.drawBoot = ((s.nonced.eachWing State.seedBox).draw 16).2.modVlt fun v =>
    { v with perm := ((s.nonced.eachWing State.seedBox).draw 16).1, maskDraw := v.drbgN, drbgN := v.drbgN + 1 } := by
  unfold State.drawBoot State.nonced
  rfl

theorem State.permuted_startView (s : State) (p : Bytes) :
    (s.modVlt fun v => { v with perm := p, maskDraw := v.drbgN, drbgN := v.drbgN + 1 }).startView = s.startView := by
  rfl

theorem State.drawBoot_startView (s : State) : s.drawBoot.startView = { s.startView with drbgOk := true } := by
  rw [State.drawBoot_eq, State.permuted_startView, State.draw_startView, State.eachWing_startView State.seedBox_startView]
  rfl

/-- A blob that waited enters a free cell, if any (R263, R266). -/
theorem State.applyBlob_only (s : State) : ∃ c a, s.applyBlob = s.modVlt fun v => { v with classA := c, toApply := a } := by
  unfold State.applyBlob
  split
  · dsimp only
    split
    · exact ⟨_, _, rfl⟩
    · exact ⟨s.vlt.classA, none, rfl⟩
  · exact ⟨s.vlt.classA, s.vlt.toApply, rfl⟩

/-- The state with the keys of step 7: none beside the retention key under IRON_HELD (R301). -/
def State.keyed (s : State) : State := if s.vlt.ironHeld then s else (s.modVlt Vault.deriveAll).applyBlob

theorem State.keyed_startView (s : State) : s.keyed.startView = s.startView := by
  unfold State.keyed
  split
  · rfl
  · obtain ⟨c, a, h⟩ := (s.modVlt Vault.deriveAll).applyBlob_only
    rw [h]
    rfl

theorem State.keyed_wkr {s : State} (h : s.keyed.vlt.ironHeld = false) : s.keyed.vlt.keys.wkr = some (wkrOf s.keyed.vlt.ctx) := by
  unfold State.keyed at h ⊢
  split at h
  · next hiron =>
    rw [hiron] at h
    cases h
  · next hiron =>
    obtain ⟨c, a, happly⟩ := (s.modVlt Vault.deriveAll).applyBlob_only
    rw [if_neg hiron, happly]
    rfl

theorem laterEpoch_self (a : Nat) : laterEpoch a a = a := by
  unfold laterEpoch
  split <;> rfl

theorem State.copyRt_startView (s : State) : s.copyRt.startView = s.startView := by
  rfl

/-- Step 9 clears the Call Boards alone before RT is copied with the epoch of the wings (R307, R308). -/
theorem State.bootReady_copies (s : State) : ∃ t : State, s.bootReady = t.copyRt ∧ t.startView = s.startView
    ∧ t.boot.phase = .rom ∧ t.vlt.keys = s.vlt.keys ∧ t.vlt.sram = s.vlt.sram := by
  unfold State.bootReady
  extract_lets marked cleared
  have hcleared : cleared.startView = marked.startView :=
    State.eachWing_startView (fun t w => t.modWing_startView w (f := fun x => { x with cbd := {} }) fun _ => rfl) _
  have hvlt : cleared.vlt = marked.vlt := (marked.eachWing_only _ fun t w => t.modWing_only w _).vlt
  clear_value cleared
  have hkeys : cleared.vlt.keys = s.vlt.keys := by
    rw [hvlt]
    rfl
  have hsram : cleared.vlt.sram = s.vlt.sram := by
    rw [hvlt]
    rfl
  refine ⟨_, rfl, ?_, rfl, hkeys, hsram⟩
  exact Eq.trans rfl hcleared

theorem State.bootReady_startView (s : State) : s.bootReady.startView = s.startView := by
  obtain ⟨t, h, hview, -⟩ := s.bootReady_copies
  rw [h, State.copyRt_startView, hview]

theorem State.bootReady_vault (s : State) : s.bootReady.boot.phase = .rom ∧ s.bootReady.vlt.keys = s.vlt.keys
    ∧ s.bootReady.vlt.sram = s.vlt.sram := by
  obtain ⟨t, h, -, hphase, hkeys, hsram⟩ := s.bootReady_copies
  rw [h]
  exact ⟨hphase, hkeys, hsram⟩

theorem State.bootReady_time {s : State} (hlive : s.startView.rtLive = true)
    (heq : s.startView.epochs .sr = s.startView.epochs .sl) :
    s.bootReady.vlt.rtCopy = s.startView.rt ∧ s.bootReady.vlt.epochCopy = s.startView.epochs .sl := by
  obtain ⟨t, h, hview, hphase, -⟩ := s.bootReady_copies
  rw [h, ← hview]
  rw [← hview] at hlive heq
  have hon : t.boot.phase ≠ .off := by
    rw [hphase]
    decide
  refine ⟨if_pos hlive, (if_neg hon).trans ?_⟩
  have hwings : t.sr.prm.epoch = t.sl.prm.epoch := heq
  rw [hwings, laterEpoch_self]
  rfl

end Sys2Proof.Machine
end

section
/-! Start-up (O51): the state in which its steps begin, what each step comes to, and the report of the Script (R283, R284, R287,
R414, R422). -/

namespace Sys2Proof.Machine

/-! ## An alarm leaves what start-up has done -/

/-- What an alarm leaves of a state: all that start-up speaks of, and the causes that were set. -/
structure Alarmed (u t : State) : Prop where
  boot : t.boot = u.boot
  vlt : t.vlt = u.vlt
  view : t.startView = u.startView
  alarm : ∀ i, u.sys.alarm.testBit i = true → t.sys.alarm.testBit i = true

theorem Alarmed.refl (s : State) : Alarmed s s := ⟨rfl, rfl, rfl, fun _ => id⟩

theorem State.raiseAlarm_alarmed (s : State) (a : Alarm) : Alarmed s (s.raiseAlarm a) :=
  ⟨s.raiseAlarm_boot a, s.raiseAlarm_vlt a,
    State.startView_wing (s.raiseAlarm_vlt a) (s.raiseAlarm_pwr a) (s.raiseAlarm_mps a) fun w => s.raiseAlarm_keeps apart_epoch w a,
    fun _ h => State.raiseAlarm_keeps_alarm h a⟩

theorem Alarmed.held {s t : State} {st : Status} (h : Alarmed (s.holdStart st) t) :
    t.boot.phase = .held st ∧ t.vlt.keys = {} := by
  rw [h.boot, h.vlt]
  exact ⟨rfl, rfl⟩

theorem Alarmed.entropyHeld {s t : State} {st : Status} (h : Alarmed (s.entropyFailed.holdStart st) t) :
    t.boot.phase = .held st ∧ t.vlt.keys = {} ∧ t.vlt.lc = s.vlt.lc ∧ t.sys.alarm.testBit 2 = true := by
  obtain ⟨hphase, hkeys⟩ := h.held
  have hlc : s.entropyFailed.vlt.lc = s.vlt.lc := by rw [State.entropyFailed, State.raiseAlarm_vlt, State.logBoth_vlt]
  refine ⟨hphase, hkeys, ?_, h.alarm 2 (State.raiseAlarm_sets (s.logBoth .entropyFail 0 0 0 0) .key)⟩
  rw [h.vlt]
  exact hlc

/-! ## Where start-up begins -/

/-- The state in which the steps of start-up begin (R65, R283, R308). -/
def State.begun (s : State) (o : StartObs) : State :=
  State.startPrompt { s with
    pwr := { s.pwr with coreRst := false, late := false, slpReq := o.slpReq, slpAck := false }
    boot := { s.boot with phase := .rom }
    mps := Vector.ofFn fun (m : Fin 4) => { s.mps[m] with sb := o.sb.getD m.val s.mps[m].sb }
    vlt := { s.vlt with msBase := s.vlt.vtimer, pendingSleep := [] } }

theorem State.begun_startView (s : State) (o : StartObs) : (s.begun o).startView = { s.startView with
    pwr := { s.pwr with coreRst := false, late := false, slpReq := o.slpReq, slpAck := false }
    mps := Vector.ofFn fun (m : Fin 4) => { s.mps[m] with sb := o.sb.getD m.val s.mps[m].sb }
    epochs := fun _ => (s.vlt.epochCopy + 1) % 2 ^ 16 } := by
  rw [State.begun, State.startPrompt_startView]
  rfl

theorem State.begun_fusesRead (s : State) (o : StartObs) : (s.begun o).fusesRead = s.fusesRead := rfl

theorem State.startUp_begun (s : State) (o : StartObs) :
    { s with pwr := { s.pwr with coreRst := false, late := false, slpReq := o.slpReq } }.startUp o =
      if s.vlt.pendingSleep.any fun l => 1 ≤ l then ((s.begun o).startSteps o).raiseAlarm .tamper
      else (s.begun o).startSteps o := rfl

/-- The state with CORE_RST_N released and SLP_REQ sampled; within the reset hold the release is late (R414, R422). -/
def State.released (s : State) (o : StartObs) : State :=
  { s with pwr := { s.pwr with
      coreRst := false
      late := (s.pwr.coreRst || s.pwr.late) && !s.outOfHold
      slpReq := o.slpReq } }

section Begins
variable {s : State} {o : StartObs}

theorem execStartUp_none (h : s.boot.phase ≠ .off ∨ (s.pwr.slpAck = true ∧ s.pwr.coreRst = false ∧ s.pwr.late = false)) :
    exec (.startUp o) s = .next s := by
  refine if_pos (h.imp_right ?_)
  rintro ⟨hack, hcore, hlate⟩
  simp [hack, hcore, hlate]

theorem execStartUp_released (hoff : s.boot.phase = .off)
    (hrel : s.pwr.slpAck = false ∨ (s.pwr.coreRst || s.pwr.late) = true) : exec (.startUp o) s =
      .next (if (s.released o).canStart then (s.released o).startUp o else s.released o) := by
  refine if_neg ?_
  rintro (hon | ⟨hack, hnot⟩)
  · exact hon hoff
  · rcases hrel with h | h
    · rw [h] at hack
      cases hack
    · rw [h] at hnot
      cases hnot

theorem State.released_canStart (hoff : s.boot.phase = .off) :
    (s.released o).canStart = (s.outOfHold && !(s.pwr.slpAck && o.slpReq)) := by
  show (decide (s.boot.phase = .off) && s.outOfHold && !(s.pwr.slpAck && o.slpReq)) = _
  rw [decide_eq_true hoff, Bool.true_and]

theorem execStartUp_waits (hoff : s.boot.phase = .off)
    (hrel : s.pwr.slpAck = false ∨ (s.pwr.coreRst || s.pwr.late) = true)
    (hheld : s.outOfHold = false ∨ (s.pwr.slpAck = true ∧ o.slpReq = true)) :
    exec (.startUp o) s = .next (s.released o) := by
  have hcannot : (s.released o).canStart = false := by
    rw [State.released_canStart hoff]
    rcases hheld with h | ⟨hack, hreq⟩
    · rw [h, Bool.false_and]
    · rw [hack, hreq, Bool.and_self, Bool.not_true, Bool.and_false]
  rw [execStartUp_released hoff hrel, hcannot]
  rfl

/-- Start-up runs at a release, out of the reset hold, with SLP_REQ at 0 in sleep (R414, R422). -/
theorem execStartUp_runs (hoff : s.boot.phase = .off) (hout : s.outOfHold = true)
    (hrel : s.pwr.slpAck = false ∨ (o.slpReq = false ∧ (s.pwr.coreRst = true ∨ s.pwr.late = true))) :
    ∃ t, exec (.startUp o) s = .next t ∧ Alarmed ((s.begun o).startSteps o) t := by
  have hreleased : s.pwr.slpAck = false ∨ (s.pwr.coreRst || s.pwr.late) = true :=
    hrel.imp_right fun ⟨_, h⟩ => (Bool.or_eq_true ..).mpr h
  have hcan : (s.released o).canStart = true := by
    rw [State.released_canStart hoff, hout]
    rcases hrel with h | ⟨h, -⟩
    · rw [h, Bool.false_and]
      rfl
    · rw [h, Bool.and_false]
      rfl
  have hstate : s.released o = { s with pwr := { s.pwr with coreRst := false, late := false, slpReq := o.slpReq } } := by
    rw [State.released, hout, Bool.not_true, Bool.and_false]
  rw [execStartUp_released hoff hreleased, hcan, if_pos rfl, hstate, State.startUp_begun]
  split
  · exact ⟨_, rfl, State.raiseAlarm_alarmed _ _⟩
  · exact ⟨_, rfl, .refl _⟩

end Begins

/-! ## Steps 1 to 4 -/

section Steps
variable {s : State} {o : StartObs}

/-- The retention key, the settings and the windows of step 4, with the fuses read and the codes seeded. -/
def State.checked (s : State) (o : StartObs) : Bool × State := s.readFuses.seedCodes.checkTamper o.conds

theorem State.startSteps_eq (s : State) (o : StartObs) : s.startSteps o =
    if !lcValid s.fusesRead then s.readFuses.holdStart .lcFuseInvalid
    else if !s.pwr.railOk ∨ s.fusesRead.any (fun b => b.any && b != LcBit.full) then s.readFuses.holdStart .fuseRailAbsent
    else if !o.entropyOk then s.readFuses.entropyFailed.holdStart .entropyFail
    else if (s.checked o).1 then (s.checked o).2.holdStart .tamperAtBoot else (s.checked o).2.startTail o := rfl

theorem State.startSteps_invalid (h : lcValid s.fusesRead = false) : s.startSteps o = s.readFuses.holdStart .lcFuseInvalid := by
  rw [State.startSteps_eq, h]
  rfl

section Valid
variable (hvalid : lcValid s.fusesRead = true)
include hvalid

theorem State.startSteps_noRail (h : (s.pwr.railOk && !s.fusesRead.any fun b => b.any && b != LcBit.full) = false) :
    s.startSteps o = s.readFuses.holdStart .fuseRailAbsent := by
  rw [State.startSteps_eq, hvalid, if_neg (by decide), if_pos]
  rcases (Bool.and_eq_false_iff ..).mp h with h | h
  · exact .inl (by rw [h]; rfl)
  · exact .inr (by simpa using h)

variable (hrail : (s.pwr.railOk && !s.fusesRead.any fun b => b.any && b != LcBit.full) = true)
include hrail

theorem State.startSteps_railed : s.startSteps o =
    if !o.entropyOk then s.readFuses.entropyFailed.holdStart .entropyFail
    else if (s.checked o).1 then (s.checked o).2.holdStart .tamperAtBoot else (s.checked o).2.startTail o := by
  obtain ⟨hok, hfull⟩ := (Bool.and_eq_true_iff ..).mp hrail
  rw [State.startSteps_eq, hvalid, hok, (Bool.not_eq_true' _).mp hfull]
  rfl

theorem State.startSteps_noEntropy (h : o.entropyOk = false) :
    s.startSteps o = s.readFuses.entropyFailed.holdStart .entropyFail := by
  rw [State.startSteps_railed hvalid hrail, h]
  rfl

variable (hentropy : o.entropyOk = true)
include hentropy

theorem State.startSteps_tampered (h : ∃ i, 4 ≤ i ∧ i < 9 ∧ condOf i (o.conds.getD i 0) = true) :
    s.startSteps o = (s.checked o).2.holdStart .tamperAtBoot := by
  rw [State.startSteps_railed hvalid hrail, hentropy, if_neg (by decide), if_pos]
  exact State.bootWindows_held h _

/-- The view with which step 5 begins: the state and the retention key are those of the fuses read (R243, R278). -/
def StartView.checked (x : StartView) (lc : Vector LcBit 20) : StartView :=
  { x with
    lc := lc, lcCode := lcCodeOf lc, lcSeq := lcSeqOf lc
    ret := some (retKeyOf (ctxWord x.epoch (lcCodeOf lc) (lcSeqOf lc))) }

theorem State.startSteps_untampered (h : ∀ i, i < 9 → condOf i (o.conds.getD i 0) = false) : ∃ c : State,
    s.startSteps o = c.startTail o ∧ c.startView = s.startView.checked s.fusesRead := by
  obtain ⟨hheld, hview⟩ := State.checkTamper_normal h s.readFuses.seedCodes
  have hseeded : s.readFuses.seedCodes.startView = _ := s.readFuses.seedCodes_startView.trans s.readFuses_startView
  refine ⟨(s.checked o).2, ?_, hview.trans ?_⟩
  · rw [State.startSteps_railed hvalid hrail, hentropy, if_neg (by decide), State.checked, hheld]
    rfl
  · rw [← State.startView_ctx, hseeded]
    rfl

end Valid

end Steps

/-! ## Steps 5 to 9 -/

section Tail
variable {c : State} {o : StartObs}

theorem State.startTail_exhausted (hlost : c.vlt.sramLost = true) (h : 256 ≤ c.vlt.epoch) :
    c.startTail o = c.holdStart .epochExhausted := by
  rw [State.startTail, State.checkRetention_exhausted hlost h]

section Epoch
variable (h : c.vlt.epoch < 256)
include h

theorem State.startTail_cut {burnt : Bool} (hlost : c.vlt.sramLost = true) (hburn : burnsEpoch c.vlt.lcCode = true)
    (hcut : o.epochCut = some burnt) : c.startTail o = (c.cutEpoch burnt).holdStart .fuseRailAbsent := by
  obtain ⟨r, hr, -⟩ := State.checkRetention_view h
  rw [State.startTail, hr, State.losesEpoch_of hlost hburn h, hcut]
  rfl

/-- Step 5 goes on to step 6 with a view that was kept or lost. -/
theorem State.startTail_goes (hcut : o.epochCut = none ∨ burnsEpoch c.vlt.lcCode = false) : ∃ r : State,
    c.startTail o = (if !o.drbgOk then r.entropyFailed.holdStart .entropyFail
      else if !o.katOk then r.drawBoot.keyed.holdStart .katFail else r.drawBoot.keyed.bootReady)
    ∧ ((c.vlt.sramLost = false ∧ r.startView = { c.startView with rt := c.vlt.resumeRt, rtLive := true })
      ∨ r.startView = { c.startView.lost with rtLive := true }) := by
  obtain ⟨r, hr, hview⟩ := State.checkRetention_view h
  have hnocut : (if c.losesEpoch then o.epochCut else none) = none := by
    rcases hcut with hcut | hcut
    · rw [hcut, ite_self]
    · rw [State.losesEpoch_not hcut]
      rfl
  refine ⟨r, ?_, hview⟩
  rw [State.startTail, hr, hnocut]
  rfl

end Epoch

end Tail

end Sys2Proof.Machine
end

section
/-! What start-up ends in, and the report of the Script (O51). -/

namespace Sys2Proof.Machine

/-! ## The boot ROM runs -/

/-- What the rest of start-up needs of the view that step 5 leaves. -/
structure StartView.Live (x : StartView) : Prop where
  ret : x.ret = some (retKeyOf x.ctx)
  rtLive : x.rtLive = true
  epochs : x.epochs .sr = x.epochs .sl

/-- What steps 6 to 9 leave of a live view (R243, R283, R301, R307, R308). -/
structure Boots (x : StartView) (t : State) : Prop where
  phase : t.boot.phase = .rom
  view : t.startView = { x with drbgOk := true }
  wkr : t.vlt.ironHeld = false → t.vlt.keys.wkr = some (wkrOf t.vlt.ctx)
  rtCopy : t.vlt.rtCopy = x.rt
  epochCopy : t.vlt.epochCopy = x.epochs .sl

theorem State.bootReady_boots {r : State} (h : r.startView.Live) : Boots r.startView r.drawBoot.keyed.bootReady := by
  obtain ⟨hphase, hkeys, hsram⟩ := r.drawBoot.keyed.bootReady_vault
  have hkeyed : r.drawBoot.keyed.startView = { r.startView with drbgOk := true } :=
    r.drawBoot.keyed_startView.trans r.drawBoot_startView
  have hview := r.drawBoot.keyed.bootReady_startView
  have hctx : r.drawBoot.keyed.bootReady.vlt.ctx = r.drawBoot.keyed.vlt.ctx := congrArg StartView.ctx hview
  obtain ⟨hrt, hepoch⟩ := State.bootReady_time (s := r.drawBoot.keyed) (by rw [hkeyed]; exact h.rtLive)
    (by rw [hkeyed]; exact h.epochs)
  refine ⟨hphase, hview.trans hkeyed, fun hiron => ?_, ?_, ?_⟩
  · have hkiron : r.drawBoot.keyed.vlt.ironHeld = false := by rwa [Vault.ironHeld, ← hsram]
    rw [hkeys, hctx]
    exact State.keyed_wkr hkiron
  · rw [hrt, hkeyed]
  · rw [hepoch, hkeyed]

theorem Boots.alarmed {x : StartView} {u t : State} (h : Boots x u) (ha : Alarmed u t) : Boots x t := by
  obtain ⟨hphase, hview, hwkr, hrt, hepoch⟩ := h
  refine ⟨?_, ha.view.trans hview, ?_, ?_, ?_⟩
  · rw [ha.boot, hphase]
  · rwa [ha.vlt]
  · rw [ha.vlt, hrt]
  · rw [ha.vlt, hepoch]

/-! ## From a release of CORE_RST_N on -/

section StartUp
variable {s : State} {o : StartObs} {lc : Vector LcBit 20} (hoff : s.boot.phase = .off) (hout : s.outOfHold = true)
  (hrel : s.pwr.slpAck = false ∨ (o.slpReq = false ∧ (s.pwr.coreRst = true ∨ s.pwr.late = true)))
  (hlc : lc = s.fusesRead)
include hoff hout hrel hlc

theorem startUp_invalid (hvalid : lcValid lc = false) :
    ∃ t, exec (.startUp o) s = .next t ∧ t.boot.phase = .held .lcFuseInvalid ∧ t.vlt.keys = {}
      ∧ t.pwr = { s.pwr with coreRst := false, late := false, slpReq := o.slpReq, slpAck := false } := by
  subst hlc
  obtain ⟨t, ht, ha⟩ := execStartUp_runs hoff hout hrel
  rw [State.startSteps_invalid (s := s.begun o) hvalid] at ha
  obtain ⟨hphase, hkeys⟩ := ha.held
  exact ⟨t, ht, hphase, hkeys, congrArg StartView.pwr ha.view⟩

section Valid
variable (hvalid : lcValid lc = true)
include hvalid

theorem startUp_noRail (hrail : (s.pwr.railOk && !lc.any fun b => b.any && b != LcBit.full) = false) :
    ∃ t, exec (.startUp o) s = .next t ∧ t.boot.phase = .held .fuseRailAbsent ∧ t.vlt.keys = {} := by
  subst hlc
  obtain ⟨t, ht, ha⟩ := execStartUp_runs hoff hout hrel
  rw [State.startSteps_noRail (s := s.begun o) hvalid hrail] at ha
  exact ⟨t, ht, ha.held⟩

variable (hrail : (s.pwr.railOk && !lc.any fun b => b.any && b != LcBit.full) = true)
include hrail

theorem startUp_noEntropy (hentropy : o.entropyOk = false) :
    ∃ t, exec (.startUp o) s = .next t ∧ t.boot.phase = .held .entropyFail ∧ t.vlt.keys = {} ∧ t.vlt.lc = lc
      ∧ t.sys.alarm.testBit 2 = true := by
  subst hlc
  obtain ⟨t, ht, ha⟩ := execStartUp_runs hoff hout hrel
  rw [State.startSteps_noEntropy (s := s.begun o) hvalid hrail hentropy] at ha
  exact ⟨t, ht, ha.entropyHeld⟩

variable (hentropy : o.entropyOk = true)
include hentropy

theorem startUp_tampered (hconds : ∃ i, 4 ≤ i ∧ i < 9 ∧ condOf i (o.conds.getD i 0) = true) :
    ∃ t, exec (.startUp o) s = .next t ∧ t.boot.phase = .held .tamperAtBoot ∧ t.vlt.keys = {} := by
  subst hlc
  obtain ⟨t, ht, ha⟩ := execStartUp_runs hoff hout hrel
  rw [State.startSteps_tampered (s := s.begun o) hvalid hrail hentropy hconds] at ha
  exact ⟨t, ht, ha.held⟩

variable (hconds : ∀ i, i < 9 → condOf i (o.conds.getD i 0) = false)
include hconds

/-- Start-up comes to step 5, at a state with this view. -/
theorem startUp_tail : ∃ t c : State, exec (.startUp o) s = .next t ∧ Alarmed (c.startTail o) t
    ∧ c.startView = (s.begun o).startView.checked lc := by
  subst hlc
  obtain ⟨t, ht, ha⟩ := execStartUp_runs hoff hout hrel
  obtain ⟨c, hc, hview⟩ := State.startSteps_untampered (s := s.begun o) hvalid hrail hentropy hconds
  rw [hc] at ha
  exact ⟨t, c, ht, ha, hview⟩

theorem startUp_exhausted (hepoch : 256 ≤ s.vlt.epoch) (hlost : s.vlt.sramLost = true) :
    ∃ t, exec (.startUp o) s = .next t ∧ t.boot.phase = .held .epochExhausted ∧ t.vlt.keys = {} := by
  obtain ⟨t, c, ht, ha, hview⟩ := startUp_tail hoff hout hrel hlc hvalid hrail hentropy hconds
  rw [State.begun_startView] at hview
  have hclost : c.vlt.sramLost = s.vlt.sramLost := congrArg StartView.sramLost hview
  have hcepoch : c.vlt.epoch = s.vlt.epoch := congrArg StartView.epoch hview
  rw [State.startTail_exhausted (by rw [hclost, hlost]) (by rw [hcepoch]; exact hepoch)] at ha
  exact ⟨t, ht, ha.held⟩

variable (hepoch : s.vlt.epoch < 256)
include hepoch

theorem startUp_epochCut {burnt : Bool} (hlost : s.vlt.sramLost = true) (hburn : burnsEpoch (lcCodeOf lc) = true)
    (hcut : o.epochCut = some burnt) :
    ∃ t, exec (.startUp o) s = .next t ∧ t.boot.phase = .held .fuseRailAbsent ∧ t.vlt.keys = {}
      ∧ t.vlt.epoch = s.vlt.epoch + b2n burnt ∧ t.pwr.fuseVpp = false := by
  obtain ⟨t, c, ht, ha, hview⟩ := startUp_tail hoff hout hrel hlc hvalid hrail hentropy hconds
  rw [State.begun_startView] at hview
  have hclost : c.vlt.sramLost = s.vlt.sramLost := congrArg StartView.sramLost hview
  have hcepoch : c.vlt.epoch = s.vlt.epoch := congrArg StartView.epoch hview
  have hccode : c.vlt.lcCode = lcCodeOf lc := congrArg StartView.lcCode hview
  rw [State.startTail_cut (by rw [hcepoch]; exact hepoch) (by rw [hclost, hlost]) (by rw [hccode, hburn]) hcut] at ha
  obtain ⟨hphase, hkeys⟩ := ha.held
  refine ⟨t, ht, hphase, hkeys, ?_, congrArg (fun x => x.pwr.fuseVpp) ha.view⟩
  rw [ha.vlt, ← hcepoch]
  rfl

variable (hcut : o.epochCut = none ∨ burnsEpoch (lcCodeOf lc) = false)
include hcut

/-- The view that step 5 leaves is live: it was kept, or it was lost with RT at 0 and Prompt's epoch at 1 (R240, R307, R315). -/
theorem startUp_goes : ∃ (t r : State), exec (.startUp o) s = .next t
    ∧ Alarmed (if !o.drbgOk then r.entropyFailed.holdStart .entropyFail
        else if !o.katOk then r.drawBoot.keyed.holdStart .katFail else r.drawBoot.keyed.bootReady) t
    ∧ r.startView.Live ∧ r.startView.lc = lc ∧ r.startView.lcCode = lcCodeOf lc
    ∧ r.startView.pwr = (s.begun o).pwr ∧ r.startView.mps = (s.begun o).mps
    ∧ (r.startView.epochs .sl = (s.vlt.epochCopy + 1) % 2 ^ 16 ∨ r.startView.epochs .sl = 1)
    ∧ (s.vlt.sramLost = true → r.startView.epochs .sl = 1 ∧ r.startView.rt = 0) := by
  obtain ⟨t, c, ht, ha, hview⟩ := startUp_tail hoff hout hrel hlc hvalid hrail hentropy hconds
  have hbegun := s.begun_startView o
  have hclost : c.vlt.sramLost = s.vlt.sramLost := (congrArg StartView.sramLost hview).trans (congrArg StartView.sramLost hbegun)
  have hcepoch : c.vlt.epoch = s.vlt.epoch := (congrArg StartView.epoch hview).trans (congrArg StartView.epoch hbegun)
  have hccode : c.vlt.lcCode = lcCodeOf lc := congrArg StartView.lcCode hview
  have hprompt (w : Wing) : (s.begun o).startView.epochs w = (s.vlt.epochCopy + 1) % 2 ^ 16 := by rw [hbegun]
  obtain ⟨r, hr, hcase⟩ := State.startTail_goes (c := c) (o := o) (by rw [hcepoch]; exact hepoch) (by rwa [hccode])
  rw [hr] at ha
  refine ⟨t, r, ht, ha, ?_⟩
  rcases hcase with ⟨hkept, hrview⟩ | hrview
  · rw [hview] at hrview
    rw [hrview]
    refine ⟨⟨rfl, rfl, ?_⟩, rfl, rfl, rfl, rfl, .inl (hprompt .sl), fun hlost => ?_⟩
    · exact (hprompt .sr).trans (hprompt .sl).symm
    · rw [hclost, hlost] at hkept
      cases hkept
  · rw [hview] at hrview
    rw [hrview]
    exact ⟨⟨rfl, rfl, rfl⟩, rfl, rfl, rfl, rfl, .inr rfl, fun _ => ⟨rfl, rfl⟩⟩

theorem startUp_drbgFails (hdrbg : o.drbgOk = false) :
    ∃ t, exec (.startUp o) s = .next t ∧ t.boot.phase = .held .entropyFail ∧ t.vlt.keys = {} ∧ t.sys.alarm.testBit 2 = true := by
  obtain ⟨t, r, ht, ha, -⟩ := startUp_goes hoff hout hrel hlc hvalid hrail hentropy hconds hepoch hcut
  rw [hdrbg] at ha
  obtain ⟨hphase, hkeys, -, halarm⟩ := Alarmed.entropyHeld (s := r) ha
  exact ⟨t, ht, hphase, hkeys, halarm⟩

variable (hdrbg : o.drbgOk = true)
include hdrbg

theorem startUp_katFails (hkat : o.katOk = false) :
    ∃ t, exec (.startUp o) s = .next t ∧ t.boot.phase = .held .katFail ∧ t.vlt.keys = {} := by
  obtain ⟨t, r, ht, ha, -⟩ := startUp_goes hoff hout hrel hlc hvalid hrail hentropy hconds hepoch hcut
  rw [hdrbg, hkat] at ha
  exact ⟨t, ht, Alarmed.held (s := r.drawBoot.keyed) ha⟩

theorem startUp_boots (hkat : o.katOk = true) :
    ∃ t, exec (.startUp o) s = .next t ∧ t.boot.phase = .rom ∧ t.vlt.lc = lc ∧ t.vlt.lcCode = lcCodeOf lc
      ∧ t.vlt.drbgOk = true
      ∧ t.pwr = { s.pwr with coreRst := false, late := false, slpReq := o.slpReq, slpAck := false }
      ∧ t.vlt.keys.ret = some (retKeyOf t.vlt.ctx)
      ∧ (t.vlt.ironHeld = false → t.vlt.keys.wkr = some (wkrOf t.vlt.ctx))
      ∧ (t.sl.prm.epoch = (s.vlt.epochCopy + 1) % 2 ^ 16 ∨ t.sl.prm.epoch = 1) ∧ t.sr.prm.epoch = t.sl.prm.epoch
      ∧ t.vlt.epochCopy = t.sl.prm.epoch ∧ t.vlt.rtCopy = t.vlt.rt
      ∧ (s.vlt.sramLost = true → t.sl.prm.epoch = 1 ∧ t.vlt.rt = 0)
      ∧ (∀ m : Fin 4, t.mps[m] = { s.mps[m] with sb := o.sb.getD m.val s.mps[m].sb }) := by
  obtain ⟨t, r, ht, ha, hlive, hrlc, hrcode, hrpwr, hrmps, hrepoch, hrlost⟩ :=
    startUp_goes hoff hout hrel hlc hvalid hrail hentropy hconds hepoch hcut
  rw [hdrbg, hkat] at ha
  have hboots : Boots r.startView t := (State.bootReady_boots hlive).alarmed ha
  obtain ⟨hphase, hview, hwkr, hrt, hcopy⟩ := hboots
  have hsl : t.sl.prm.epoch = r.startView.epochs .sl := congrArg (fun x => x.epochs .sl) hview
  have hsr : t.sr.prm.epoch = r.startView.epochs .sr := congrArg (fun x => x.epochs .sr) hview
  have hrtnow : t.vlt.rt = r.startView.rt := congrArg StartView.rt hview
  have hctx : t.vlt.ctx = r.startView.ctx := congrArg StartView.ctx hview
  have hret : t.vlt.keys.ret = r.startView.ret := congrArg StartView.ret hview
  have hmps : t.mps = (s.begun o).mps := (congrArg StartView.mps hview).trans hrmps
  refine ⟨t, ht, hphase, (congrArg StartView.lc hview).trans hrlc, (congrArg StartView.lcCode hview).trans hrcode,
    congrArg StartView.drbgOk hview, (congrArg StartView.pwr hview).trans hrpwr, ?_, hwkr, ?_, ?_, ?_, ?_, ?_, fun m => ?_⟩
  · rw [hret, hctx, hlive.ret]
  · rwa [hsl]
  · rw [hsr, hsl, hlive.epochs]
  · rw [hcopy, hsl]
  · rw [hrt, hrtnow]
  · rwa [hsl, hrtnow]
  · rw [hmps]
    simp [State.begun, State.startPrompt, State.eachWing]

end Valid

end StartUp

/-! ## The Script reports ready -/

/-- The state in which the units are tested: both cores run the image and have made their first heartbeat, the wings are set up
(R287). -/
def State.scriptUp (s : State) : State :=
  let s : State := { s with
    boot := { s.boot with phase := .ready }
    cores := s.cores.map fun (c : Core) => { c with running := true, hash := s.boot.hash, beatAt := s.rt, beats := 1, got := 1 } }
  (s.modVlt fun v => { v with markSl := some v.rt, markSr := some v.rt }).eachWing fun s w => s.modWing w fun x =>
    { x with ready := true, lastTok := s.rt, wearAt := s.rt }

section Script
variable {s : State}

theorem scriptReady_tests (hload : s.boot.phase = .loading) (bad : List (Fin 28)) :
    exec (.scriptReady bad) s = .next (s.scriptUp.unitTests bad) := if_neg (not_not_intro hload)

theorem State.scriptUp_core (c : CoreId) :
    (s.scriptUp.core c).running = true ∧ (s.scriptUp.core c).hash = s.boot.hash ∧ (s.scriptUp.core c).beats = 1 := by
  simp [State.scriptUp, State.core, State.eachWing]

theorem State.scriptUp_wing (w : Wing) :
    (s.scriptUp.wing w).ready = true ∧ (s.scriptUp.wing w).failed = (s.wing w).failed := by
  cases w
  · exact ⟨rfl, rfl⟩
  · exact ⟨rfl, rfl⟩

theorem State.scriptUp_lanes : s.scriptUp.lanes = s.lanes := by simp [State.scriptUp, State.eachWing]

/-- Each wing has fourteen lanes, so that without a struck lane neither fails. -/
theorem State.unitTests_none (h : ∀ l : Fin 28, s.lanes[l].st ≠ .struck) : s.unitTests [] = s := by
  have hcount (w : Wing) : (List.finRange 28).countP (fun l => laneWing l = w ∧ s.lanes[l].st ≠ .struck) = 14 := by
    simp only [h, ne_eq, not_false_eq_true, and_true]
    cases w <;> decide
  have hpass (w : Wing) : ¬(List.finRange 28).countP (fun l => laneWing l = w ∧ s.lanes[l].st ≠ .struck) < 2 := by
    rw [hcount]
    decide
  rw [State.unitTests, List.foldl_nil, State.eachWing, if_neg (hpass .sl), if_neg (hpass .sr)]

theorem scriptReady_runs (hload : s.boot.phase = .loading) (bad : List (Fin 28)) :
    ∃ t : State, exec (.scriptReady bad) s = .next (t.unitTests bad) ∧ t.boot = { s.boot with phase := .ready }
      ∧ (∀ c : CoreId, (t.core c).running = true ∧ (t.core c).hash = s.boot.hash ∧ (t.core c).beats = 1)
      ∧ (∀ w : Wing, (t.wing w).ready = true ∧ (t.wing w).failed = (s.wing w).failed) ∧ t.lanes = s.lanes
      ∧ ((∀ l : Fin 28, s.lanes[l].st ≠ .struck) → t.unitTests [] = t) :=
  ⟨s.scriptUp, scriptReady_tests hload bad, rfl, State.scriptUp_core, State.scriptUp_wing, State.scriptUp_lanes,
    fun h => State.unitTests_none fun l => by rw [State.scriptUp_lanes]; exact h l⟩

end Script

/-- Settles O51: start-up comes to its first failing step, or with a live view to the boot ROM; else it waits or does nothing. -/
theorem startUp : Obligations.StartUp := by
  unfold Obligations.StartUp
  refine ⟨?steps, fun s o h => execStartUp_none h, ?waits, fun s bad hload => scriptReady_runs hload bad⟩
  case steps =>
    rintro s o lc rail hoff hout hrel hlc rfl
    exact ⟨fun hvalid => startUp_invalid hoff hout hrel hlc hvalid,
      fun hvalid hrail => startUp_noRail hoff hout hrel hlc hvalid hrail,
      fun hvalid hrail hent => startUp_noEntropy hoff hout hrel hlc hvalid hrail hent,
      fun hvalid hrail hent hconds => startUp_tampered hoff hout hrel hlc hvalid hrail hent hconds,
      fun hvalid hrail hent hconds hepoch hcut hdrbg =>
        startUp_drbgFails hoff hout hrel hlc hvalid hrail hent hconds hepoch hcut hdrbg,
      fun hvalid hrail hent hconds hepoch hcut hdrbg hkat =>
        startUp_katFails hoff hout hrel hlc hvalid hrail hent hconds hepoch hcut hdrbg hkat,
      fun burnt hvalid hrail hent hconds hepoch hlost hburn hcut =>
        startUp_epochCut hoff hout hrel hlc hvalid hrail hent hconds hepoch hlost hburn hcut,
      fun hvalid hrail hent hconds hepoch hcut hdrbg hkat =>
        startUp_boots hoff hout hrel hlc hvalid hrail hent hconds hepoch hcut hdrbg hkat,
      fun hvalid hrail hent hconds hepoch hlost => startUp_exhausted hoff hout hrel hlc hvalid hrail hent hconds hepoch hlost⟩
  case waits =>
    rintro s o released hoff rfl hrel hheld
    rw [execStartUp_waits hoff hrel hheld]
    rfl

end Sys2Proof.Machine
end

section
/-! Settings of Prompt, the cues and the logger (O5): bodies that stage on each wing that the request names. -/

namespace Sys2Proof.Machine

open Sys2Proof.Safety Sys2Proof.Laws

/-! ## Commands of one row among several that share an opcode -/

section Rows

variable {s : State} {ch : Fin 8} {o : OpSpec} {p : Place} {sel : Place → Bool} {body : State → Ctx → Res}

/-- `answers_each` for a row that shares its opcode. -/
theorem answersSel_each {E : State → Wing → State} {P : State → Wing → Prop} (h : Served s ch o p) (hs : sel p = true)
    (h3 : o.wing ≠ 3) (hb : ∀ t w, P t w → body t (ctxOf ch p (p.wings o (home s ch)) w) = good (E t w))
    (hE : ∀ t w v, v ≠ w → P t v → P (E t w) v) (hP : ∀ w ∈ p.wings o (home s ch), P (took s ch) w) :
    Answers (.next (s.runSel ch o sel body)) ((p.wings o (home s ch)).foldl E (took s ch)) ch .ok [] := by
  rw [runSel_served sel body h hs, if_neg h3, runWings_of_each hb hE (p.wings_nodup o _) hP]
  rfl

/-- Staging changes the channels alone, so a body that stages may be looked at in the state before with other channels. -/
theorem answersSel_stages {e : Wing → Eff} (h : Served s ch o p) (hs : sel p = true) (h3 : o.wing ≠ 3)
    (hb : ∀ cs w, w ∈ p.wings o (home s ch) → body { s with chans := cs } (ctxOf ch p (p.wings o (home s ch)) w)
      = good (staging { s with chans := cs } ch w (e w))) :
    Answers (.next (s.runSel ch o sel body)) (stagingAll s ch o p e) ch .ok [] := by
  refine answersSel_each (P := fun t w => w ∈ p.wings o (home s ch) ∧ ∃ cs, t = { s with chans := cs }) h hs h3 ?_ ?_
    fun w hw => ⟨hw, _, rfl⟩
  · rintro _ w ⟨hw, cs, rfl⟩
    exact hb cs w hw
  · rintro _ w v - ⟨hv, cs, rfl⟩
    exact ⟨hv, _, rfl⟩

end Rows

theorem State.withChans_wing (s : State) (cs : Vector Chan 8) (w : Wing) : ({ s with chans := cs } : State).wing w = s.wing w := by
  cases w <;> rfl

theorem State.withChans_recordOk (s : State) (cs : Vector Chan 8) (w : Wing) :
    ({ s with chans := cs } : State).recordOk w = s.recordOk w := rfl

/-! ## PRM_STEP (R313) -/

section Step

variable {s : State} {ch : Fin 8} {p : Place}

theorem stepMode_of {n : Nat} (h : wordAt p.words 2 = n) (hn : n < 2) : p.stepMode = n := by
  rw [Place.stepMode, h, fld_eq]
  omega

/-- The words of a PRM_STEP are as its row states. -/
theorem stepClean {n : Nat} (h : wordAt p.words 2 = n) (hn : n < 2) (h5 : wordAt p.words 5 < 2 ^ 16) (ws : List Wing) (w : Wing) :
    ((ctxOf ch p ws w).clean 2 1 && (ctxOf ch p ws w).clean 5 16) = true := by
  rw [ctxOf_clean (by omega), ctxOf_clean h5]
  rfl

variable {o : OpSpec} (ho : o = { op := 0x162, lenMin := 4, lenMax := 4, wing := 1 }) (h : Served s ch o p)
  (h5 : wordAt p.words 5 < 2 ^ 16) (hset : ∀ w, w ∈ p.wings o (home s ch) → (s.wing w).prm.st ≠ .unset)

include ho h h5 hset

theorem execPrmSetOffset_stages (hm : wordAt p.words 2 = 1) :
    Answers (exec (.prmSetOffset ch) s) (stagingAll s ch o p fun w =>
      .setOffset w (toSigned 64 (wordsNat (wordsAt p.words 3 2))) (wordAt p.words 5)) ch .ok [] := by
  subst ho
  refine answersSel_stages h (decide_eq_true (stepMode_of hm (by decide))) (by decide) fun cs w hw => ?_
  rw [Res.need_of (stepClean hm (by decide) h5 _ w)]
  exact if_neg (by rw [ctxOf_wing, State.withChans_wing]; exact hset w hw)

theorem execPrmAtPps_arms (hm : wordAt p.words 2 = 0) :
    Answers (exec (.prmAtPps ch) s) ((p.wings o (home s ch)).foldl
      (fun t w => t.modWing w fun x => { x with prm := { x.prm with armed := x.prm.armed + 1 } }) (took s ch)) ch .ok [] := by
  subst ho
  refine answersSel_each (P := fun t w => (t.wing w).prm.st ≠ .unset) h (decide_eq_true (stepMode_of hm (by decide))) (by decide)
    (fun t w ht => ?_) (fun t w v hv ht => ?_) fun w hw => ?_
  · rw [Res.need_of (stepClean hm (by decide) h5 _ w)]
    exact if_neg ht
  · rw [otherWing_of_ne hv] at ht ⊢
    rwa [State.modWing_wing_other]
  · rw [took_wing]
    exact hset w hw

end Step

/-! ## TOUT_SET (R323) -/

theorem State.cueStatus_ok_wing {s : State} {w : Wing} {c : Fin 16} {t : Cue} (h : s.cueStatus w c t = .ok) : cueWing c = w := by
  by_contra hne
  simp [State.cueStatus, hne] at h

/-- A cue stands in one wing, so a request whose cue passes its checks in each wing that it names names one wing. -/
theorem wings_of_cueStatus {t : State} {p : Place} {o : OpSpec} {v : Wing} {c : Fin 16} {x : Cue}
    (hok : ∀ w, w ∈ p.wings o v → t.cueStatus w c x = .ok) : p.wings o v = [cueWing c] := by
  have heq := fun w hw => State.cueStatus_ok_wing (hok w hw)
  unfold Place.wings at heq ⊢
  split_ifs at heq ⊢
  · rw [heq v List.mem_cons_self]
  · rw [heq .sl List.mem_cons_self]
  · rw [heq .sr List.mem_cons_self]
  · cases (heq .sl (by simp)).symm.trans (heq .sr (by simp))

theorem execToutSet_stages {s : State} {ch : Fin 8} {p : Place} {o : OpSpec}
    (ho : o = { op := 0x163, lenMin := 8, lenMax := 8, wing := 2 }) (h : Served s ch o p) (hclean : cueClean p.words 2 = true)
    (hok : ∀ w, w ∈ p.wings o (home s ch) →
      ((took s ch).view ch).cueStatus w (cueOfWords p.words 2).1 (cueOfWords p.words 2).2 = .ok) :
    Answers (exec (.toutSet ch) s)
      (stagingAll s ch o p fun _ => .cue (cueOfWords p.words 2).1 (cueOfWords p.words 2).2) ch .ok [] := by
  have hws := wings_of_cueStatus hok
  have hst := hok (cueWing (cueOfWords p.words 2).1) (by rw [hws]; exact List.mem_singleton.2 rfl)
  rw [stagingAll, hws]
  subst ho
  refine answers_oneWing h hws ?_
  simp only [ctxOf_words, ctxOf_wing, ctxOf_ch, hclean, if_true, hst]
  rfl

/-! ## RHL_SET (R395, R396, R403, R405) -/

section Logger

variable {s : State} {ch : Fin 8} {p : Place} {o : OpSpec}
  (ho : o = { op := 0x1A0, lenMin := 31, lenMax := 31, wing := 1 }) (h : Served s ch o p) (hclean : rhlCfgClean p.words 2 = true)

include ho h hclean

/-- An action of RHL_SET whose body stages, in the state before, on each wing that the request names. -/
theorem rhlSet_stages {action : Nat} {body : State → Ctx → Res} {e : Wing → Eff} (ha : p.rhlAction = action)
    (hb : ∀ cs w, w ∈ p.wings o (home s ch) → body { s with chans := cs } (ctxOf ch p (p.wings o (home s ch)) w)
      = good (staging { s with chans := cs } ch w (e w))) :
    Answers (.next (s.rhlSet ch action body)) (stagingAll s ch o p e) ch .ok [] := by
  subst ho
  exact answersSel_stages h (decide_eq_true ha) (by decide) fun cs w hw => (Res.need_of hclean _ _).trans (hb cs w hw)

theorem execRhlStop_stages (ha : p.rhlAction = 0) :
    Answers (exec (.rhlStop ch) s) (stagingAll s ch o p fun w => .rhlStop w) ch .ok [] :=
  rhlSet_stages ho h hclean ha fun _ _ _ => rfl

theorem execRhlStartTrace_stages (ha : p.rhlAction = 1) (hlc : s.vlt.lcCode = 5) (hdrbg : s.vlt.drbgOk = true)
    (hidle : ∀ w, w ∈ p.wings o (home s ch) → (s.wing w).rhl.busy = false) :
    Answers (exec (.rhlStartTrace ch) s) (stagingAll s ch o p fun w => .rhlStart w (RhlCfg.ofWords p.words 2)) ch .ok [] :=
  rhlSet_stages ho h hclean ha fun cs w hw => by
    simp only [hlc, hdrbg, ctxOf_wing, State.withChans_wing, hidle w hw]
    rfl

theorem execRhlStartRecord_stages (ha : p.rhlAction = 2) (hlc : s.vlt.lcCode = 5) (hdrbg : s.vlt.drbgOk = true)
    (hmay : ∀ w, w ∈ p.wings o (home s ch) → (s.wing w).rhl.busy = false ∧ (took s ch).recordOk w = true) :
    Answers (exec (.rhlStartRecord ch) s) (stagingAll s ch o p fun w => .rhlStart w (RhlCfg.ofWords p.words 2)) ch .ok [] :=
  rhlSet_stages ho h hclean ha fun cs w hw => by
    obtain ⟨hidle, hrec⟩ := hmay w hw
    have hrec' : s.recordOk w = true := hrec
    simp only [hlc, hdrbg, ctxOf_wing, State.withChans_wing, State.withChans_recordOk, hidle, hrec']
    rfl

theorem execRhlSetTarget_stages (ha : p.rhlAction = 3)
    (hidle : ∀ w, w ∈ p.wings o (home s ch) → (s.wing w).rhl.busy = false) :
    Answers (exec (.rhlSetTarget ch) s) (stagingAll s ch o p fun w =>
      .rhlTarget w (wordsToBytes (wordsAt p.words 5 4)) (wordsToBytes (wordsAt p.words 9 24))) ch .ok [] :=
  rhlSet_stages ho h hclean ha fun cs w hw => by
    simp only [ctxOf_wing, State.withChans_wing, hidle w hw]
    rfl

end Logger

/-- Settles O5: each command's checks pass by the hypotheses, in the state before with what has been staged meanwhile. -/
theorem modeSettings : Obligations.ModeSettings := by
  unfold Obligations.ModeSettings
  refine ⟨fun s ch p o => ⟨?offset, ?atPps, ?cue⟩, fun s ch p o ho h hclean => ⟨?stop, ?trace, ?record, ?target⟩⟩
  case offset => exact fun ho h hm h5 hset => execPrmSetOffset_stages ho h h5 hset hm
  case atPps => exact fun ho h hm h5 hset => execPrmAtPps_arms ho h h5 hset hm
  case cue => exact execToutSet_stages
  case stop => exact execRhlStop_stages ho h hclean
  case trace => exact execRhlStartTrace_stages ho h hclean
  case record => exact execRhlStartRecord_stages ho h hclean
  case target => exact execRhlSetTarget_stages ho h hclean

end Sys2Proof.Machine
end

section
/-! Reads of Prompt, cues, timestamp records and power (O28): bodies that answer on the one wing named. -/

namespace Sys2Proof.Machine

open Sys2Proof.Safety Sys2Proof.Laws

section Reads

variable {s : State} {ch : Fin 8} {p : Place} {w : Wing}

theorem took_now (s : State) (ch : Fin 8) (w : Wing) : (took s ch).now w = s.now w := by
  rw [State.now, took_wing, State.now]

/-- PRM_STATUS, by whether the last offset fits its word. -/
theorem execPrmStatus_served (h : Served s ch { op := 0x161, lenMin := 0, lenMax := 0, wing := 2 } p)
    (hw : p.wings { op := 0x161, lenMin := 0, lenMax := 0, wing := 2 } (home s ch) = [w]) :
    exec (.prmStatus ch) s = .next (Res.settle ch s.chans[ch].expect
      (if -2 ^ 31 ≤ (s.wing w).prm.theta ∧ (s.wing w).prm.theta < 2 ^ 31 then
        .done (took s ch) .ok ([wd ((s.wing w).prm.st.code + b2n (s.wing w).prm.holdFlag * 4)] ++ tsWords (s.now w)
          ++ [wd (ofSigned 32 (s.wing w).prm.f), wd (ofSigned 32 (s.wing w).prm.theta)])
      else .done (took s ch).takeFree .ok ([wd ((s.wing w).prm.st.code + b2n (s.wing w).prm.holdFlag * 4)] ++ tsWords (s.now w)
          ++ [wd (ofSigned 32 (s.wing w).prm.f), wd s.freeVal]))) := by
  refine congrArg Host.Outcome.next ((runCmd_oneWing h hw).trans ?_)
  simp only [ctxOf_wing, took_wing, took_now, decide_eq_true_eq]
  split <;> rfl

/-- TOUT_GET of a cue, by whether it stands in the wing named. -/
theorem execToutGet_served {c : Fin 16} (h : Served s ch { op := 0x164, lenMin := 1, lenMax := 1, wing := 2 } p)
    (hw : p.wings { op := 0x164, lenMin := 1, lenMax := 1, wing := 2 } (home s ch) = [w]) (hc : wordAt p.words 2 = c.val) :
    exec (.toutGet ch) s = .next (Res.settle ch s.chans[ch].expect
      (if cueWing c = w then .done (took s ch) .ok ((((took s ch).view ch).cues[c]).words c)
      else failed (took s ch) .notFound)) := by
  have hclean := ctxOf_clean (show wordAt p.words 2 < 2 ^ 4 by rw [hc]; exact c.isLt) ch [w] w
  have hcue : Fin.ofNat 16 (wordAt p.words 2) = c := by rw [hc, Fin.ofNat_val_eq_self]
  refine congrArg Host.Outcome.next ((runCmd_oneWing h hw).trans ?_)
  simp only [Res.need_of hclean, ctxOf_w, ctxOf_wing, ctxOf_ch, hcue]

theorem execTsExportRead_answers (h : Served s ch { op := 0x166, lenMin := 0, lenMax := 0, wing := 2 } p)
    (hw : p.wings { op := 0x166, lenMin := 0, lenMax := 0, wing := 2 } (home s ch) = [w]) :
    Answers (exec (.tsExportRead ch) s) ((took s ch).modWing w fun x => { x with tsq := x.tsq.drop 5 }) ch .ok
      (wd ((s.wing w).tsq.take 5).length :: ((s.wing w).tsq.take 5).flatMap TsRec.words) := by
  refine answers_oneWing h hw ?_
  simp only [ctxOf_wing, took_wing]

/-- PWR_STATUS, by whether the far wing is reached. -/
theorem execPwrStatus_served (h : Served s ch { op := 0x1C0, lenMin := 0, lenMax := 0 } p) :
    exec (.pwrStatus ch) s = .next (Res.settle ch s.chans[ch].expect
      (if s.reach (home s ch) (otherWing (home s ch)) then
        .done (took s ch).takeFree.takeFree .ok
          [wd (b2n s.pwr.vddh + b2n s.pwr.slpReq * 2), wd (Config.freeValue s.freeCtr), wd (Config.freeValue (s.freeCtr + 1))]
      else failed (took s ch) .wingUnreachable)) := by
  refine congrArg Host.Outcome.next ((runCmd_once _ h rfl).trans ?_)
  simp only [Res.reaching, State.cmdWing, ctxOf_ch, took_home, took_reach]
  rfl

end Reads

/-- Settles O28: each command reads the wing named; the last offset by whether it fits its word, a cue by its wing, power by
whether the far wing is reached. -/
theorem timeReads : Obligations.TimeReads := by
  unfold Obligations.TimeReads
  rintro s ch p w _ rfl
  refine ⟨fun h hw => ⟨?fits, ?free⟩, fun c h hw hc => ⟨?own, ?other⟩, execTsExportRead_answers, fun h => ⟨?reached, ?unreached⟩⟩
  case fits =>
    intro hlow hhigh
    rw [execPrmStatus_served h hw, if_pos ⟨hlow, hhigh⟩]
    rfl
  case free =>
    intro hout
    rw [execPrmStatus_served h hw, if_neg (by omega)]
    rfl
  case own =>
    intro hown
    rw [execToutGet_served h hw hc, if_pos hown]
    rfl
  case other =>
    intro hother
    rw [execToutGet_served h hw hc, if_neg hother]
    rfl
  case reached =>
    intro hr
    rw [execPwrStatus_served h, if_pos hr]
    rfl
  case unreached =>
    intro hr
    rw [execPwrStatus_served h, if_neg (by rw [hr]; decide)]
    rfl

end Sys2Proof.Machine
end

section
/-! Prompt's edges and clocks, and cues (O29): an edge by what it comes with, an event by its guard, a pulse by its cue. -/

namespace Sys2Proof.Machine

/-! ## A wing's Prompt -/

@[simp] theorem State.modPrm_prm (s : State) (w : Wing) (f : Prompt → Prompt) : ((s.modPrm w f).wing w).prm = f (s.wing w).prm := by
  rw [State.modPrm, State.modWing_wing]

theorem State.modPrm_other (s : State) (w : Wing) (f : Prompt → Prompt) :
    (s.modPrm w f).wing (otherWing w) = s.wing (otherWing w) := s.modWing_wing_other w _

theorem State.modPrm_modPrm (s : State) (w : Wing) (f g : Prompt → Prompt) :
    (s.modPrm w f).modPrm w g = s.modPrm w fun p => g (f p) := by
  cases w <;> rfl

theorem State.modPrm_rt (s : State) (w : Wing) (f : Prompt → Prompt) : (s.modPrm w f).rt = s.rt :=
  congrArg Vault.rt (s.modWing_vlt w _)

/-- An event on a Call Board leaves every wing's Prompt. -/
theorem State.log_prm (s : State) (w v : Wing) (e : Ev) (u a b c : Nat) : ((s.log w e u a b c).wing v).prm = (s.wing v).prm :=
  s.log_keeps (g := WingSt.prm) ⟨fun _ _ => rfl, fun _ _ => rfl, fun _ _ => rfl⟩ w v e u a b c

theorem State.log_other (s : State) (w : Wing) (e : Ev) (u a b c : Nat) :
    (s.log w e u a b c).wing (otherWing w) = s.wing (otherWing w) := s.modWing_wing_other w _

/-! ## Edges of TOD_x_PPS (R73, R310) -/

theorem Prompt.early_of_edges {p : Prompt} (hpps : p.ppsRt.isSome = true) (hz : p.cfg.clkHz ≠ 0)
    (he : p.edges * 1000 < p.cfg.clkHz) (rt : Nat) : p.early rt = true := by
  obtain ⟨x, hx⟩ := Option.isSome_iff_exists.1 hpps
  simp [Prompt.early, hx, hz, he]

theorem Prompt.not_early {p : Prompt} (h : p.ppsRt = none ∨ p.cfg.clkHz ≤ p.edges * 1000) (hz : p.cfg.clkHz ≠ 0) (rt : Nat) :
    p.early rt = false := by
  rcases h with hnone | hlate
  · rw [Prompt.early, hnone]
    rfl
  · cases hpps : p.ppsRt <;> simp [Prompt.early, hpps, hz, hlate]

section Edge

variable {s v u : State} {w : Wing} {t : TodIn}
  (hv : v = s.modPrm w fun p => { p with ppsRt := some s.rt, edges := 0 }) (hrun : s.todRuns w = true)

include hv hrun

theorem execTodPps_ignored (h : (s.wing w).prm.early s.rt = true ∨ t.valid = false ∨ t.stable = false) :
    exec (.todPps w t) s = .next (v.countWing w .ppsIgnored) := by
  subst hv
  show execTodPps w t s = _
  have hbad : (s.wing w).prm.early s.rt = true ∨ (!t.valid) = true ∨ (!t.stable) = true := by simpa using h
  simp only [execTodPps, hrun, State.modPrm_rt, if_pos hbad]
  rfl

variable (hearly : (s.wing w).prm.early s.rt = false) (hvalid : t.valid = true) (hstable : t.stable = true)
  (hu : u = v.rhlRec w 0x09 (leBytes 1 (1 + b2n t.lock * 2)) (leBytes 6 t.sec.toNat ++ leBytes 4 t.ns.toNat) 4)

include hearly hvalid hstable hu

/-- An edge that is not ignored is recorded, and used or counted by its lock input. -/
theorem execTodPps_taken (hz : (s.wing w).prm.cfg.clkHz ≠ 0) :
    exec (.todPps w t) s = .next (if t.lock = false ∧ (s.wing w).prm.cfg.useLock = true then u.countWing w .todUnlockedEdge
      else u.usedEdge w ((t.sec.toNat * 1000000000 + t.ns.toNat) * 2 ^ 32)) := by
  subst hv hu
  show execTodPps w t s = _
  simp only [execTodPps, hrun, State.modPrm_rt, hearly, hvalid, hstable, if_neg hz, Bool.not_eq_true', Bool.not_true,
    Bool.false_eq_true, or_self, if_false]
  split <;> rfl

end Edge

/-! ## Used edges (R310, R311) -/

section UsedEdge

variable {s : State} {w : Wing}

theorem State.usedEdge_unset (h : (s.wing w).prm.st = .unset) (tod : Nat) : s.usedEdge w tod = (((s.modPrm w fun p =>
    { p with usedRt := s.rt, st := .locked, t := tod, epoch := (p.epoch + 1) % 2 ^ 16, f := 0, r := 0, usedT := some tod,
             skipF := true, clkLost := false }).copyRt).log w .prmAcquired 0 0 0 0).dropOldEpoch w := by
  simp only [State.usedEdge, h, State.modPrm_modPrm]

theorem State.usedEdge_locked (h : (s.wing w).prm.st = .locked) (harmed : (s.wing w).prm.armed = 0) (tod : Nat) :
    s.usedEdge w tod = (s.modPrm w fun p => { p with usedRt := s.rt }).discipline w tod (s.wing w).prm.skipF := by
  simp only [State.usedEdge, h, harmed, ne_eq, not_true_eq_false, if_false]

end UsedEdge

/-- Prompt with F, R and the last offset as a used edge leaves them (R311). -/
def Prompt.disciplined (p : Prompt) (tod : Nat) (keepF : Bool) : Prompt :=
  let th : Int := (tod : Int) - (p.t : Int)
  let gap : Int := max 1 ((p.t : Int) - p.usedT.getD p.t)
  let f := if keepF then p.f else clampRate (p.f + th * 1000000000000 / (8 * gap))
  { p with f := f, r := clampRate (f + th * 1000000000000 / (2 * gap)), theta := th / 2 ^ 32, usedT := some p.t, skipF := false }

/-- The discipline, beside it at most an event for a large offset and the time of it. -/
theorem State.discipline_cases (s : State) (w : Wing) (tod : Nat) (keepF : Bool) :
    s.discipline w tod keepF = (s.modPrm w fun p => p.disciplined tod keepF)
    ∨ ∃ a b rt, s.discipline w tod keepF = ((s.modPrm w fun p => p.disciplined tod keepF).log w .prmOffsetLarge 0 0 a b).modPrm w
        fun p => { p with largeRt := rt } :=
  (ite_eq_or_eq _ _ _).symm.imp id fun h => ⟨_, _, _, h⟩

theorem State.discipline_prm (s : State) (w : Wing) (tod : Nat) (keepF : Bool) :
    ∃ large, ((s.discipline w tod keepF).wing w).prm = { (s.wing w).prm.disciplined tod keepF with largeRt := large } := by
  obtain h | ⟨_, _, large, h⟩ := s.discipline_cases w tod keepF
  · exact ⟨(s.wing w).prm.largeRt, by rw [h, State.modPrm_prm]; rfl⟩
  · exact ⟨large, by rw [h, State.modPrm_prm, State.log_prm, State.modPrm_prm]⟩

theorem State.discipline_other (s : State) (w : Wing) (tod : Nat) (keepF : Bool) :
    (s.discipline w tod keepF).wing (otherWing w) = s.wing (otherWing w) := by
  obtain h | ⟨_, _, _, h⟩ := s.discipline_cases w tod keepF
  · rw [h, State.modPrm_other]
  · rw [h, State.modPrm_other, State.log_other, State.modPrm_other]

/-! ## Holdover (R312) -/

theorem State.holdover_locked {s : State} {w : Wing} (h : (s.wing w).prm.st = .locked) :
    s.holdover w = (s.modPrm w fun p => { p with st := .holdover, holdFlag := true }).log w .prmHoldover 0 0 0 0 := if_pos h

theorem State.timeRuns_of_todRuns {s : State} {w : Wing} (h : s.todRuns w = true) : s.timeRuns w = true :=
  (Bool.and_eq_true_iff.1 h).1

section Holdover

variable {s : State} {w : Wing}

theorem execTodLock_holdover (hrun : s.todRuns w = true) (huse : (s.wing w).prm.cfg.useLock = true) :
    exec (.todLock w) s = .next (s.holdover w) := congrArg Host.Outcome.next (if_pos ⟨hrun, huse⟩)

theorem execPrmHoldover_holdover (hrun : s.timeRuns w = true)
    (hlong : (s.wing w).prm.usedRt + (s.wing w).prm.cfg.holdoverMs * 1000000 ≤ s.rt) :
    exec (.prmHoldover w) s = .next (s.holdover w) := congrArg Host.Outcome.next (if_pos ⟨hrun, hlong⟩)

theorem execPrmClockLost_holdover (hrun : s.timeRuns w = true) (hst : (s.wing w).prm.st ≠ .unset)
    (hheld : (s.wing w).prm.clkLost = false) (hlong : (s.wing w).prm.edgeRt + 10000 ≤ s.rt) :
    exec (.prmClockLost w) s = .next (((s.holdover w).modPrm w fun p =>
      { p with clkLost := true, ratio := Config.todRatio (decide (w = .sr)) s.rt }).log w .prmClockLost 0 0 0 0) :=
  if_neg (by simp [hrun, hst, hheld, hlong])

end Holdover

/-! ## Cues (R321, R323, R324) -/

section Fire

variable (s : State) (c : Fin 16)

/-- The asymmetry changes that wait for a cue change the ports alone. -/
theorem State.asymFire_eq : s.asymFire c = { s with ports := (s.asymFire c).ports } := by
  have hrest : ∀ ps, { s.asymFire c with ports := ps } = { s with ports := ps } := fun ps => by
    refine foldl_keeps (fun t : State => { t with ports := ps }) _ ?_ (wingPorts (cueWing c)) s
    exact fun _ _ => rfl
  exact hrest _

theorem State.asymFire_cues : (s.asymFire c).cues = s.cues := by rw [State.asymFire_eq]

theorem State.fireCue_eq : s.fireCue c = { s with cues := (s.fireCue c).cues, ports := (s.fireCue c).ports } := by
  unfold State.fireCue
  exact (State.asymFire_eq _ c).trans (by rw [State.asymFire_cues]; rfl)

theorem State.fireCue_self : (s.fireCue c).cues[c] =
    { s.cues[c] with pulse := some (s.rt + s.cues[c].widthNs), pulsePol := s.cues[c].polarity, pulseEn := s.cues[c].outEn,
                     mode := if s.cues[c].mode = 1 then 0 else s.cues[c].mode,
                     next := if s.cues[c].mode = 2 then s.cues[c].next.map (· + s.cues[c].periodNs * 2 ^ 32) else none } := by
  rw [State.fireCue, State.asymFire_cues]
  exact State.modCue_self s c _

theorem State.fireCue_ne {d : Fin 16} (h : d ≠ c) : (s.fireCue c).cues[d] = s.cues[d] := by
  rw [State.fireCue, State.asymFire_cues]
  exact State.modCue_ne s c d _ h.symm

end Fire

section Pulse

variable {s : State} {c : Fin 16} {n : Nat}

theorem execCueFire_fires (hrun : s.timeRuns (cueWing c) = true) (hmode : s.cues[c].mode ≠ 0) (hpulse : s.cues[c].pulse = none)
    (hnext : s.cues[c].next = some n) (hdue : n ≤ (s.wing (cueWing c)).prm.t) : exec (.cueFire c) s = .next (s.fireCue c) :=
  congrArg Host.Outcome.next (if_pos ⟨hrun, hmode, by rw [hpulse]; rfl, by rw [hnext]; exact decide_eq_true hdue⟩)

theorem execCuePulseEnd_ends (hrun : s.timeRuns (cueWing c) = true) (hpulse : s.cues[c].pulse = some n) (hdue : n ≤ s.rt) :
    exec (.cuePulseEnd c) s = .next (s.modCue c fun x => { x with pulse := none }) :=
  congrArg Host.Outcome.next (if_pos ⟨hrun, by rw [hpulse]; exact decide_eq_true hdue⟩)

theorem Cue.pin_of_idle {x : Cue} (h : x.pulse = none) : x.pin = (x.outEn && x.polarity) := by
  rw [Cue.pin, h]

end Pulse

/-- Settles O29: an edge by what it comes with, a used edge by the state of Prompt, and the other events where their guards are met. -/
theorem timeEvents : Obligations.TimeEvents := by
  unfold Obligations.TimeEvents
  refine ⟨?prompt, fun s c n hrun => ⟨?fire, fun hpulse hdue => ⟨execCuePulseEnd_ends hrun hpulse hdue, fun _ => Cue.pin_of_idle⟩⟩⟩
  case prompt =>
    rintro s v w t _ hrun rfl hv
    refine ⟨?ignored, fun u hvalid hstable hlate hz hu => ⟨?used, ?unlocked⟩, fun tod h => State.usedEdge_unset h tod,
      fun tod h harmed => State.usedEdge_locked h harmed tod, ?discipline, ?holdover⟩
    case ignored =>
      rintro (⟨hpps, hz, he⟩ | hbad)
      · exact execTodPps_ignored hv hrun (.inl (Prompt.early_of_edges hpps hz he _))
      · exact execTodPps_ignored hv hrun (.inr hbad)
    case used =>
      intro hlock
      rw [execTodPps_taken hv hrun (Prompt.not_early hlate hz _) hvalid hstable hu hz, if_neg]
      rintro ⟨hfall, huse⟩
      rw [hfall, huse] at hlock
      simp at hlock
    case unlocked =>
      intro hlock huse
      rw [execTodPps_taken hv hrun (Prompt.not_early hlate hz _) hvalid hstable hu hz, if_pos ⟨hlock, huse⟩]
    case discipline =>
      rintro tod _ _ rfl rfl
      obtain ⟨_, hfree⟩ := s.discipline_prm w tod false
      obtain ⟨_, hkeep⟩ := s.discipline_prm w tod true
      rw [hfree, hkeep]
      exact ⟨rfl, rfl, rfl, rfl, s.discipline_other w tod false⟩
    case holdover =>
      rintro _ rfl hst
      have htime := State.timeRuns_of_todRuns hrun
      rw [← State.holdover_locked hst]
      exact ⟨execTodLock_holdover hrun, execPrmHoldover_holdover htime,
        execPrmClockLost_holdover htime (by rw [hst]; decide)⟩
  case fire =>
    intro hmode hpulse hnext hdue
    refine ⟨_, execCueFire_fires hrun hmode hpulse hnext hdue, State.fireCue_eq s c, ?_⟩
    rw [State.fireCue_self]
    refine ⟨rfl, rfl, fun hone => ?_, fun htwo => ?_, fun d hd => State.fireCue_ne s c hd⟩
    · exact ⟨if_pos hone, if_neg (by rw [hone]; decide)⟩
    · exact ⟨(if_neg (by rw [htwo]; decide)).trans htwo, (if_pos htwo).trans (by rw [hnext]; rfl)⟩

end Sys2Proof.Machine
end

section
/-! Responses (O57): what a row does to the command that comes next, the place that an answer marks, and the words of a response. -/

namespace Sys2Proof.Machine

open Sys2Proof.Safety Sys2Proof.Laws

/-! ## The row of the command that comes next (R369, R370) -/

section Row

variable {s : State} {ch : Fin 8} {p : Place} {o : OpSpec} {sel : Place → Bool} {body : State → Ctx → Res}

theorem State.isNext_of {op : Nat} (hhead : s.chans[ch].head = some p) (hqueued : p.phase = .queued) (hop : p.op = op)
    (hsel : sel p = true) (hserve : s.canServe ch = true) : s.isNext ch op sel = some p := by
  simp only [State.isNext, hhead, hqueued, hop, hsel, hserve, and_self, if_true]

theorem State.isNext_empty {op : Nat} (hhead : s.chans[ch].head = none) : s.isNext ch op sel = none := by
  simp only [State.isNext, hhead]

theorem State.isNext_other {op : Nat} (hhead : s.chans[ch].head = some p) (hne : p.op ≠ op ∨ p.phase ≠ .queued) :
    s.isNext ch op sel = none := by
  simp only [State.isNext, hhead]
  exact if_neg fun ⟨hqueued, hop, _⟩ => hne.elim (· hop) (· hqueued)

theorem runSel_idle (h : s.isNext ch o.op sel = none) : s.runSel ch o sel body = s := by
  rw [State.runSel, h]

theorem runSel_seqError (h : s.isNext ch o.op sel = some p) (hseq : p.seq ≠ s.chans[ch].expect.toNat) :
    s.runSel ch o sel body = s.reply ch .seqError [wd s.chans[ch].expect.toNat] := by
  rw [State.runSel, h]
  exact if_pos hseq

theorem runSel_refused {st : Status} (h : s.isNext ch o.op sel = some p) (hseq : p.seq = s.chans[ch].expect.toNat)
    (hst : (took s ch).refuses ch p o = some st) : s.runSel ch o sel body = (took s ch).finish ch st [] := by
  rw [took] at hst
  simp only [State.runSel, h, hseq, ne_eq, not_true_eq_false, if_false, hst]
  rfl

end Row

/-! ## The place that an answer marks (R365, R328) -/

/-- A place whose command has been answered. -/
def Place.isAnswered (p : Place) : Prop := ∃ a b, p.phase = .answered a b

theorem State.modChan_congr {s : State} {n : Fin 8} {f g : Chan → Chan} (h : f s.chans[n] = g s.chans[n]) :
    s.modChan n f = s.modChan n g := by
  rw [State.modChan, State.modChan, h]

section Head

variable {pre rest : List Place} {p : Place}

theorem Chan.headIx_of_answered {c : Chan} (h : ∀ x ∈ c.queue, x.isAnswered) : c.headIx = none := by
  refine List.findIdx?_eq_none_iff.2 fun x hx => ?_
  obtain ⟨a, b, hab⟩ := h x hx
  rw [hab]

theorem Chan.headIx_of_split {c : Chan} (hq : c.queue = pre ++ p :: rest) (hpre : ∀ x ∈ pre, x.isAnswered) (hp : ¬p.isAnswered) :
    c.headIx = some pre.length := by
  have hnone : Chan.headIx { c with queue := pre } = none := Chan.headIx_of_answered hpre
  rw [Chan.headIx] at hnone ⊢
  rw [hq, List.findIdx?_append, hnone, List.findIdx?_cons]
  cases hphase : p.phase with
  | queued => simp
  | running w => simp
  | answered a b => exact absurd ⟨a, b, hphase⟩ hp

theorem Chan.head_of_answered {c : Chan} (h : ∀ x ∈ c.queue, x.isAnswered) : c.head = none := by
  rw [Chan.head, Chan.headIx_of_answered h]
  rfl

theorem Chan.head_of_split {c : Chan} (hq : c.queue = pre ++ p :: rest) (hpre : ∀ x ∈ pre, x.isAnswered) (hp : ¬p.isAnswered) :
    c.head = some p := by
  rw [Chan.head, Chan.headIx_of_split hq hpre hp, Option.bind_some, hq, List.getElem?_append_right le_rfl, Nat.sub_self,
    List.getElem?_cons_zero]

variable {s : State} {ch : Fin 8}

theorem State.modHead_of_split (hq : s.chans[ch].queue = pre ++ p :: rest) (hpre : ∀ x ∈ pre, x.isAnswered) (hp : ¬p.isAnswered)
    (f : Place → Place) : s.modHead ch f = s.modChan ch fun c => { c with queue := pre ++ f p :: rest } := by
  refine State.modChan_congr ?_
  rw [Chan.headIx_of_split hq hpre hp]
  dsimp only
  rw [hq]
  exact congrArg (fun q => { s.chans[ch] with queue := q }) (List.modifyTailIdx_add _ 0 pre (p :: rest))

end Head

theorem State.settleMap_none {s : State} {ch : Fin 8} (h : s.chans[ch].mapNext = none) : s.settleMap ch = s := by
  rw [State.settleMap, h]

theorem State.settleMap_due {s : State} {ch : Fin 8} {w : Wing} (h : s.chans[ch].mapNext = some w) (hhead : s.chans[ch].head = none) :
    s.settleMap ch = s.modChan ch fun c => { c with mapWing := w, served := (s.wing w).served, mapNext := none } := by
  rw [State.settleMap, h]
  exact if_pos (by rw [hhead]; rfl)

/-! ## The words of a response (R369) -/

theorem Status.code_lt (st : Status) : st.code < 2 ^ 8 := by
  cases st <;> decide

theorem wordAt_wd_cons (n : Nat) (l : List Word) : wordAt (wd n :: l) 0 = n % 2 ^ 32 := BitVec.toNat_ofNat ..

theorem fld_lt (x hi lo : Nat) : fld x hi lo < 2 ^ (hi + 1 - lo) := Nat.mod_lt _ (Nat.two_pow_pos _)

/-- The fields of a response's first word do not run into each other. -/
theorem responseWord_fields {op len wing code x : Nat} (hop : op < 2 ^ 10) (hlen : len < 2 ^ 6) (hwing : wing < 2 ^ 2)
    (hcode : code < 2 ^ 8) (hx : x = op + len * 2 ^ 16 + wing * 2 ^ 22 + code * 2 ^ 24) :
    x < 2 ^ 32 ∧ fld x 9 0 = op ∧ fld x 21 16 = len ∧ fld x 23 22 = wing ∧ fld x 31 24 = code := by
  simp only [fld_eq]
  omega

theorem Place.op_lt (p : Place) : p.op < 2 ^ 10 := fld_lt (wordAt p.words 0) 9 0

theorem Place.wing_lt (p : Place) : p.wing < 2 ^ 2 := fld_lt (wordAt p.words 0) 23 22

theorem Place.seq_lt (p : Place) : p.seq < 2 ^ 16 := fld_lt (wordAt p.words 1) 15 0

theorem Place.response_eq (p : Place) (st : Status) {ws : List Word} (hlen : ws.length ≤ 62) :
    p.response st ws = wd (p.op + ws.length * 2 ^ 16 + p.wing * 2 ^ 22 + st.code * 2 ^ 24) :: wd p.seq :: ws := by
  rw [Place.response, List.take_of_length_le hlen, Nat.mod_eq_of_lt (by omega)]
  rfl

/-- Settles O57: a row by what comes next, an answer by where its place stands in the queue, a response by its two first words. -/
theorem responses : Obligations.Responses := by
  unfold Obligations.Responses
  refine ⟨fun s ch p o sel body => ⟨fun hhead hqueued hop hsel hserve => ?served, fun h => runSel_idle (State.isNext_empty h),
    fun h hne => runSel_idle (State.isNext_other h hne)⟩, fun s ch st ws pre rest p hq hpre hp => ?answered,
    fun p st ws hlen r hr => ?words⟩
  case served =>
    have hnext := State.isNext_of hhead hqueued hop hsel hserve
    exact ⟨runSel_seqError hnext, fun st => runSel_refused hnext⟩
  case answered =>
    have hopen : ¬p.isAnswered := fun ⟨a, b, h⟩ => hp a b h
    refine ⟨Chan.head_of_split hq hpre hopen, ?_⟩
    rintro u rfl
    rw [State.rawReply, State.modHead_of_split hq hpre hopen]
    refine ⟨fun hnone => State.settleMap_none ?_, ?_⟩
    · rw [State.modChan_self, hnone]
    · rintro w hw rfl
      refine (State.settleMap_due (w := w) ?next ?last).trans ?_
      case next => rw [State.modChan_self, hw]
      case last =>
        rw [State.modChan_self]
        refine Chan.head_of_answered fun x hx => ?_
        obtain hx | hx := List.mem_append.1 hx
        · exact hpre x hx
        · exact List.mem_singleton.1 hx ▸ ⟨st, ws, rfl⟩
      cases w <;> rfl
  case words =>
    obtain ⟨hfit, hop, hcount, hwing, hcode⟩ := responseWord_fields p.op_lt (show ws.length < 2 ^ 6 by omega) p.wing_lt st.code_lt rfl
    have hseq : p.seq % 2 ^ 32 = p.seq := Nat.mod_eq_of_lt (p.seq_lt.trans (by decide))
    rw [hr, Place.response_eq p st hlen, wordAt_wd_cons, Nat.mod_eq_of_lt hfit]
    exact ⟨rfl, hop, hcount, hwing, hcode, (wordAt_wd_cons p.seq ws).trans hseq, rfl⟩

end Sys2Proof.Machine
end

section
/-! What a curtain applies (O6): the effects it covers, by the serving wing's link, and the install of an SA over another. -/

namespace Sys2Proof.Machine

open Sys2Proof.Safety Sys2Proof.Laws

/-! ## The effects that a curtain covers (R336, R372) -/

section Covers

variable {s : State} {ch : Fin 8}

/-- A curtain is told by a test of the wings that it covers: the serving wing, and all while that wing is JOINED. -/
theorem State.curtain_covers {covered : Wing → Bool}
    (h : ∀ w, covered w = decide (w = home s ch ∨ (s.wing (home s ch)).link = .joined)) :
    s.curtain ch = (s.chans[ch].staged.filter fun e => covered e.1).foldl (fun t e => t.applyEff e.1 e.2)
      (s.modChan ch fun c => { c with staged := c.staged.filter fun e => !covered e.1 }) := by
  obtain rfl := funext h
  rfl

theorem State.curtain_joined (h : (s.wing (home s ch)).link = .joined) :
    s.curtain ch = s.chans[ch].staged.foldl (fun t e => t.applyEff e.1 e.2) (s.modChan ch fun c => { c with staged := [] }) := by
  rw [State.curtain_covers (covered := fun _ => true) fun w => (decide_eq_true (.inr h)).symm]
  simp only [Bool.not_true, List.filter_true, List.filter_false]

theorem State.curtain_parted (h : (s.wing (home s ch)).link ≠ .joined) :
    s.curtain ch = (s.chans[ch].staged.filter fun e => e.1 = home s ch).foldl (fun t e => t.applyEff e.1 e.2)
      (s.modChan ch fun c => { c with staged := c.staged.filter fun e => e.1 ≠ home s ch }) := by
  rw [State.curtain_covers (covered := fun w => decide (w = home s ch)) fun w => decide_eq_decide.2 (or_iff_left h).symm]
  simp only [ne_eq, decide_not]

end Covers

/-! ## An SA that becomes visible (R119, R372) -/

theorem State.installSa_sa (s : State) (w : Wing) (sai : Nat) (r : SaRec) (pn : Nat) :
    ∃ t a, (s.installSa w sai r pn).sa w sai = some { r := r, pn := pn, used := t, leaseAsk := a } := by
  simp only [State.sa, State.installSa, State.modWing_wing, tget_tput_self]
  exact ⟨_, _, rfl⟩

theorem State.replaceSa_new {s : State} {w : Wing} {sai : Nat} (h : s.sa w sai = none) (r : SaRec) (pn : Nat) :
    s.replaceSa w sai r pn = s.installSa w sai r pn := by
  rw [State.replaceSa, h]

/-- Over another install the later prevails as a whole, but that a close which goes on does so. -/
theorem State.replaceSa_sa {s : State} {w : Wing} {sai : Nat} {x : Sa} (h : s.sa w sai = some x) (r : SaRec) (pn : Nat) :
    ∃ y, (s.replaceSa w sai r pn).sa w sai = some y ∧ y.r = r ∧ y.pn = pn
      ∧ y.st = if x.st = .closing then .closing else .active := by
  obtain ⟨t, a, hnew⟩ := s.installSa_sa w sai r pn
  rw [State.replaceSa, h]
  dsimp only
  rw [State.modSa_sa, hnew]
  refine ⟨_, rfl, ?_⟩
  split <;> exact ⟨rfl, rfl, rfl⟩

/-- Settles O6: a curtain by the link of its serving wing, a plain setting by what it writes, an install by the SA that stood there. -/
theorem curtainApplies : Obligations.CurtainApplies := by
  unfold Obligations.CurtainApplies
  refine ⟨fun s ch => ⟨State.curtain_joined, State.curtain_parted⟩, fun s w w' p m q n => ?_⟩
  exact ⟨fun _ => rfl, fun _ => rfl, fun _ => rfl, rfl, rfl, rfl, rfl, rfl, rfl, fun _ => rfl, fun _ => rfl,
    fun sai r h => State.replaceSa_new h r n, fun sai r x h => State.replaceSa_sa h r n⟩

end Sys2Proof.Machine
end

section
/-! Commands of repair (O30): wear reports and histories, the strike of a lane, handovers and joins. -/

namespace Sys2Proof.Machine

open Sys2Proof.Safety Sys2Proof.Laws

section Repair

variable {s : State} {ch : Fin 8} {p : Place} {w : Wing}

/-! ## What a command that runs once comes to -/

theorem runCmd_comesTo {o : OpSpec} {body : State → Ctx → Res} {r : Res} (h : Served s ch o p) (hw : o.wing = 0)
    (hb : body (took s ch) (ctx0 s ch p) = r) : s.runCmd ch o body = r.settle ch s.chans[ch].expect :=
  (runCmd_once body h hw).trans (congrArg _ hb)

theorem Res.reaching_of (hreach : s.reach (home s ch) w = true) (p : Place) (r : Res) :
    Res.reaching (took s ch) (ctx0 s ch p) w r = r := by
  refine if_pos ?_
  rw [took_reach]
  exact (congrArg (s.reach · w) (took_home s ch)).trans hreach

/-- The word by which WEAR_HISTORY and STRIKE name a unit, taken apart into its kind, its index and its wing. -/
theorem unitWord_fields {x kind ix k : Nat} (hx : x = kind + ix * 16 + k * 2 ^ 16) (hkind : kind < 2 ^ 4) (hix : ix < 2 ^ 12)
    (hk : k < 2) : x < 2 ^ 17 ∧ fld x 3 0 = kind ∧ fld x 15 4 = ix ∧ fld x 16 16 = k := by
  simp only [fld_eq]
  omega

/-! ## Wear (R349) -/

theorem took_wearWords (s : State) (ch : Fin 8) (kind ix : Nat) (w : Wing) :
    (took s ch).wearWords kind ix w = s.wearWords kind ix w := by
  simp only [State.wearWords, State.roleCode, took_wing]
  rfl

theorem execWearReport_answers {kind n : Nat} (h : Served s ch { op := 0x181, lenMin := 2, lenMax := 2, wing := 2 } p)
    (hw : p.wings { op := 0x181, lenMin := 2, lenMax := 2, wing := 2 } (home s ch) = [w]) (hkind : wordAt p.words 2 = kind)
    (hlt : kind < 10) (hn : n = min 7 (unitCount kind - wordAt p.words 3)) :
    Answers (exec (.wearReport ch) s) { took s ch with freeCtr := s.freeCtr + 2 ^ 14 } ch .ok
      (wd n :: (List.range n).flatMap fun i => s.wearWords kind (wordAt p.words 3 + i) w) := by
  subst hkind hn
  have hclean := ctxOf_clean (show wordAt p.words 2 < 2 ^ 4 by omega) ch [w] w
  refine answers_oneWing h hw ((Res.need_of (by rw [hclean, ctxOf_w, decide_eq_true hlt]; rfl) _ _).trans ?_)
  simp only [ctxOf_w, ctxOf_wing, took_wearWords]
  rfl

theorem wingOf_wingIx (w : Wing) : wingIx w < 2 ∧ wingOf (wingIx w) = w := by
  cases w <;> decide

theorem execWearHistory_answers {kind ix : Nat} (h : Served s ch { op := 0x182, lenMin := 1, lenMax := 1 } p)
    (hx : wordAt p.words 2 = kind + ix * 16 + wingIx w * 2 ^ 16) (hkind : kind < 9) (hcount : ix < unitCount kind) (hix : ix < 2 ^ 12)
    (hreach : s.reach (home s ch) w = true) :
    Answers (exec (.wearHistory ch) s) { took s ch with freeCtr := s.freeCtr + 64 } ch .ok
      (pairWords (s.wearHist (wordAt p.words 2))) := by
  obtain ⟨hbit, hwing⟩ := wingOf_wingIx w
  obtain ⟨hlt, hk, hi, hv⟩ := unitWord_fields hx (by omega) hix hbit
  refine answers_once h rfl ?_
  simp only [ctx0_w, hk, hi, hv, hwing]
  rw [Res.need_of (by rw [ctx0_clean hlt, decide_eq_true (by omega)]; rfl), if_neg (by omega), if_neg (by omega),
    Res.reaching_of hreach]
  rfl

/-! ## The strike of a lane (R355) -/

theorem took_laneSpare (s : State) (ch : Fin 8) (l : Fin 28) : (took s ch).laneSpare l = s.laneSpare l :=
  State.laneSpare_congr l rfl fun v => congrArg _ (took_wing s ch v)

theorem cmdLane_reached {l : Fin 28} (hreach : s.reach (home s ch) (laneWing l) = true) :
    (took s ch).cmdLane (ctx0 s ch p) l =
      if s.lanes[l].st = .struck then good (took s ch)
      else if s.laneSpare l then good ((took s ch).strikeLane l 3 0) else failed (took s ch) .noSpare := by
  rw [State.cmdLane, Res.reaching_of hreach, took_laneSpare]
  simp only [State.isStruck, bankUnit, decide_eq_true_eq]
  rfl

theorem execStrike_lane {l : Fin 28} (h : Served s ch { op := 0x183, lenMin := 1, lenMax := 1 } p) (hx : wordAt p.words 2 = l.val * 16) :
    exec (.strike ch) s =
      .next (State.settleHand (((took s ch).cmdLane (ctx0 s ch p) l).settle ch s.chans[ch].expect)) := by
  obtain ⟨hlt, hk, hi, -⟩ := unitWord_fields (x := wordAt p.words 2) (kind := 0) (ix := l.val) (k := 0) (by omega) (by decide)
    (by omega) (by decide)
  refine congrArg (fun t => Host.Outcome.next (State.settleHand t)) (runCmd_comesTo h rfl ?_)
  simp only [ctx0_w, hk, hi]
  rw [Res.need_of (ctx0_clean hlt), if_pos ⟨trivial, l.isLt⟩, Fin.ofNat_val_eq_self]

/-! ## Handovers (R358) -/

theorem took_handTo (s : State) (ch : Fin 8) (n : Nat) : (took s ch).handTo n = s.handTo n := by
  simp only [State.handTo, took_wing]

/-- The two checks of HANDOVER on the cores that it hands to (R358). -/
theorem handTo_able {n : Nat}
    (h : ∀ x ∈ s.handTo n, (s.core x).struck = false ∧ (s.core x).lost = false ∧ (s.core x).reloading = false) :
    ((s.handTo n).any fun x => decide ((s.core x).struck ∨ (s.core x).lost)) = false
      ∧ ((s.handTo n).any fun x => (s.core x).reloading) = false := by
  constructor
  · refine List.any_eq_false.2 fun x hx => ?_
    obtain ⟨hstruck, hlost, -⟩ := h x hx
    simp [hstruck, hlost]
  · refine List.any_eq_false.2 fun x hx => ?_
    obtain ⟨-, -, hload⟩ := h x hx
    simp [hload]

theorem execHandover_may {n : Nat} (h : Served s ch { op := 0x184, lenMin := 1, lenMax := 1 } p) (hx : wordAt p.words 2 = n)
    (hn : n < 3) (hj : s.joined = true)
    (hcores : ∀ x ∈ s.handTo n, (s.core x).struck = false ∧ (s.core x).lost = false ∧ (s.core x).reloading = false)
    (hstep : s.upd.step = 0) (hhand : s.upd.hand = none) :
    exec (.handover ch) s = .next (State.settleHand (Res.settle ch s.chans[ch].expect
      (if (took s ch).handIdle n then good (took s ch) else .wait ((took s ch).beginHand n) (.handover n)))) := by
  rw [← took_handTo s ch] at hcores
  obtain ⟨hstruck, hload⟩ := handTo_able (s := took s ch) hcores
  have hstay : ¬((took s ch).upd.step ≠ 0 ∨ ((took s ch).handTo n).any fun x => ((took s ch).core x).reloading) :=
    not_or.2 ⟨not_not_intro hstep, Bool.eq_false_iff.1 hload⟩
  have hjoined : (took s ch).joined = true := hj
  have hidle : (took s ch).upd.hand = none := hhand
  refine congrArg (fun t => Host.Outcome.next (State.settleHand t)) (runCmd_comesTo h rfl ?_)
  simp only [ctx0_w, hx]
  rw [Res.need_of (decide_eq_true hn), hjoined, hidle, if_neg (by decide), if_neg (Bool.eq_false_iff.1 hstruck),
    if_neg hstay, if_neg nofun, if_neg nofun]

/-! ## Joins (R340) -/

/-- JOIN, by what its body comes to; the wings join where nothing is waited for (R340). -/
theorem execJoin_of {r : Res} {u : State} (h : Served s ch { op := 0x187, lenMin := 0, lenMax := 0 } p)
    (hr : (if (took s ch).joined then good (took s ch)
      else if (took s ch).sl.link ≠ .rejoinReady ∨ (took s ch).sr.link ≠ .rejoinReady then failed (took s ch) .wingUnreachable
      else .wait (took s ch) (.join ((took s ch).chans[ch].head.elim 0 Place.at'))) = r)
    (hu : u = r.settle ch s.chans[ch].expect) : exec (.join ch) s = .next (if u.joinDue then u.joinNow else u) := by
  refine congrArg (fun u : State => Host.Outcome.next (if u.joinDue then u.joinNow else u)) ((runCmd_comesTo h rfl ?_).trans hu.symm)
  exact hr

theorem took_head (s : State) (ch : Fin 8) : (took s ch).chans[ch].head = s.chans[ch].head := by
  rw [took, State.modChan_self]
  rfl

theorem execJoin_waits {u : State} (h : Served s ch { op := 0x187, lenMin := 0, lenMax := 0 } p) (hsl : s.sl.link = .rejoinReady)
    (hsr : s.sr.link = .rejoinReady) (hu : u = (took s ch).modHead ch fun x => { x with phase := .running (.join p.at') }) :
    exec (.join ch) s = .next (if u.joinDue then u.joinNow else u) := by
  have hj : (took s ch).joined = false := decide_eq_false fun ⟨hjoined, _⟩ => nomatch hjoined.symm.trans hsl
  have hready : ¬((took s ch).sl.link ≠ .rejoinReady ∨ (took s ch).sr.link ≠ .rejoinReady) :=
    not_or.2 ⟨not_not_intro hsl, not_not_intro hsr⟩
  refine execJoin_of (r := .wait (took s ch) (.join p.at')) h ?_ hu
  obtain ⟨hhead, -⟩ := h
  rw [hj, if_neg (by decide), if_neg hready, took_head, hhead]
  rfl

end Repair

/-- Settles O30: the reads answer what they read; STRIKE by its lane, HANDOVER by whether anything moves, JOIN by the links. -/
theorem repairCommands : Obligations.RepairCommands := by
  unfold Obligations.RepairCommands
  intro s ch p w n
  refine ⟨fun kind => execWearReport_answers, fun kind ix => execWearHistory_answers, fun l h hx hreach => ?strike,
    fun h hx hn hj hcores hstep hhand => ?handover, fun h => ⟨fun u hj => execJoin_of h (if_pos hj), fun u => execJoin_waits h⟩⟩
  case strike =>
    rw [execStrike_lane h hx, cmdLane_reached hreach]
    refine ⟨fun hst hspare => ?_, fun hst => ?_, fun hst hspare => ?_⟩
    · rw [if_neg hst, if_pos hspare]
      rfl
    · rw [if_pos hst]
      rfl
    · rw [if_neg hst, if_neg (Bool.eq_false_iff.1 hspare)]
      rfl
  case handover =>
    rw [execHandover_may h hx hn hj hcores hstep hhand]
    refine ⟨fun hidle => ?_, fun hidle => ?_⟩
    · rw [if_neg (Bool.eq_false_iff.1 hidle)]
      rfl
    · rw [if_pos hidle]
      rfl

end Sys2Proof.Machine
end

section
/-! The queue of commands (O1). -/

namespace Sys2Proof.Machine

/-- Settles O1: the front of the queue decides which branch of a step is taken. -/
theorem stepRunsFront : Obligations.StepRunsFront := by
  intro c rest s h
  rw [step, h]

end Sys2Proof.Machine
end

section
/-! System commands (O2): bodies that run once or on each wing named, and the counts that STATS_READ finds. -/

namespace Sys2Proof.Machine

open Sys2Proof.Safety Sys2Proof.Laws

/-! ## INFO (R285, R374) -/

theorem State.infoWords_ready {s : State} (h : s.boot.phase = .ready) :
    s.infoWords = [wd (s.boot.scriptLevel + s.boot.stambe * 2 ^ 16)] ++ bytesToWords didBytes
      ++ [wd s.vlt.ctx, wd (s.sl.link.code + s.sr.link.code * 4)] := by
  rw [State.infoWords, if_pos h]

theorem State.infoWords_rom {s : State} (h : s.boot.phase = .rom) :
    s.infoWords = [wd (3 * 2 ^ 16)] ++ bytesToWords didBytes ++ [wd s.vlt.ctx, wd (s.sl.link.code + s.sr.link.code * 4)] := by
  rw [State.infoWords, if_neg (by rw [h]; decide)]
  simp only [Nat.zero_add]

/-! ## STATS_READ (R375) -/

section Stats

variable {s : State} {n : Nat} {w : Wing}

theorem State.stats_port (h : n < 64) : s.stats w 0 n = some (portWing ⟨n, h⟩, countWords s.ports[(⟨n, h⟩ : Fin 64)].cnt) := dif_pos h

theorem State.stats_noPort (h : 64 ≤ n) : s.stats w 0 n = none := dif_neg (by omega)

theorem State.stats_sa {x : Sa} (h : s.sa w n = some x) : s.stats w 1 n = some (w, countWords x.cnt) := by
  simp only [State.stats, State.saWing, h, Option.isSome_some, if_true, Option.map_some]

theorem State.stats_region (h : n < 64) (hst : s.regions[(⟨n, h⟩ : Fin 64)].st ≠ .notInstalled) :
    s.stats w 3 n = some (s.regions[(⟨n, h⟩ : Fin 64)].d.owner, countWords s.regions[(⟨n, h⟩ : Fin 64)].cnt) :=
  (dif_pos h).trans (if_neg hst)

theorem State.stats_rqp (h : n < 4) : s.stats w 4 n = some (rqpWing ⟨n, h⟩, countWords s.rqps[(⟨n, h⟩ : Fin 4)].cnt) := dif_pos h

theorem State.stats_wing (h : n < 2) : s.stats w 5 n = some (wingOf n, countWords (s.wing (wingOf n)).cnt) := if_pos h

theorem took_stats (s : State) (ch : Fin 8) (w : Wing) (kind n : Nat) : (took s ch).stats w kind n = s.stats w kind n := by
  simp only [State.stats, State.saWing, State.sa, took_wing]
  rfl

/-- What STATS_READ comes to by the counts found: NOT_FOUND where there are none. -/
def State.answerStats (s : State) (c : Ctx) : Option (Wing × List Word) → Res
  | some (w, ws) => Res.reaching s c w (.done s .ok ws)
  | none => failed s .notFound

theorem execStatsRead_served {ch : Fin 8} {p : Place} {kind : Nat} (h : Served s ch { op := 0x008, lenMin := 2, lenMax := 2 } p)
    (hn : wordAt p.words 3 = n) (hkind : wordAt p.words 2 = kind) (hk : kind ≤ 5) :
    exec (.statsRead ch) s = .next (Res.settle ch s.chans[ch].expect
      ((took s ch).answerStats (ctx0 s ch p) (s.stats (home s ch) kind n))) := by
  have hclean : (ctx0 s ch p).clean 2 3 = true := ctx0_clean (by omega)
  refine congrArg Host.Outcome.next (runCmd_comesTo h rfl ?_)
  simp only [ctx0_w, ctx0_ch, hn, hkind, took_home, took_stats]
  exact Res.need_of (by rw [hclean, decide_eq_true hk]; rfl) _ _

/-- STATS_READ answers the counts of a wing that is reached. -/
theorem execStatsRead_answers {ch : Fin 8} {p : Place} {kind : Nat} {ws : List Word}
    (h : Served s ch { op := 0x008, lenMin := 2, lenMax := 2 } p) (hn : wordAt p.words 3 = n) (hkind : wordAt p.words 2 = kind)
    (hk : kind ≤ 5) (hstats : s.stats (home s ch) kind n = some (w, ws)) (hreach : s.reach (home s ch) w = true) :
    Answers (exec (.statsRead ch) s) (took s ch) ch .ok ws := by
  rw [execStatsRead_served h hn hkind hk, hstats]
  exact congrArg (fun r => Host.Outcome.next (Res.settle ch s.chans[ch].expect r)) (Res.reaching_of hreach p _)

end Stats

/-- A wing reaches itself. -/
theorem State.reach_self (s : State) (w : Wing) : s.reach w w = true := by
  simp [State.reach]

/-- Settles O2: each command's body on the wings that it names; STATS_READ by the counts that its words name. -/
theorem systemCommands : Obligations.SystemCommands := by
  unfold Obligations.SystemCommands
  refine ⟨fun s ch p => ⟨?nop, ?curtain, ?info, ?infoRom, ?echo⟩, fun s ch p => ⟨?route, ?mark⟩, fun s ch p n h hn => ?stats⟩
  case nop => exact fun h => answers_once h rfl rfl
  case curtain => exact fun h => answers_once h rfl rfl
  case info => exact fun h hready => answers_once h rfl (congrArg (Res.done _ .ok) (State.infoWords_ready (s := took s ch) hready))
  case infoRom => exact fun h hrom => answers_once h rfl (congrArg (Res.done _ .ok) (State.infoWords_rom (s := took s ch) hrom))
  case echo => exact fun h => answers_once h rfl rfl
  case route =>
    rintro _ rfl h hx
    exact congrArg Host.Outcome.next (runCmd_wings _ h (by decide) _ fun t w => Res.need_of (ctxOf_clean hx ch _ w) _ _)
  case mark =>
    rintro _ rfl h
    exact congrArg Host.Outcome.next (runCmd_wings _ h (by decide) _ fun t w => rfl)
  case stats =>
    refine ⟨fun hlt hk hr => ?_, fun x hk hx => ?_, fun hlt hk hst hr => ?_, fun hlt hk hr => ?_, fun hlt hk hr => ?_, fun hk hge => ?_⟩
    · exact execStatsRead_answers h hn hk (by decide) (State.stats_port hlt) hr
    · exact execStatsRead_answers h hn hk (by decide) (State.stats_sa hx) (State.reach_self s _)
    · exact execStatsRead_answers h hn hk (by decide) (State.stats_region hlt hst) hr
    · exact execStatsRead_answers h hn hk (by decide) (State.stats_rqp hlt) hr
    · exact execStatsRead_answers h hn hk (by decide) (State.stats_wing hlt) hr
    · rw [execStatsRead_served h hn hk (by decide), State.stats_noPort hge]
      rfl

end Sys2Proof.Machine
end

section
/-! Ownership, locking and mapping of channels (O3): a walk over the eight channels changes each by itself. -/

namespace Sys2Proof.Machine

open Sys2Proof.Safety Sys2Proof.Laws

/-! ## A walk over the channels -/

/-- A walk that changes one channel at each step, each by its own function, changes each channel that it meets once. -/
theorem foldl_chans {s : State} {E : State → Fin 8 → State} {F : Fin 8 → Chan → Chan}
    (hE : ∀ cs n, E { s with chans := cs } n = { s with chans := cs.set n (F n cs[n]) }) {l : List (Fin 8)} (hl : l.Nodup)
    (cs : Vector Chan 8) :
    ∃ ds, l.foldl E { s with chans := cs } = { s with chans := ds } ∧ ∀ n : Fin 8, ds[n] = if n ∈ l then F n cs[n] else cs[n] := by
  induction l generalizing cs with
  | nil => exact ⟨cs, rfl, fun n => rfl⟩
  | cons m l ih =>
    obtain ⟨hm, hl⟩ := List.nodup_cons.1 hl
    obtain ⟨ds, hds, hget⟩ := ih hl (cs.set m (F m cs[m]))
    refine ⟨ds, by rw [List.foldl_cons, hE, hds], fun n => ?_⟩
    rw [hget]
    by_cases hn : n = m
    · subst hn
      simp [hm]
    · have hne : m.val ≠ n.val := fun h => hn (Fin.ext h.symm)
      simp [hn, hne]

/-- A command that walks over all channels answers with each channel changed by its own function. -/
theorem answers_walk {s : State} {ch : Fin 8} {E : State → Fin 8 → State} {F : Fin 8 → Chan → Chan} {o : Host.Outcome State Fault Refusal}
    (hE : ∀ cs n, E { took s ch with chans := cs } n = { took s ch with chans := cs.set n (F n cs[n]) })
    (ho : Answers o ((List.finRange 8).foldl E (took s ch)) ch .ok []) :
    ∃ t, Answers o t ch .ok [] ∧ t = { took s ch with chans := t.chans } ∧ ∀ n : Fin 8, t.chans[n] = F n (took s ch).chans[n] := by
  obtain ⟨ds, hds, hget⟩ := foldl_chans hE (List.nodup_finRange 8) (took s ch).chans
  refine ⟨_, ho, by rw [hds], fun n => ?_⟩
  rw [hds, hget, if_pos (List.mem_finRange n)]

/-! ## CHAN_OWN and CHAN_LOCK (R368) -/

section Mbx

variable {s : State} {ch : Fin 8} {p : Place}

theorem took_locked (s : State) (ch n : Fin 8) : (took s ch).chans[n].locked = s.chans[n].locked := by
  by_cases h : ch = n
  · rw [← h, took, State.modChan_self]
  · rw [took, State.modChan_ne s ch n _ h]

theorem execChanOwn_served (h : Served s 0 { op := 0x003, lenMin := 1, lenMax := 1 } p) (hx : wordAt p.words 2 < 256) :
    exec (.chanOwn 0) s = .next (Res.settle 0 s.chans[(0 : Fin 8)].expect
      (if s.chans[Fin.ofNat 8 (fld (wordAt p.words 2) 2 0)].locked then failed (took s 0) .chanLocked
       else good ((took s 0).modHead 0 fun x =>
        { x with own := some (Fin.ofNat 8 (fld (wordAt p.words 2) 2 0), fld (wordAt p.words 2) 6 3,
                              bitOf (wordAt p.words 2) 7) }))) := by
  refine congrArg Host.Outcome.next (runCmd_comesTo h rfl ?_)
  refine (if_neg (not_not_intro rfl)).trans ((Res.need_of (ctx0_clean (n := 8) hx) _ _).trans ?_)
  simp only [ctx0_w, took_locked]
  rfl

/-- Locking a channel where `b` says so. -/
def Chan.lockIf (c : Chan) (b : Bool) : Chan := { c with locked := c.locked || b }

theorem Chan.lockIf_false (c : Chan) : c.lockIf false = c := by
  rw [Chan.lockIf, Bool.or_false]

theorem execChanLock_served (h : Served s 0 { op := 0x004, lenMin := 1, lenMax := 1 } p) (hx : wordAt p.words 2 < 256) :
    ∃ t, Answers (exec (.chanLock 0) s) t 0 .ok [] ∧ t = { took s 0 with chans := t.chans }
      ∧ ∀ n : Fin 8, t.chans[n] = (took s 0).chans[n].lockIf (bitOf (wordAt p.words 2) n.val) := by
  refine answers_walk (F := fun n c => c.lockIf (bitOf (wordAt p.words 2) n.val)) (fun cs n => ?_)
    (answers_once h rfl ((if_neg (not_not_intro rfl)).trans (Res.need_of (ctx0_clean (n := 8) hx) _ _)))
  cases hb : bitOf (wordAt p.words 2) n.val with
  | true => simp [ctx0_w, hb, State.modChan, Chan.lockIf]
  | false => simp [ctx0_w, hb, Chan.lockIf_false]

/-! ## CHAN_MAP (R328) -/

/-- A channel as CHAN_MAP leaves it, for a wing that a core serves. -/
def Chan.remapped (c : Chan) (w : Wing) (core : CoreId) : Chan :=
  if c.mapWing = w then { c with mapNext := none }
  else if c.head.isNone then { c with mapWing := w, served := core, mapNext := none }
  else { c with mapNext := some w }

theorem State.remap_eq (s : State) (n : Fin 8) (w : Wing) :
    s.remap n w = s.modChan n fun c => c.remapped w (s.wing w).served := rfl

/-- The wing that a bit of a CHAN_MAP word names. -/
def mapBit (x : Nat) (n : Fin 8) : Wing := if bitOf x n.val then .sr else .sl

theorem execChanMap_joined (h : Served s ch { op := 0x005, lenMin := 1, lenMax := 1 } p) (hx : wordAt p.words 2 < 256)
    (hsl : s.sl.link = .joined) (hsr : s.sr.link = .joined) :
    ∃ t, Answers (exec (.chanMap ch) s) t ch .ok [] ∧ t = { took s ch with chans := t.chans }
      ∧ ∀ n : Fin 8, t.chans[n] = (took s ch).chans[n].remapped (mapBit (wordAt p.words 2) n)
          (s.wing (mapBit (wordAt p.words 2) n)).served := by
  have hjoined : ¬((took s ch).sl.link ≠ .joined ∨ (took s ch).sr.link ≠ .joined) :=
    not_or.2 ⟨not_not_intro hsl, not_not_intro hsr⟩
  have hall : Answers (exec (.chanMap ch) s)
      ((List.finRange 8).foldl (fun t n => t.remap n (mapBit (wordAt p.words 2) n)) (took s ch)) ch .ok [] :=
    answers_once h rfl ((Res.need_of (ctx0_clean (n := 8) hx) _ _).trans (if_neg hjoined))
  refine answers_walk (F := fun n c => c.remapped (mapBit (wordAt p.words 2) n) (s.wing (mapBit (wordAt p.words 2) n)).served)
    (fun cs n => ?_) hall
  rw [State.remap_eq, State.withChans_wing, took_wing]
  rfl

theorem execChanMap_parted (h : Served s ch { op := 0x005, lenMin := 1, lenMax := 1 } p) (hx : wordAt p.words 2 < 256)
    (hsl : s.sl.link ≠ .joined) : Answers (exec (.chanMap ch) s) (took s ch) ch .wingUnreachable [] :=
  answers_once h rfl ((Res.need_of (ctx0_clean (n := 8) hx) _ _).trans (if_pos (.inl hsl)))

end Mbx

/-- Settles O3: CHAN_OWN by the lock of the channel that it names, CHAN_LOCK and CHAN_MAP channel by channel. -/
theorem channels : Obligations.Channels := by
  unfold Obligations.Channels
  refine ⟨fun s ch p => ⟨fun h hx hfree => ?own, fun h hx hlocked => ?locked, execChanLock_served,
    fun hne h => answers_once h rfl (if_pos hne), fun hne h => answers_once h rfl (if_pos hne)⟩,
    fun s ch p h hx => ⟨execChanMap_joined h hx, execChanMap_parted h hx⟩⟩
  case own =>
    rw [execChanOwn_served h hx, if_neg (Bool.eq_false_iff.1 hfree)]
    rfl
  case locked =>
    rw [execChanOwn_served h hx, if_pos hlocked]
    rfl

end Sys2Proof.Machine
end

section
/-! Staged settings (O4): those of a port, whose wing is reached, and those of each wing named. -/

namespace Sys2Proof.Machine

open Sys2Proof.Safety Sys2Proof.Laws

section Staged

variable {s : State} {ch : Fin 8} {pl : Place} {p : Fin 64} {w : Wing} {e : Eff}

/-- A command whose operands are in order stages its effect for a wing that it reaches. -/
theorem answers_stagesUnit {o : OpSpec} {body : State → Ctx → Res} {ok : Bool} (h : Served s ch o pl) (ho : o.wing = 0)
    (hok : ok = true) (hr : s.reach (home s ch) w = true)
    (hb : body (took s ch) (ctx0 s ch pl) = Res.need ok (took s ch)
      (Res.reaching (took s ch) (ctx0 s ch pl) w (good (staging (took s ch) ch w e)))) :
    Answers (.next (s.runCmd ch o body)) (staging (took s ch) ch w e) ch .ok [] :=
  answers_once h ho (hb.trans ((Res.need_of hok _ _).trans (Res.reaching_of hr pl _)))

/-- The operands of a port's setting: its number and a structure in order. -/
theorem portWords_ok (hp : wordAt pl.words 2 = p.val) {ok : Bool} (hok : ok = true) : ((ctx0 s ch pl).clean 2 6 && ok) = true := by
  rw [ctx0_clean (by rw [hp]; exact p.isLt), hok]
  rfl

end Staged

/-- Settles O4: each command's operands pass its check, and its body stages what they hold. -/
theorem stagedSettings : Obligations.StagedSettings := by
  unfold Obligations.StagedSettings
  refine ⟨fun s ch pl p m => ⟨fun hp hr => ⟨?cls, ?sp, ?ptp⟩, ?mp⟩, fun s ch p o => ⟨?close, ?mesh, ?ttl, ?grq, ?classes, ?prm, ?wear⟩⟩
  case cls =>
    exact fun h hok => answers_stagesUnit h rfl (portWords_ok hp hok) hr (by simp only [ctx0_port hp]; rfl)
  case sp =>
    exact fun h hok => answers_stagesUnit h rfl (portWords_ok hp hok) hr (by simp only [ctx0_port hp]; rfl)
  case ptp =>
    exact fun h hok => answers_stagesUnit h rfl (portWords_ok hp hok) hr (by simp only [ctx0_port hp]; rfl)
  case mp =>
    intro hm hr h hlow hhigh
    have hok : ((ctx0 s ch pl).clean 2 2 && decide (1 ≤ wordAt pl.words 3 ∧ wordAt pl.words 3 ≤ 1000)) = true := by
      rw [ctx0_clean (by rw [hm]; exact m.isLt), decide_eq_true ⟨hlow, hhigh⟩]
      rfl
    exact answers_stagesUnit h rfl hok hr (by simp only [ctx0_rqp hm]; rfl)
  case close =>
    rintro rfl h hk hlow hhigh
    refine answersSel_stages h rfl (by decide) fun cs w _ => Res.need_of ?_ _ _
    rw [ctxOf_clean (by omega), ctxOf_w, decide_eq_true ⟨hlow, hhigh⟩]
    rfl
  case mesh =>
    rintro rfl h hx
    exact answersSel_stages h rfl (by decide) fun cs w _ => Res.need_of (ctxOf_clean hx ch _ w) _ _
  case ttl =>
    rintro rfl h hlow hhigh
    exact answersSel_stages h rfl (by decide) fun cs w _ => Res.need_of (decide_eq_true ⟨hlow, hhigh⟩) _ _
  case grq =>
    rintro rfl h hq hlow hhigh
    exact answersSel_stages h rfl (by decide) fun cs w _ => Res.need_of (decide_eq_true ⟨hq, hlow, hhigh⟩) _ _
  case classes =>
    rintro rfl h hok
    exact answersSel_stages h rfl (by decide) fun cs w _ => if_pos hok
  case prm =>
    rintro rfl h hok
    exact answersSel_stages h rfl (by decide) fun cs w _ => Res.need_of hok _ _
  case wear =>
    rintro rfl h hok hlc
    refine answersSel_stages h rfl (by decide) fun cs w _ => ?_
    exact (if_neg (by simp [hok])).trans (if_neg fun hheld => hlc hheld.1)

end Sys2Proof.Machine
end

section
/-! Closes (O54): a closing unit reports CLOSED by its work, and is closed by force by its timeout. -/

namespace Sys2Proof.Machine

open Sys2Proof.Safety

section Closing

variable {s : State}

theorem execUnitClosed_running (hr : s.running = true) (u : UnitId) : exec (.unitClosed u) s = .next (s.unitCloses u) :=
  congrArg Host.Outcome.next (if_pos hr)

theorem execForcedClose_running (hr : s.running = true) (u : UnitId) : exec (.forcedClose u) s = .next (s.forceUnit u) :=
  congrArg Host.Outcome.next (if_pos hr)

/-- What is done at a deadline is done from that moment on, and not before. -/
theorem next_byDeadline {t : State} {n m : Nat} : ∀ d, d = n →
    (m < d → (Host.Outcome.next (if n ≤ m then t else s) : Host.Outcome State Fault Refusal) = .next s)
    ∧ (d ≤ m → (Host.Outcome.next (if n ≤ m then t else s) : Host.Outcome State Fault Refusal) = .next t) := by
  rintro _ rfl
  exact ⟨fun hlt => congrArg Host.Outcome.next (if_neg (by omega)), fun hle => congrArg Host.Outcome.next (if_pos hle)⟩

/-! ## Stream ports -/

section Port

variable {p : Fin 64}

theorem State.unitCloses_port (hst : s.ports[p].st = .closing) : s.unitCloses (.port p)
    = if s.ports[p].staging = [] ∧ s.ports[p].inbound = [] ∧ s.ports[p].readmit = [] then
        (s.modPort p fun x => { x with lsOut := x.lsOut.map fun o => { o with done := true } }).endPortClose p false
      else s := by
  simp only [State.unitCloses, hst, true_and, List.isEmpty_iff]

theorem State.endPortClose_done (s : State) (p : Fin 64) :
    (s.modPort p fun x => { x with lsOut := x.lsOut.map fun o => { o with done := true } }).endPortClose p false
      = ((s.modPort p fun x => { x with st := .closed, forced := false, lsOut := x.lsOut.map fun o => { o with done := true } }).log
          (portWing p) .unitClosed 0 0 p.val 0).answerWaiters (.port p) .ok [] := by
  rw [State.endPortClose, State.modPort_modPort]
  rfl

theorem State.forcePort_open (h : s.ports[p].st = .closing) : s.forcePort p = (s.dropPortWork p).endPortClose p true :=
  if_neg (by rw [h]; decide)

theorem State.forceUnit_port (hst : s.ports[p].st = .closing) : s.forceUnit (.port p)
    = if s.ports[p].closeAt + (s.wing (portWing p)).saTimeout * 1000 ≤ s.rt then (s.dropPortWork p).endPortClose p true else s := by
  simp only [State.forceUnit, hst, true_and, decide_eq_true_eq, State.forcePort_open hst]

end Port

/-! ## Request ports -/

section Rqp

variable {q : Fin 4}

theorem RqPort.idle_iff (x : RqPort) : x.idle = true ↔ (∀ a ∈ x.accs, a.own ≠ none) ∧ x.dq.length ≤ 1 := by
  simp only [RqPort.idle, Bool.and_eq_true, List.all_eq_true, decide_eq_true_eq, Option.isSome_iff_ne_none]

theorem RqPort.not_idle {x : RqPort} (h : (∃ a ∈ x.accs, a.own = none) ∨ 1 < x.dq.length) : ¬x.idle = true := by
  rw [RqPort.idle_iff]
  rintro ⟨hown, hdq⟩
  rcases h with ⟨a, ha, hnone⟩ | hlong
  · exact hown a ha hnone
  · omega

theorem State.unitCloses_rqp (hst : s.rqps[q].st = .closing) :
    s.unitCloses (.rqp q) = if s.rqps[q].idle then s.endRqpClose q false else s := by
  simp only [State.unitCloses, hst, true_and]

theorem State.forceUnit_rqp (hst : s.rqps[q].st = .closing) : s.forceUnit (.rqp q)
    = if s.rqps[q].closeAt + (s.wing (rqpWing q)).regTimeout * 1000 ≤ s.rt then
        ((s.rqps[q].accs.filter fun a => a.own.isNone).foldl (fun s a => s.endAcc q a 7) s).endRqpClose q true else s := by
  have hforce : s.forceRqp q = ((s.rqps[q].accs.filter fun a => a.own.isNone).foldl (fun s a => s.endAcc q a 7) s).endRqpClose q true :=
    if_neg (by rw [hst]; decide)
  simp only [State.forceUnit, hst, true_and, decide_eq_true_eq, hforce]

end Rqp

/-! ## Regions and SAs -/

section Region

variable {r : Fin 64}

theorem State.unitCloses_region_done (hst : s.regions[r].st = .closing) (hb : s.regionBusy r = false) (hu : s.unflushed r = false)
    (hi : s.initOut r = false) : s.unitCloses (.region r) = s.endRegionClose r false :=
  if_pos ⟨hst, by rw [State.regionDone, hb, hu, hi]; rfl⟩

theorem State.unitCloses_region_busy (hb : s.regionBusy r = true) : s.unitCloses (.region r) = s :=
  if_neg fun hdone => by simp [State.regionDone, hb] at hdone

theorem State.forceUnit_region (hst : s.regions[r].st = .closing) : s.forceUnit (.region r)
    = if s.regions[r].closeAt + (s.wing s.regions[r].d.owner).regTimeout * 1000 ≤ s.rt then s.forceRegion r else s := by
  simp only [State.forceUnit, hst, if_true, decide_eq_true_eq]

end Region

theorem State.forceUnit_sa {w : Wing} {sai : Nat} {x : Sa} (hx : s.sa w sai = some x) (hst : x.st = .closing) :
    s.forceUnit (.sa w sai) = if x.closeAt + (s.wing w).saTimeout * 1000 ≤ s.rt then s.forceSa w sai else s := by
  simp only [State.forceUnit, hx, Option.any_some, hst, true_and, decide_eq_true_eq]

end Closing

/-- Settles O54: each unit's close by the work that it has left, and its forced close by whether its timeout has run out. -/
theorem closes : Obligations.Closes := by
  unfold Obligations.Closes
  intro s p q r hawake hready
  have hr := State.running_of_ready hawake hready
  refine ⟨fun hst => ?port, fun hst => ?rqp, ?region, ?sa⟩
  case port =>
    rw [execUnitClosed_running hr, State.unitCloses_port hst, execForcedClose_running hr, State.forceUnit_port hst]
    refine ⟨?_, fun hleft => congrArg Host.Outcome.next (if_neg (by tauto)), next_byDeadline⟩
    rintro hs hi ha _ rfl
    rw [if_pos ⟨hs, hi, ha⟩, State.endPortClose_done]
  case rqp =>
    rw [execUnitClosed_running hr, State.unitCloses_rqp hst, execForcedClose_running hr, State.forceUnit_rqp hst]
    exact ⟨fun ha hd => congrArg Host.Outcome.next (if_pos ((RqPort.idle_iff _).2 ⟨ha, hd⟩)),
      fun hleft => congrArg Host.Outcome.next (if_neg (RqPort.not_idle hleft)), next_byDeadline⟩
  case region =>
    rintro _ rfl hst
    rw [execUnitClosed_running hr, execForcedClose_running hr, State.forceUnit_region hst]
    refine ⟨?_, fun hb => by rw [State.unitCloses_region_busy hb], next_byDeadline⟩
    rintro hb hu hi _ _ rfl rfl
    rw [State.unitCloses_region_done hst hb hu hi]
    rfl
  case sa =>
    intro w sai x hx hst
    rw [execForcedClose_running hr, State.forceUnit_sa hx hst]
    exact next_byDeadline _ rfl

end Sys2Proof.Machine
end

section
/-! RHL_STATUS (O32): the record that it returns, by the state of the logger. -/

namespace Sys2Proof.Machine

open Sys2Proof.Safety

/-- The blocks that RHL_STATUS reports: those consumed in a replay and after it, else those of the log (R404). -/
def Rhl.reported (r : Rhl) : Nat :=
  match r.st with
  | .replaying => r.consumed
  | .replayDone => r.consumed
  | .replayDiverged => r.consumed
  | _ => r.count

theorem Rhl.reported_replay {r : Rhl} (h : r.st = .replaying ∨ r.st = .replayDone ∨ r.st = .replayDiverged) :
    r.reported = r.consumed := by
  rcases h with h | h | h <;> rw [Rhl.reported, h]

theorem Rhl.reported_log {r : Rhl} (hplay : r.st ≠ .replaying) (hdone : r.st ≠ .replayDone) (hdiv : r.st ≠ .replayDiverged) :
    r.reported = r.blocks.length := by
  rw [Rhl.reported]
  split
  · exact absurd ‹_› hplay
  · exact absurd ‹_› hdone
  · exact absurd ‹_› hdiv
  · rfl

theorem execRhlStatus_answers {s : State} {ch : Fin 8} {p : Place} {w : Wing}
    (h : Served s ch { op := 0x1A1, lenMin := 0, lenMax := 0, wing := 2 } p)
    (hw : p.wings { op := 0x1A1, lenMin := 0, lenMax := 0, wing := 2 } (home s ch) = [w]) {r : Rhl} (hr : r = (s.wing w).rhl) :
    Answers (exec (.rhlStatus ch) s) (took s ch) ch .ok
      ([wd (r.st.code + r.cause * 2 ^ 3 + b2n r.held * 2 ^ 11 + b2n r.targetReady * 2 ^ 12)] ++ toWords 2 r.logId
        ++ [wd r.reported, wd r.room, wd r.lastCheck]) := by
  subst hr
  refine answers_oneWing h hw ?_
  simp only [ctxOf_wing, took_wing]
  rfl

/-- Settles O32: the state by its code, the blocks by whether a replay is or was on, the capacity by whether the log is a RECORD
log. -/
theorem loggerStatus : Obligations.LoggerStatus := by
  unfold Obligations.LoggerStatus
  intro s ch p w r hr h hw
  refine ⟨_, _, _, execRhlStatus_answers h hw hr, ?_, ?_, ?_, ?_, ?_, ?_, ?_, ?_,
    Rhl.reported_replay, Rhl.reported_log, fun hc => if_neg (by rw [hc]; decide), fun hc => if_pos hc⟩
  all_goals exact fun hst => congrArg RhlState.code hst

end Sys2Proof.Machine
end

section
/-! Rehearsal (O33): export, replay and resume, the events of a log, and replayed records by their type. -/

namespace Sys2Proof.Machine

open Sys2Proof.Safety Sys2Proof.Laws

/-! ## RHL_EXPORT, RHL_REPLAY and RHL_RESUME (R403, R405, R407) -/

section Commands

variable {s : State} {ch : Fin 8} {p : Place} {w : Wing}

section Export

variable (h : Served s ch { op := 0x1A2, lenMin := 2, lenMax := 2, wing := 2 } p)
  (hw : p.wings { op := 0x1A2, lenMin := 2, lenMax := 2, wing := 2 } (home s ch) = [w])

include h hw

theorem execRhlExport_answers {off : Nat} (hoff : off = wordsNat (wordsAt p.words 2 2)) (hlc : s.vlt.lcCode = 5)
    (hheld : (s.wing w).rhl.held = true) (hst : (s.wing w).rhl.st = .off ∨ (s.wing w).rhl.st = .frozen)
    (htarget : off = 0 → (s.wing w).rhl.targetDid ≠ [] → (s.wing w).rhl.targetReady = true) :
    Answers (exec (.rhlExport ch) s) (took s ch) ch .ok
      (wd ((took s ch).rhlBytes w off 240).length :: bytesToWords ((took s ch).rhlBytes w off 240)) := by
  subst hoff
  have hstate : ¬((!(s.wing w).rhl.held) = true ∨ ((s.wing w).rhl.st ≠ .off ∧ (s.wing w).rhl.st ≠ .frozen)) := by
    simp only [hheld]
    tauto
  have hready : ¬(wordsNat (wordsAt p.words 2 2) = 0 ∧ (s.wing w).rhl.targetDid ≠ [] ∧ (!(s.wing w).rhl.targetReady) = true) :=
    fun ⟨h0, hd, hn⟩ => by simp [htarget h0 hd] at hn
  refine answers_oneWing h hw ?_
  simp only [ctxOf_wing, ctxOf_words, took_wing]
  exact (if_neg (not_not_intro hlc)).trans ((if_neg hstate).trans (if_neg hready))

theorem execRhlExport_refused (hlc : s.vlt.lcCode ≠ 5) : Answers (exec (.rhlExport ch) s) (took s ch) ch .lcRefused [] :=
  answers_oneWing h hw (if_pos hlc)

end Export

/-- The log key and the snapshot that an image of given bytes loads under it, where it fits a wing and its key is had (R407). -/
def State.imageLoads (s : State) (w : Wing) (b : Bytes) : Option (Bytes × Snap) :=
  (if s.imageFits w (padTo 256 b) then s.imageKey (padTo 256 b) else none).bind fun k => (Config.snapOf k b).map fun x => (k, x)

/-- The state in which a replay starts (R408): the logger as a replay of an image's log has it, once the wing has its snapshot. -/
def State.startReplay (s : State) (w : Wing) (b : Bytes) (e : Bytes × Snap) : State :=
  ((s.loadSnap w e.2).quietOutputs w).modRhl w fun r =>
    { r.lost with
        st := .replaying
        cause := 0
        logId := leNat (((padTo 256 b).drop 4).take 8)
        consumed := 0
        lastCheck := 0
        playKey := e.1
        playRt := 0
        standIns := [] }

theorem execRhlReplay_answers (h : Served s ch { op := 0x1A3, lenMin := 4, lenMax := 4 } p) {addr : Nat}
    (hwing : wordAt p.words 2 = wingIx w) (h4 : wordAt p.words 4 < 2 ^ 8) (haddr : addr = wordsNat (wordsAt p.words 3 2))
    (hpage : addr % 4096 = 0) (hin : s.inBypass w addr (wordAt p.words 5) = true) (hreach : s.reach (home s ch) w = true)
    (hlc : s.vlt.lcCode = 5 ∨ s.vlt.lcCode = 1) (hclosed : s.wingOpen w = false) (hidle : (s.wing w).rhl.busy = false) {b : Bytes}
    (hb : b = (Config.image s.freeCtr).take (wordAt p.words 5)) :
    Answers (exec (.rhlReplay ch) s)
      ((s.imageLoads w b).elim (took s ch).takeFree ((took s ch).takeFree.startReplay w b)) ch
      (if (s.imageLoads w b).isSome then .ok else .rhlState) [] := by
  subst haddr
  obtain ⟨hbit, hname⟩ := wingOf_wingIx w
  have hok : ((ctx0 s ch p).clean 2 1 && (ctx0 s ch p).clean 4 8 && decide (wordsNat (wordsAt p.words 3 2) % 4096 = 0)
      && s.inBypass w (wordsNat (wordsAt p.words 3 2)) (wordAt p.words 5)) = true := by
    rw [ctx0_clean (by omega), ctx0_clean h4, decide_eq_true hpage, hin]
    rfl
  have hlife : ¬(s.vlt.lcCode ≠ 5 ∧ s.vlt.lcCode ≠ 1) := by tauto
  have hfree : ¬(s.wingOpen w = true ∨ (s.wing w).rhl.busy = true) := by simp [hclosed, hidle]
  refine answers_once h rfl ?_
  simp only [ctx0_w, ctx0_words, hwing, hname, took_wing]
  refine (Res.need_of hok _ _).trans ((Res.reaching_of hreach p _).trans ((if_neg hlife).trans ((if_neg hfree).trans ?_)))
  have hfits (h : Bytes) : (took s ch).imageFits w h = s.imageFits w h := by simp only [State.imageFits, took_wing]; rfl
  have hkey (h : Bytes) : (took s ch).imageKey h = s.imageKey h := rfl
  have hfreeCtr : (took s ch).freeCtr = s.freeCtr := rfl
  simp only [hfits, hkey, hfreeCtr, ← hb]
  rw [State.imageLoads]
  generalize (if s.imageFits w (padTo 256 b) then s.imageKey (padTo 256 b) else none) = key
  cases key with
  | none => rfl
  | some k =>
    rw [Option.bind_some]
    dsimp only
    split
    · next hx =>
      rw [hx]
      rfl
    · next x hx =>
      rw [hx, Option.map_some, Option.elim_some, if_pos (Option.isSome_some)]
      rfl

section Resume

variable {o : OpSpec} (ho : o = { op := 0x1A4, lenMin := 0, lenMax := 0, wing := 1 }) (h : Served s ch o p)
  (hw : p.wings o (home s ch) = [w])

include ho h hw

theorem execRhlResume_starts (hst : (s.wing w).rhl.st = .frozen)
    (hrec : (s.wing w).rhl.cfg.record = true → (took s ch).recordOk w = true) (hdrbg : s.vlt.drbgOk = true) :
    Answers (exec (.rhlResume ch) s) ((took s ch).startRhl w (s.wing w).rhl.cfg) ch .ok [] := by
  subst ho
  have hmay : ¬((s.wing w).rhl.st ≠ .frozen ∨ ((s.wing w).rhl.cfg.record = true ∧ (!(took s ch).recordOk w) = true)) := by
    rintro (hne | ⟨hr, hno⟩)
    · exact hne hst
    · simp [hrec hr] at hno
  refine answers_oneWing h hw ?_
  simp only [ctxOf_wing, took_wing]
  exact (if_neg hmay).trans (if_neg (by show ¬(!s.vlt.drbgOk) = true; simp [hdrbg]))

theorem execRhlResume_refused (hst : (s.wing w).rhl.st ≠ .frozen) :
    Answers (exec (.rhlResume ch) s) (took s ch) ch .rhlState [] := by
  subst ho
  exact answers_oneWing h hw (if_pos (.inl (by rwa [took_wing])))

end Resume

end Commands

/-! ## The events of a log (R396, R401, R402) -/

section Log

variable {s : State} {w : Wing}

theorem execRhlSnapshotDone_goesOn (hst : (s.wing w).rhl.st = .snapshot) (hfull : (s.wing w).rhl.full = [])
    (hafter : (s.wing w).rhl.afterSnap = none) :
    exec (.rhlSnapshotDone w) s = .next (s.modRhl w fun r => { r with st := .record, afterSnap := none }) := by
  refine (if_neg (by simp [hst, hfull])).trans ?_
  rw [hafter]

theorem execRhlSnapshotDone_freezes {bits : Nat} (hst : (s.wing w).rhl.st = .snapshot) (hfull : (s.wing w).rhl.full = [])
    (hafter : (s.wing w).rhl.afterSnap = some bits) :
    exec (.rhlSnapshotDone w) s = .next ((s.modRhl w fun r => { r with st := .record, afterSnap := none }).rhlFreeze w 1 bits) := by
  refine (if_neg (by simp [hst, hfull])).trans ?_
  rw [hafter]

theorem execRhlSnapshotDone_waits (hfull : (s.wing w).rhl.full ≠ []) : exec (.rhlSnapshotDone w) s = .next s :=
  if_pos (.inr (by simpa using hfull))

/-- A block whose write to the spill has ended leaves the ring, or freezes the log, by how it ended. -/
theorem execRhlBlockSpill_ended {b : RBlock} {rest : List RBlock} {g : Fin 64} {st : Nat} {v : Bytes} (ok : Bool)
    (hfull : (s.wing w).rhl.full = b :: rest) (hst : (s.wing w).rhl.st = .record ∨ (s.wing w).rhl.st = .snapshot)
    (hroom : (s.wing w).rhl.spilled.length < (s.wing w).rhl.spillCap) (hg : s.spill = some g) {o : Wing} (ho : o = s.regions[g].d.owner)
    {u : OwnUse} (hu : u = .block w (s.wing w).rhl.spilled.length) (hgot : s.ownGot o u = some (st, v)) :
    exec (.rhlBlockSpill w ok) s = if st ≠ 0 then .next ((s.ownTaken o u).rhlFreeze w 4 0)
      else .next ((s.ownTaken o u).modRhl w fun r => { r with full := rest, spilled := r.spilled ++ [b] }) := by
  subst ho hu
  show execRhlBlockSpill w ok s = _
  have hlogs : ¬((s.wing w).rhl.st ≠ .record ∧ (s.wing w).rhl.st ≠ .snapshot) := by tauto
  simp only [execRhlBlockSpill, hfull, if_neg hlogs, if_neg (Nat.not_le.2 hroom), hg, hgot]

theorem execRhlPostBlocks_stops (hst : (s.wing w).rhl.st = .trace ∨ (s.wing w).rhl.st = .record)
    (hpost : (s.wing w).rhl.post = some 0) : exec (.rhlPostBlocks w) s = .next (s.rhlStop w 1 (s.wing w).rhl.postBits) :=
  congrArg Host.Outcome.next (if_pos ⟨hst, hpost⟩)

end Log

/-! ## Replayed records (R408, R409) -/

section Replay

variable {s : State} {w : Wing} {type dt : Nat} {clear sealed : Bytes}

/-- The state in which a replayed record acts: the RT of the replay has moved on (R408). -/
def State.replayed (s : State) (w : Wing) (type dt : Nat) (sealed : Bytes) : State :=
  s.modRhl w fun r => { r with playRt := if type = 1 then leNat sealed else r.playRt + dt }

theorem State.replayed_freeVal (s : State) (w : Wing) (type dt : Nat) (sealed : Bytes) :
    (s.replayed w type dt sealed).freeVal = s.freeVal := congrArg Config.freeValue (s.modWing_freeCtr w _)

theorem State.modRhl_congr {s : State} {w : Wing} {f g : Rhl → Rhl} (h : f (s.wing w).rhl = g (s.wing w).rhl) :
    s.modRhl w f = s.modRhl w g :=
  State.modWing_congr (congrArg (fun r => { s.wing w with rhl := r }) h)

/-- A change of a logger that turns on what the logger holds. -/
theorem State.modRhl_ite (s : State) (w : Wing) (c : Rhl → Prop) [DecidablePred c] (f g : Rhl → Rhl) :
    (s.modRhl w fun r => if c r then f r else g r) = if c (s.wing w).rhl then s.modRhl w f else s.modRhl w g := by
  split
  · next h => exact State.modRhl_congr (if_pos h)
  · next h => exact State.modRhl_congr (if_neg h)

theorem State.modRhl_same (s : State) (w : Wing) : (s.modRhl w fun r => r) = s := by
  cases w <;> rfl

/-- A state digest is compared with that of the wing (R409). -/
def State.digestCompared (s : State) (w : Wing) (clear sealed : Bytes) : State :=
  s.modRhl w fun r => if s.stateDigest w r.playKey = sealed.take 8 then { r with lastCheck := leNat (clear.take 4) }
    else { r with st := .replayDiverged, cause := 1 }

/-- A grant or an output is compared: a free value says whether it agrees (R409). -/
def State.valueCompared (s : State) (w : Wing) (n c : Nat) : State :=
  s.takeFree.modRhl w fun r => if n % 2 = 1 then r else { r with st := .replayDiverged, cause := c }

theorem State.digestCompared_eq (s : State) (w : Wing) (clear sealed : Bytes) : s.digestCompared w clear sealed =
    if s.stateDigest w (s.wing w).rhl.playKey = sealed.take 8 then s.modRhl w fun r => { r with lastCheck := leNat (clear.take 4) }
    else s.diverge w 1 := s.modRhl_ite w _ _ _

theorem State.valueCompared_eq (s : State) (w : Wing) (n c : Nat) :
    s.valueCompared w n c = if n % 2 = 1 then s.takeFree else s.takeFree.diverge w c := by
  rw [State.valueCompared, State.modRhl_ite _ w (fun _ => n % 2 = 1) fun r => r, State.modRhl_same]
  rfl

/-- What an input other than a compared one does before it acts: a VAULT record binds a key, a strike is made again (R408). -/
def State.inputPrepared (s : State) (w : Wing) (type : Nat) (clear sealed : Bytes) : State :=
  let s := if type = 0x0C then s.standIn w sealed else s
  if type = 0x0B ∧ (clear.getD 0 0).toNat = 1 then (unitOf (leNat (clear.drop 1))).elim s fun u => s.watchdog u 0 else s

/-- A replayed record by its type. -/
theorem State.replayRcd_eq (s : State) (w : Wing) (type dt : Nat) (clear sealed : Bytes) :
    s.replayRcd w type dt clear sealed =
      if type = 0x01 ∨ type = 0x10 ∨ type = 0x11 then s.replayed w type dt sealed
      else if type = 0x0F then (s.replayed w type dt sealed).digestCompared w clear sealed
      else if type = 0x0E then (s.replayed w type dt sealed).valueCompared w s.freeVal 2
      else if isOutput type clear then (s.replayed w type dt sealed).valueCompared w s.freeVal 3
      else ((s.replayed w type dt sealed).inputPrepared w type clear sealed).replayInput w type clear sealed := by
  simp only [State.digestCompared_eq, State.valueCompared_eq, ← State.replayed_freeVal s w type dt sealed]
  unfold State.replayRcd
  simp only [decide_eq_true_eq]
  rfl

theorem execRhlReplayRecord_rcd (hst : (s.wing w).rhl.st = .replaying) (type dt : Nat) (clear sealed : Bytes) :
    exec (.rhlReplayRecord w (.rcd type dt clear sealed)) s = .next (s.replayRcd w type dt clear sealed) :=
  if_neg (not_not_intro hst)

theorem execRhlReplayRecord_block (hst : (s.wing w).rhl.st = .replaying) (b : Bytes) :
    exec (.rhlReplayRecord w (.block b)) s = .next (s.modRhl w fun r =>
      if r.blockOk b then { r with consumed := r.consumed + 1 } else { r with st := .replayDiverged, cause := 4 }) := by
  rw [State.modRhl_ite s w fun r => r.blockOk b]
  exact if_neg (not_not_intro hst)

theorem execRhlReplayRecord_last (hst : (s.wing w).rhl.st = .replaying) :
    exec (.rhlReplayRecord w .last) s = .next (s.modRhl w fun r => { r with st := .replayDone }) := if_neg (not_not_intro hst)

theorem State.replayRcd_rt (h : type = 0x01 ∨ type = 0x10 ∨ type = 0x11) :
    s.replayRcd w type dt clear sealed = s.replayed w type dt sealed := by
  rw [State.replayRcd_eq, if_pos h]

theorem State.replayRcd_digest (h : type = 0x0F) : s.replayRcd w type dt clear sealed =
    (s.replayed w type dt sealed).digestCompared w clear sealed := by
  rw [State.replayRcd_eq, if_neg (by omega), if_pos h]

/-- The types of the records of outputs (R398). -/
theorem type_of_isOutput (h : isOutput type clear = true) : type ∈ [0x02, 0x03, 0x06, 0x07, 0x0A] := by
  by_contra hno
  simp only [List.mem_cons, List.not_mem_nil, not_or, or_false] at hno
  obtain ⟨h2, h3, h6, h7, hA⟩ := hno
  simp [isOutput, h2, h3, h6, h7, hA] at h

theorem State.replayRcd_compared {c : Nat} (h : type = 0x0E ∧ c = 2 ∨ isOutput type clear = true ∧ c = 3) :
    s.replayRcd w type dt clear sealed = (s.replayed w type dt sealed).valueCompared w s.freeVal c := by
  rw [State.replayRcd_eq]
  obtain ⟨h, rfl⟩ | ⟨h, rfl⟩ := h
  · rw [if_neg (by omega), if_neg (by omega), if_pos h]
  · have htype := type_of_isOutput h
    simp only [List.mem_cons, List.not_mem_nil, or_false] at htype
    rw [if_neg (by omega), if_neg (by omega), if_neg (by omega), if_pos h]

/-- The types of the records of inputs (R398). -/
def inputTypes : List Nat := [0x02, 0x03, 0x04, 0x05, 0x06, 0x07, 0x08, 0x09, 0x0A, 0x0B, 0x0C, 0x0D]

theorem State.replayRcd_input (h : type ∈ inputTypes) (hin : isOutput type clear = false) : s.replayRcd w type dt clear sealed =
    ((s.replayed w type dt sealed).inputPrepared w type clear sealed).replayInput w type clear sealed := by
  simp only [inputTypes, List.mem_cons, List.not_mem_nil, or_false] at h
  rw [State.replayRcd_eq, if_neg (by omega), if_neg (by omega), if_neg (by omega), if_neg (Bool.eq_false_iff.1 hin)]

theorem State.inputPrepared_vault (s : State) (w : Wing) (clear sealed : Bytes) :
    s.inputPrepared w 0x0C clear sealed = s.standIn w sealed := rfl

theorem State.inputPrepared_strike {u : UnitId} (h1 : (clear.getD 0 0).toNat = 1) (hu : unitOf (leNat (clear.drop 1)) = some u) :
    s.inputPrepared w 0x0B clear sealed = s.watchdog u 0 := by
  rw [State.inputPrepared, if_pos ⟨rfl, h1⟩, hu]
  rfl

theorem State.inputPrepared_fault (h : (clear.getD 0 0).toNat ≠ 1 ∨ unitOf (leNat (clear.drop 1)) = none) :
    s.inputPrepared w 0x0B clear sealed = s := by
  by_cases h1 : (clear.getD 0 0).toNat = 1
  · refine (if_pos ⟨rfl, h1⟩).trans ?_
    rw [h.resolve_left (not_not_intro h1)]
    rfl
  · exact if_neg fun hstrike => h1 hstrike.2

theorem State.inputPrepared_other (hC : type ≠ 0x0C) (hB : type ≠ 0x0B) : s.inputPrepared w type clear sealed = s := by
  rw [State.inputPrepared, if_neg hC, if_neg fun hstrike => hB hstrike.1]

end Replay

section Frame

/-- What a replayed input leaves: all but the wing's replayable state, its counts and Call Board, its regions and its lanes. -/
structure ReplayFrame (w : Wing) (s t : State) : Prop where
  other : t.wing (otherWing w) = s.wing (otherWing w)
  rhl : (t.wing w).rhl = (s.wing w).rhl
  link : (t.wing w).link = (s.wing w).link
  regions : ∀ q : Fin 64, s.regions[q].st ≠ .notInstalled → s.regions[q].d.owner ≠ w → t.regions[q] = s.regions[q]
  lanes : ∀ l : Fin 28, laneWing l ≠ w → t.lanes[l] = s.lanes[l]
  rest : t = { s with sl := t.sl, sr := t.sr, regions := t.regions, lanes := t.lanes, freeCtr := t.freeCtr }

variable {w : Wing} {s t u : State}

theorem ReplayFrame.refl (w : Wing) (s : State) : ReplayFrame w s s :=
  ⟨rfl, rfl, rfl, fun _ _ _ => rfl, fun _ _ => rfl, rfl⟩

theorem ReplayFrame.trans (h : ReplayFrame w s t) (k : ReplayFrame w t u) : ReplayFrame w s u where
  other := k.other.trans h.other
  rhl := k.rhl.trans h.rhl
  link := k.link.trans h.link
  regions q hst hown := by
    have hq := h.regions q hst hown
    exact (k.regions q (by rwa [hq]) (by rwa [hq])).trans hq
  lanes l hl := (k.lanes l hl).trans (h.lanes l hl)
  rest := by
    have hk := k.rest
    rw [h.rest] at hk
    exact hk

theorem State.modWing_replayFrame (s : State) (w : Wing) {f : WingSt → WingSt} (hr : ∀ x, (f x).rhl = x.rhl)
    (hl : ∀ x, (f x).link = x.link) : ReplayFrame w s (s.modWing w f) where
  other := s.modWing_wing_other w f
  rhl := by rw [State.modWing_wing, hr]
  link := by rw [State.modWing_wing, hl]
  regions q _ _ := by rw [State.modWing_regions]
  lanes l _ := by rw [State.modWing_lanes]
  rest := by cases w <;> rfl

theorem State.withUnits_replayFrame (s : State) (w : Wing) (rs : Vector Region 64) (ls : Vector LaneRec 28)
    (hr : ∀ q : Fin 64, s.regions[q].st ≠ .notInstalled → s.regions[q].d.owner ≠ w → rs[q] = s.regions[q])
    (hl : ∀ l : Fin 28, laneWing l ≠ w → ls[l] = s.lanes[l]) : ReplayFrame w s { s with regions := rs, lanes := ls } :=
  ⟨by cases w <;> rfl, by cases w <;> rfl, by cases w <;> rfl, hr, hl, rfl⟩

theorem State.loadSnap_replayFrame (s : State) (w : Wing) (x : Snap) : ReplayFrame w s (s.loadSnap w x) := by
  unfold State.loadSnap
  refine (s.withUnits_replayFrame w _ _ (fun q hst hown => ?_) fun l hl => ?_).trans (State.modWing_replayFrame _ w ?_ ?_)
  · exact (Vector.getElem_ofFn _).trans (if_pos ⟨hst, hown⟩)
  · exact (Vector.getElem_ofFn _).trans (if_neg hl)
  · exact fun _ => rfl
  · exact fun _ => rfl

theorem State.takeFree_replayFrame (s : State) (w : Wing) : ReplayFrame w s s.takeFree :=
  ⟨by cases w <;> rfl, by cases w <;> rfl, by cases w <;> rfl, fun _ _ _ => rfl, fun _ _ => rfl, rfl⟩

theorem State.log_replayFrame (s : State) (w : Wing) (e : Ev) (a b c d : Nat) : ReplayFrame w s (s.log w e a b c d) :=
  s.modWing_replayFrame w (f := fun x => { x with cbd := x.cbd.push (evWords w e a b c d (s.now w)) }) (fun _ => rfl) fun _ => rfl

theorem ReplayFrame.foldl {β : Type} {f : State → β → State} (h : ∀ s e, ReplayFrame w s (f s e)) (l : List β) (s : State) :
    ReplayFrame w s (l.foldl f s) := by
  induction l generalizing s with
  | nil => exact .refl w s
  | cons e l ih => exact (h s e).trans (ih _)

theorem State.replayInput_frame (s : State) (w : Wing) (type : Nat) (clear sealed : Bytes) :
    ReplayFrame w s (s.replayInput w type clear sealed) := by
  have hlog (t : State) := ((t.takeFree_replayFrame w).trans
    (ReplayFrame.foldl (fun s (e : Ev × Nat × Nat × Nat × Nat) => s.log_replayFrame w e.1 e.2.1 e.2.2.1 e.2.2.2.1 e.2.2.2.2)
      (Config.replayedEvents t.freeCtr) t.takeFree))
  unfold State.replayInput
  cases Config.replayed (s.snapshot w) type clear sealed with
  | none => exact hlog s
  | some x => exact (s.loadSnap_replayFrame w x).trans (hlog _)

end Frame

/-- Settles O33: the commands by their checks, the events of a log by its state, a replayed record by its type. -/
theorem rehearsal : Obligations.Rehearsal := by
  unfold Obligations.Rehearsal
  refine ⟨?commands, ?events⟩
  case commands =>
    rintro s ch p w _ rfl
    refine ⟨fun off h hw hoff => ⟨execRhlExport_answers h hw hoff, execRhlExport_refused h hw⟩, ?_,
      fun o ho h hw => ⟨execRhlResume_starts ho h hw, execRhlResume_refused ho h hw⟩⟩
    rintro addr h hwing h4 haddr hpage hin hreach hlc hclosed hidle b _ hb rfl _ rfl
    exact execRhlReplay_answers h hwing h4 haddr hpage hin hreach hlc hclosed hidle hb
  case events =>
    rintro s w _ rfl
    refine ⟨?snapshot, ?spill, execRhlPostBlocks_stops, fun hst => ⟨?record, fun b => ?block, ?last, ?frame⟩⟩
    case snapshot =>
      rintro _ rfl hst
      exact ⟨execRhlSnapshotDone_goesOn hst, fun bits => execRhlSnapshotDone_freezes hst, execRhlSnapshotDone_waits⟩
    case spill =>
      intro b rest g o u v st ok hfull hlog hroom hg ho hu hgot
      rw [execRhlBlockSpill_ended ok hfull hlog hroom hg ho hu hgot]
      exact ⟨fun hst => if_neg (not_not_intro hst), fun hst => if_pos hst⟩
    case record =>
      rintro type dt clear sealed _ _ rfl rfl
      rw [execRhlReplayRecord_rcd hst]
      refine ⟨fun h => congrArg Host.Outcome.next (State.replayRcd_rt h), fun h => congrArg Host.Outcome.next (State.replayRcd_digest h),
        fun c h => congrArg Host.Outcome.next (State.replayRcd_compared h), ?vault, ?strike, ?fault, ?other⟩
      case vault =>
        rintro rfl
        rw [State.replayRcd_input (by decide) rfl, State.inputPrepared_vault]
        rfl
      case strike =>
        rintro u rfl h1 hu
        rw [State.replayRcd_input (by decide) rfl, State.inputPrepared_strike h1 hu]
        rfl
      case fault =>
        rintro rfl hno
        rw [State.replayRcd_input (by decide) rfl, State.inputPrepared_fault hno]
        rfl
      case other =>
        intro htype hin
        simp only [List.mem_cons, List.not_mem_nil, or_false] at htype
        have hinput : type ∈ inputTypes := by
          simp only [inputTypes, List.mem_cons, List.not_mem_nil, or_false]
          omega
        rw [State.replayRcd_input hinput hin, State.inputPrepared_other (by omega) (by omega)]
        rfl
    case block => exact execRhlReplayRecord_block hst b
    case last => exact execRhlReplayRecord_last hst
    case frame =>
      rintro _ type clear sealed rfl
      obtain ⟨hother, hrhl, hlink, hregions, hlanes, hrest⟩ := s.replayInput_frame w type clear sealed
      exact ⟨hother, hrhl, hlink, hregions, hlanes, hrest⟩

end Sys2Proof.Machine
end

section
/-! A Script update (O31): its two commands, and the core that loads the new image. -/

namespace Sys2Proof.Machine

open Sys2Proof.Safety Sys2Proof.Laws

section Commands

variable {s : State} {ch : Fin 8} {p : Place}

theorem execUpdateWrite_answers {t : Tbl Word} (h : Served s ch { op := 0x185, lenMin := 1, lenMax := 62 } p)
    (hidle : s.updating = false) (ht : (ctx0 s ch p).imagePart s.upd.image = some t) :
    Answers (exec (.updateWrite ch) s) { took s ch with upd := { s.upd with image := t } } ch .ok [] := by
  refine answers_once h rfl ((if_neg (Bool.eq_false_iff.1 hidle)).trans ?_)
  rw [show (ctx0 s ch p).imagePart (took s ch).upd.image = some t from ht]
  rfl

theorem State.cores_sound (h : ∀ d, (s.core d).struck = false ∧ (s.core d).lost = false) :
    (s.cores.any fun c => decide (c.struck ∨ c.lost)) = false := by
  have hsound (d : CoreId) : ¬decide ((s.core d).struck ∨ (s.core d).lost) = true := by simp [h d]
  refine Vector.any_eq_false.2 fun i hi => ?_
  match i, hi with
  | 0, _ => exact hsound .l
  | 1, _ => exact hsound .r

/-- UPDATE_GO on two sound cores, by the checks of the image. -/
theorem execUpdateGo_served (h : Served s ch { op := 0x186, lenMin := 0, lenMax := 0 } p) (hidle : s.updating = false)
    (hhand : s.upd.hand = none) (hj : s.joined = true) (hcores : ∀ d, (s.core d).struck = false ∧ (s.core d).lost = false) :
    exec (.updateGo ch) s = .next (Res.settle ch s.chans[ch].expect
      (if !imageOk s.upd.image s.vlt.lcCode then failed { took s ch with upd := {} } .imageInvalid
       else if fld (wordAt (imageWords s.upd.image 1 1) 0) 31 16 ≠ s.boot.stambe then failed (took s ch) .updateIncompatible
       else good (State.beginHand { ((took s ch).eachWing fun s w => s.rhlFreeze w 5 0) with upd :=
         { step := 2, hand := none, image := s.upd.image, hash := wordsToBytes (imageWords s.upd.image 5 12) } } 1))) := by
  have hmay : ¬(s.updating = true ∨ s.upd.hand.isSome = true) := by simp [hidle, hhand]
  have hjoined : ¬(!s.joined) = true := by simp [hj]
  refine congrArg Host.Outcome.next (runCmd_comesTo h rfl ?_)
  exact (if_neg hmay).trans ((if_neg hjoined).trans (if_neg (Bool.eq_false_iff.1 (State.cores_sound hcores))))

end Commands

/-! ## The core that loads the image (R359, R360) -/

section Loading

variable {s : State} {c : CoreId}

theorem otherCore_ix_ne (c : CoreId) : (coreIx c).val ≠ (coreIx (otherCore c)).val := by
  cases c <;> decide

theorem State.modCore_otherCore (s : State) (c : CoreId) (f : Core → Core) : (s.modCore c f).core (otherCore c) = s.core (otherCore c) := by
  have hne := otherCore_ix_ne c
  simp [State.core, State.modCore, hne]

/-- A core as it runs the image of an update (R359). -/
def Core.startedOn (x : Core) (image : Bytes) : Core :=
  { x with hash := image, reloading := false, suspended := false, got := 0, missed := 0, armed := false }

/-- An update whose core runs its image goes on by its step (R359). -/
def State.updateGoesOn (s : State) : State :=
  match s.upd.step with
  | 3 => (State.beginHand { s with upd := { s.upd with step := 4 } } 0).settleHand
  | 5 => (State.beginHand { s with upd := { s.upd with step := 6 } } 2).settleHand
  | _ => if State.handIdle { s with upd := {} } 2 then { s with upd := {} }
    else (State.beginHand { s with upd := {} } 2).settleHand

theorem State.coreStarted_sound (hj : s.joined = true) (hstruck : (s.core (otherCore c)).struck = false)
    (hlost : (s.core (otherCore c)).lost = false) (hhash : s.upd.hash ≠ []) :
    s.coreStarted c = (s.modCore c fun _ => (s.core c).startedOn s.upd.hash).updateGoesOn := by
  have hnew : (s.modCore c fun x => { x with
      hash := (if s.upd.hash.isEmpty then x.hash else s.upd.hash), reloading := false, suspended := false, got := 0, missed := 0,
      armed := false }) = s.modCore c fun _ => (s.core c).startedOn s.upd.hash :=
    State.modCore_congr (by rw [if_neg (by simpa using hhash)]; rfl)
  have hsound : ¬(((s.modCore c fun _ => (s.core c).startedOn s.upd.hash).core (otherCore c)).struck = true
      ∨ ((s.modCore c fun _ => (s.core c).startedOn s.upd.hash).core (otherCore c)).lost = true) := by
    rw [State.modCore_otherCore]
    simp [hstruck, hlost]
  have hjoined : ¬(!(s.modCore c fun _ => (s.core c).startedOn s.upd.hash).joined) = true := by
    show ¬(!s.joined) = true
    simp [hj]
  unfold State.coreStarted
  dsimp only
  rw [hnew, if_neg hjoined, if_neg hsound]
  rfl

theorem execUpdateCoreStarted_loading (hr : s.running = true) (hload : s.loadingCore = some c) :
    exec .updateCoreStarted s = .next (s.coreStarted c) :=
  congrArg Host.Outcome.next ((if_pos hr).trans (by rw [hload]))

/-- A core of the first reload that has not started in time ends the update (R360). -/
theorem execUpdateStartTimeout_aborts (hr : s.running = true) (hload : s.loadingCore = some c) (hstep : s.upd.step = 3)
    (hlate : (s.core c).reloadAt + 32000000 ≤ s.rt) :
    exec .updateStartTimeout s = .next (State.modCore { s.logBoth .updateAborted 0 (coreIx c).val 0 0 with upd := {} } c
      fun y => { y with reloadAt := s.rt }) := by
  have hrt : (s.logBoth .updateAborted 0 (coreIx c).val 0 0).rt = s.rt := congrArg Vault.rt (s.logBoth_vlt _ _ _ _ _)
  refine congrArg Host.Outcome.next ((if_pos hr).trans ?_)
  simp only [hload, if_pos hlate, State.startFails, hstep, hrt]

end Loading

/-- Settles O31: the commands by their checks, a core that starts by the update's step, one that does not by its reload's time. -/
theorem scriptUpdates : Obligations.ScriptUpdates := by
  unfold Obligations.ScriptUpdates
  rintro s ch p c _ rfl
  refine ⟨fun t h hidle ht => execUpdateWrite_answers h hidle ht, ?go, ?started, ?timeout⟩
  case go =>
    rintro _ u h hidle hhand hj hcores rfl
    rw [execUpdateGo_served h hidle hhand hj hcores]
    refine ⟨?_, fun hbad => ?_⟩
    · rintro hok hstambe rfl
      rw [if_neg (by simp [hok]), if_neg (not_not_intro hstambe)]
      rfl
    · rw [if_pos (by simp [hbad])]
      rfl
  case started =>
    rintro _ hr hj hload hstruck hlost hhash rfl
    rw [execUpdateCoreStarted_loading hr hload, State.coreStarted_sound hj hstruck hlost hhash]
    refine ⟨fun hstep => ?_, fun hstep => ?_⟩
    all_goals
      rw [State.updateGoesOn, show (s.modCore c _).upd.step = _ from hstep]
      rfl
  case timeout =>
    rintro _ hr hload hstep hlate rfl
    exact execUpdateStartTimeout_aborts hr hload hstep hlate

end Sys2Proof.Machine
end

section
/-! SUPPORT. The control port: the offsets of its registers (R380, R384, R389), writes that pass and writes that are refused
(R71, R381), and what a write does to the zeroise sequence (R392). -/

namespace Sys2Proof.Machine

open Sys2Proof.Safety

/-! ## Offsets (R380, R384, R389) -/

theorem chanOf_chanOff (n : Fin 8) {o : Nat} (ho : o < 0x400) : chanOf (chanOff n o) = some n := by
  have hlow : 0x1000 ≤ chanOff n o := by
    unfold chanOff
    omega
  have hhigh : chanOff n o < 0x3000 := by
    unfold chanOff
    omega
  have hblock : (chanOff n o - 0x1000) / 0x400 = n.val := by
    unfold chanOff
    omega
  rw [chanOf, if_pos ⟨hlow, hhigh⟩, hblock, Fin.ofNat_val_eq_self]

theorem chanOff_within (n : Fin 8) {o : Nat} (ho : o < 0x400) : (chanOff n o - 0x1000) % 0x400 = o := by
  unfold chanOff
  omega

theorem cbdOff_lt (w : Wing) {o : Nat} (ho : o < 0x40) : 0x200 ≤ cbdOff w o ∧ cbdOff w o < 0x2C0 := by
  have := (wingOf_wingIx w).1
  unfold cbdOff
  omega

theorem guardOf_cbdOff (w : Wing) {o : Nat} (ho : o < 0x40) : guardOf (cbdOff w o) = some 0 := by
  obtain ⟨hlow, hhigh⟩ := cbdOff_lt w ho
  rw [guardOf, if_neg (by omega), if_pos (by omega)]

theorem State.reg_cbdOff (s : State) (w : Wing) {o : Nat} (ho : o < 0x40) : s.reg (cbdOff w o) = (s.wing w).cbd.reg o := by
  obtain ⟨hlow, hhigh⟩ := cbdOff_lt w ho
  rw [State.reg, if_pos (by omega), State.sysReg]
  repeat rw [if_neg (by omega)]
  cases w with
  | sl =>
    rw [if_pos ⟨hlow, by show 0x200 + 0x80 * 0 + o < _; omega⟩]
    exact congrArg (s.sl.cbd.reg) (by show 0x200 + 0x80 * 0 + o - _ = _; omega)
  | sr =>
    rw [if_neg (by show ¬(_ ∧ 0x200 + 0x80 * 1 + o < _); omega), if_pos ⟨by show _ ≤ 0x200 + 0x80 * 1 + o; omega, hhigh⟩]
    exact congrArg (s.sr.cbd.reg) (by show 0x200 + 0x80 * 1 + o - _ = _; omega)

/-! ## The zeroise sequence (R392) -/

section Zeroise

variable {t : State} {a : CpAcc} {off gap v : Nat}

theorem State.zAbort_idle (h : t.sys.zStep = 0) : t.zAbort = t := if_pos h

theorem State.zAbort_started (h : t.sys.zStep ≠ 0) :
    t.zAbort = { t with sys := { t.sys with zStep := 0, zAborts := min 255 (t.sys.zAborts + 1) } } := if_neg h

/-- Abandoning the sequence changes its registers alone. -/
theorem State.zAbort_eq (t : State) : t.zAbort = { t with sys := { t.sys with zStep := 0, zAborts := t.zAbort.sys.zAborts } } := by
  by_cases h : t.sys.zStep = 0
  · rw [State.zAbort_idle h, ← h]
  · rw [State.zAbort_started h]

theorem State.zAbort_zStep (t : State) : t.zAbort.sys.zStep = 0 := by
  rw [State.zAbort_eq]

theorem State.zAbort_wing (t : State) (w : Wing) : t.zAbort.wing w = t.wing w := by
  rw [State.zAbort_eq]
  cases w <;> rfl

theorem State.zAbort_chans (t : State) : t.zAbort.chans = t.chans := by
  rw [State.zAbort_eq]

/-- A write elsewhere than to ARM and FIRE abandons the sequence. -/
theorem State.zTrack_elsewhere (harm : off ≠ 0x104) (hfire : off ≠ 0x108) : t.zTrack a off gap v = t.zAbort := by
  simp [State.zTrack, harm, hfire]

end Zeroise

/-! ## Writes (R71, R381) -/

section Writes

variable {s t : State} {a : CpAcc} {off gap v : Nat} {eff : State → State}

theorem State.cpWrite_admits (h : Admits s t a off) (gap v : Nat) (eff : State → State) :
    Wrote (.next (s.cpWrite a off gap v eff)) t a off gap v eff := by
  obtain ⟨htakes, rfl, hpass⟩ := h
  refine ⟨_, rfl, congrArg Host.Outcome.next ?_⟩
  unfold State.cpWrite
  cases hg : guardOf off with
  | none =>
    rw [hg] at hpass
    exact (if_neg (by simp [htakes])).trans (if_neg (Bool.eq_false_iff.1 hpass))
  | some n =>
    rw [hg] at hpass
    exact (if_neg (by simp [htakes])).trans (if_neg (Bool.eq_false_iff.1 hpass))

/-- A write that the ownership check refuses abandons the sequence and sets CP_ERR (R381). -/
theorem State.cpWrite_refused (htakes : s.cpTakes = true) (ht : t = (guardOf off).elim s fun n => s.ownParity a n)
    (href : t.cpRefused a off = true) (gap v : Nat) (eff : State → State) : s.cpWrite a off gap v eff
      = State.rhlCtrl { t.zAbort with sys := { t.zAbort.sys with err := true } } a off true v := by
  subst ht
  unfold State.cpWrite
  cases hg : guardOf off with
  | none =>
    rw [hg] at href
    exact (if_neg (by simp [htakes])).trans (if_pos href)
  | some n =>
    rw [hg] at href
    exact (if_neg (by simp [htakes])).trans (if_pos href)

/-- What a write does is told by its effect on the state that it comes upon. -/
theorem wrote_congr {o : Host.Outcome State Fault Refusal} {eff' : State → State} (h : Wrote o t a off gap v eff)
    (heff : eff (t.zTrack a off gap v) = eff' (t.zTrack a off gap v)) : Wrote o t a off gap v eff' := by
  obtain ⟨u, rfl, hu⟩ := h
  exact ⟨_, rfl, by rw [hu, heff]⟩

/-- A write to a channel's block, told by what it does to that channel. -/
theorem wrote_chan {o : Host.Outcome State Fault Refusal} {ch n : Fin 8} {k : Nat} {f g : Chan → Chan} (hk : k < 0x400)
    (h : Wrote o t a (chanOff n k) gap v fun u => u.modChan ch f) (hfg : f t.chans[ch] = g t.chans[ch]) :
    Wrote o t a (chanOff n k) gap v fun u => u.modChan ch g := by
  refine wrote_congr h (State.modChan_congr ?_)
  have harm : chanOff n k ≠ 0x104 := by
    unfold chanOff
    omega
  have hfire : chanOff n k ≠ 0x108 := by
    unfold chanOff
    omega
  rw [State.zTrack_elsewhere harm hfire, State.zAbort_chans]
  exact hfg

/-- A write to a Call Board's block, told by what it does to that Call Board's wing. -/
theorem wrote_cbd {o : Host.Outcome State Fault Refusal} {w : Wing} {k : Nat} {f g : WingSt → WingSt} (hk : k < 0x40)
    (h : Wrote o t a (cbdOff w k) gap v fun u => u.modWing w f) (hfg : f (t.wing w) = g (t.wing w)) :
    Wrote o t a (cbdOff w k) gap v fun u => u.modWing w g := by
  refine wrote_congr h (State.modWing_congr ?_)
  obtain ⟨hlow, -⟩ := cbdOff_lt w hk
  rw [State.zTrack_elsewhere (by omega) (by omega), State.zAbort_wing]
  exact hfg

end Writes

end Sys2Proof.Machine
end

section
/-! The mailbox handshake (O34): doorbells, requests copied, responses written and acknowledged. -/

namespace Sys2Proof.Machine

open Sys2Proof.Safety

section Handshake

variable {s t : State} {a : CpAcc} {ch : Fin 8} {v : Word}

/-! ## Doorbells and acknowledgements (R365, R366) -/

theorem Chan.ring_free {c : Chan} {n : Nat} (h0 : bitOf n 0 = true) (hb : c.reqBusy = false) :
    c.ring n = { c with reqBusy := true, bellGroup := c.ownGroup, bellWorld := c.ownWorld } := by
  simp [Chan.ring, h0, hb]

theorem Chan.ring_busy {c : Chan} {n : Nat} (h0 : bitOf n 0 = true) (hb : c.reqBusy = true) :
    c.ring n = { c with overrun := true } := by
  simp [Chan.ring, h0, hb]

theorem Chan.ack_valid {c : Chan} {n : Nat} (h0 : bitOf n 0 = true) (hv : c.rspValid = true) :
    c.ack n = { c with rspValid := false, queue := c.queue.drop 1 } := if_pos ⟨h0, hv⟩

theorem execDoorbell_wrote (h : Admits s t a (chanOff ch 0x200)) {f : Chan → Chan} (hf : t.chans[ch].ring v.toNat = f t.chans[ch]) :
    Wrote (exec (.doorbell a ch v) s) t a (chanOff ch 0x200) 0 v.toNat fun u => u.modChan ch f :=
  wrote_chan (by decide) (State.cpWrite_admits h 0 v.toNat _) hf

theorem execRspAck_wrote (h : Admits s t a (chanOff ch 0x208)) {f : Chan → Chan} (hf : t.chans[ch].ack v.toNat = f t.chans[ch]) :
    Wrote (exec (.rspAck a ch v) s) t a (chanOff ch 0x208) 0 v.toNat fun u => u.modChan ch f :=
  wrote_chan (by decide) (State.cpWrite_admits h 0 v.toNat _) hf

/-! ## Requests copied (R365) -/

theorem State.copies_of (hup : s.cpUp = true) (hready : s.isReady = true ∨ ch = 0) (hb : s.chans[ch].reqBusy = true)
    (hq : s.chans[ch].queue.length < 8) (he : s.pwr.entering = false) (hc : s.chans[ch].closing = none)
    (hm : s.chans[ch].mapNext = none) : s.copies ch = true := by
  have hserves : (s.isReady || decide (ch = 0)) = true := by simpa using hready
  simp only [State.copies, hup, hserves, hb, decide_eq_true hq, he, hc, hm]
  rfl

theorem execReqFree_copies (h : s.copies ch = true) : exec (.reqFree ch) s = .next (s.modChan ch fun c =>
    { c with queue := c.queue ++ [s.newPlace ch], reqBusy := false, evFree := true, opSeen := false }) :=
  congrArg Host.Outcome.next (if_pos h)

/-! ## Responses (R365, R368, R369) -/

theorem execRspWrite_up (h : s.cpUp = true) : exec (.rspWrite ch) s = .next ((s.answerUnknown ch).writeRsp ch) :=
  congrArg Host.Outcome.next (if_pos h)

theorem State.answerUnknown_known (h : ∀ q, s.chans[ch].head = some q → catalogue.contains q.op = true) : s.answerUnknown ch = s := by
  unfold State.answerUnknown
  split
  · next p hp =>
    refine if_neg fun ⟨_, hno, _⟩ => ?_
    rw [h p hp] at hno
    cases hno
  · rfl

theorem State.answerUnknown_answers {p : Place} (hp : s.chans[ch].head = some p) (hqueued : p.phase = .queued)
    (hop : catalogue.contains p.op = false) (hserve : s.canServe ch = true) (hseq : p.seq = s.chans[ch].expect.toNat) :
    s.answerUnknown ch = (took s ch).finish ch .unknownOpcode [] := by
  rw [State.answerUnknown, hp]
  exact (if_pos ⟨hqueued, by rw [hop]; rfl, hserve⟩).trans (if_neg (not_not_intro hseq))

theorem State.writeRsp_oldest {p : Place} {rest : List Place} {st : Status} {ws : List Word} (hv : s.chans[ch].rspValid = false)
    (hq : s.chans[ch].queue = p :: rest) (hp : p.phase = .answered st ws) (ho : p.own = none) : s.writeRsp ch
      = s.modChan ch fun c => { c with rsp := putWords c.rsp (p.response st ws), rspValid := true } := by
  have hopen : ¬s.chans[ch].rspValid = true := Bool.eq_false_iff.1 hv
  simp only [State.writeRsp, if_neg hopen, hq, hp, ho, State.giveChan]

end Handshake

/-- Settles O34: each step of the handshake where its guard is met, on the channel as it stands. -/
theorem mailboxHandshake : Obligations.MailboxHandshake := by
  unfold Obligations.MailboxHandshake
  intro s t a ch v
  refine ⟨fun h h0 => ⟨fun hb => execDoorbell_wrote h (Chan.ring_free h0 hb), fun hb => execDoorbell_wrote h (Chan.ring_busy h0 hb)⟩,
    fun hup hready hb hq he hc hm => ?copied, fun p rest st ws hup hv hknown hq hp ho => ?written,
    fun p hup hp hqueued hop hserve hseq => ?unknown, fun h h0 hv => execRspAck_wrote h (Chan.ack_valid h0 hv)⟩
  case copied =>
    refine ⟨s.newPlace ch, execReqFree_copies (State.copies_of hup hready hb hq he hc hm), rfl, rfl, rfl, rfl, fun hs => ?_,
      fun hs => if_pos hs⟩
    exact if_neg (Bool.eq_false_iff.1 hs)
  case written =>
    rw [execRspWrite_up hup, State.answerUnknown_known hknown, State.writeRsp_oldest hv hq hp ho]
  case unknown =>
    rw [execRspWrite_up hup, State.answerUnknown_answers hp hqueued hop hserve hseq]

end Sys2Proof.Machine
end

section
/-! Register writes, the Call Board's rows and the zeroise sequence (O35). -/

namespace Sys2Proof.Machine

open Sys2Proof.Safety

section Rows

variable {s t : State} {a : CpAcc} {w : Wing} {v : Word}

/-! ## REGISTER_WRITE (R9, R10, R381) -/

section Register

variable {ad : BitVec 16} {off : Nat} (hoff : off = ad.toNat / 4 * 4) (hrow : ownRow off = false)

include hoff hrow

theorem execRegisterWrite_plain : exec (.registerWrite a ad v) s
    = .next (s.cpWrite a off 0 v.toNat fun u => u.regWrite off v.toNat) := by
  subst hoff
  exact congrArg Host.Outcome.next (if_neg (Bool.eq_false_iff.1 hrow))

end Register

/-! ## TAIL and ENTRY (R390) -/

theorem execCbdTail_wrote (h : Admits s t a (cbdOff w 0x04)) {f : WingSt → WingSt}
    (hf : { t.wing w with cbd := (t.wing w).cbd.writeTail (v.setWidth 16) } = f (t.wing w)) :
    Wrote (exec (.cbdTail a w v) s) t a (cbdOff w 0x04) 0 v.toNat fun u => u.modWing w f :=
  wrote_cbd (by decide) (State.cpWrite_admits h 0 v.toNat _) hf

theorem Cbd.writeTail_within {c : Cbd} {n : BitVec 16} (h : (c.head - n).toNat ≤ 4096) : c.writeTail n = { c with tail := n } := if_pos h

theorem Cbd.writeTail_beyond {c : Cbd} {n : BitVec 16} (h : 4096 < (c.head - n).toNat) : c.writeTail n = { c with tailErr := true } :=
  if_neg (by omega)

theorem Cbd.reg_entry (c : Cbd) : c.reg 0x20 = some (wordAt c.latch 0) := rfl

/-- A read of ENTRY[0] that passes latches the entry at TAIL and returns its first word. -/
theorem execCbdEntry_latches (h : Admits s t a (cbdOff w 0x20)) {u : State}
    (hu : u = t.modWing w fun x => { x with cbd := { x.cbd with shadow := x.cbd.latch } }) :
    exec (.cbdEntry a w) s = .next (State.rhlCtrl
      { u with sys := { u.sys with rdata := wd (wordAt (t.wing w).cbd.latch 0), err := false } } a (cbdOff w 0x20) false
      (wd (wordAt (t.wing w).cbd.latch 0)).toNat) := by
  obtain ⟨htakes, ht, hpass⟩ := h
  rw [guardOf_cbdOff w (by decide), Option.elim_some] at ht
  have hread : t.cpRead a (cbdOff w 0x20) = (false, wd (wordAt (t.wing w).cbd.latch 0)) := by
    rw [State.cpRead, if_neg (Bool.eq_false_iff.1 hpass), State.reg_cbdOff t w (by decide), Cbd.reg_entry]
    rfl
  have hsys : (if false = true then { t with sys := { t.sys with rdata := wd (wordAt (t.wing w).cbd.latch 0), err := false } }
      else State.modWing { t with sys := { t.sys with rdata := wd (wordAt (t.wing w).cbd.latch 0), err := false } } w
        fun x => { x with cbd := { x.cbd with shadow := x.cbd.latch } })
      = { u with sys := { u.sys with rdata := wd (wordAt (t.wing w).cbd.latch 0), err := false } } := by
    rw [hu]
    cases w <;> rfl
  refine congrArg Host.Outcome.next ((if_neg (by simp [htakes])).trans ?_)
  dsimp only
  rw [← ht, hread, hsys]

end Rows

/-! ## Registers without a row of their own (R386, R387, R389, R391) -/

section Registers

variable (u : State) (n : Fin 8) (v : Nat)

theorem State.regWrite_line (h : u.sys.lock = false) : u.regWrite 0x40 v = { u with sys := { u.sys with
    line := Vector.ofFn fun (n : Fin 8) => fld v (3 * n.val + 2) (3 * n.val) } } :=
  if_neg (Bool.eq_false_iff.1 h)

theorem State.regWrite_zEn : u.regWrite 0x100 v = if u.sys.lock = true ∨ (!v.testBit 0) = true ∧ (u.vlt.lcCode = 4 ∨ u.vlt.lcCode = 5)
    then u else { u with sys := { u.sys with zEn := v.testBit 0 } } := rfl

theorem State.regWrite_chan {o : Nat} (ho : o < 0x400) : u.regWrite (chanOff n o) v = u.modChan n fun c => c.write o v := by
  have hlow : 0x1000 ≤ chanOff n o := by
    unfold chanOff
    omega
  unfold State.regWrite
  repeat rw [if_neg (by omega)]
  rw [chanOf_chanOff n ho, chanOff_within n ho]

theorem State.regWrite_cbd (w : Wing) : u.regWrite (cbdOff w 0x08) v = u.modWing w fun x => { x with cbd := x.cbd.clear v } := by
  cases w <;> rfl

theorem Cbd.clear_fields (c : Cbd) : (c.clear v).lost = (c.lost && !v.testBit 13) ∧ (c.clear v).tailErr = (c.tailErr && !v.testBit 14)
    ∧ (c.clear v).lostCount = (if v.testBit 13 then 0 else c.lostCount) ∧ (c.clear v).head = c.head ∧ (c.clear v).tail = c.tail := by
  unfold Cbd.clear bitOf
  cases v.testBit 13 <;> cases v.testBit 14 <;> simp

theorem testBit_cleared {x i : Nat} (hi : i < 6) : (x &&& (0x3F ^^^ v % 64)).testBit i = (x.testBit i && !v.testBit i) := by
  have hmask : (0x3F : Nat).testBit i = true := by
    interval_cases i <;> rfl
  rw [Nat.testBit_and, Nat.testBit_xor, hmask, show (64 : Nat) = 2 ^ 6 from rfl, Nat.testBit_mod_two_pow, decide_eq_true hi,
    Bool.true_and, Bool.true_xor]

theorem fld_line (k : Nat) : fld v (3 * k + 2) (3 * k) = v / 2 ^ (3 * k) % 8 := by
  rw [fld_eq, show 3 * k + 2 + 1 - 3 * k = 3 by omega]
  rfl

/-! A write to a register of a channel's block (R384). -/

theorem Chan.write_request {c : Chan} {k : Nat} (hk : k < 64) (hb : c.reqBusy = false) :
    c.write (4 * k) v = { c with req := c.req.set (Fin.ofNat 64 k) (wd v), opSeen := c.opSeen || decide (k = 0) } := by
  rw [Chan.write, if_pos (by omega), if_neg (Bool.eq_false_iff.1 hb)]
  simp only [Nat.mul_div_cancel_left k (show 0 < 4 by decide)]

theorem Chan.write_overrun {c : Chan} {k : Nat} (hk : k < 64) (hb : c.reqBusy = true) :
    c.write (4 * k) v = { c with overrun := true } := by
  rw [Chan.write, if_pos (by omega), if_pos hb]

theorem Chan.write_flags (c : Chan) : c.write 0x204 v = { c with overrun := c.overrun && !v.testBit 2 } := by
  show (if bitOf v 2 then { c with overrun := false } else c) = _
  unfold bitOf
  cases v.testBit 2 <;> simp

theorem Chan.write_irqEn (c : Chan) : c.write 0x210 v = { c with irqEn := wd (v % 2 ^ 13) } := rfl

theorem Chan.write_events (c : Chan) : c.write 0x20C v = { c with
    evFree := c.evFree && !v.testBit 1, evSaSl := c.evSaSl && !v.testBit 5, evSaSr := c.evSaSr && !v.testBit 10 } := rfl

end Registers

/-! ## The zeroise sequence (R392) -/

section Zeroise

variable {s t : State} {a : CpAcc} {gap n : Nat} {v : Word}

/-- A step of the sequence follows the one before: the same writer, within 256 cycles. -/
abbrev ZStep (z : Sys) (a : CpAcc) (gap : Nat) : Prop := z.zMid = a.mid.toNat ∧ z.zWorld = a.world ∧ gap ≤ 256

theorem not_zStep {z : Sys} {m : Nat} {x : Word}
    (h : z.zStep ≠ m ∨ v ≠ x ∨ z.zMid ≠ a.mid.toNat ∨ z.zWorld ≠ a.world ∨ 256 < gap) (hm : z.zStep = m) (hv : v = x) :
    ¬ZStep z a gap := by
  rintro ⟨hmid, hworld, hgap⟩
  rcases h with h | h | h | h | h
  · exact h hm
  · exact h hv
  · exact h hmid
  · exact h hworld
  · omega

theorem State.zTrack_first (hen : t.zEnabled = true) (h0 : t.sys.zStep = 0) (hn : n = 0x5A3C0F96) : t.zTrack a 0x104 gap n
    = { t with sys := { t.sys with zStep := 1, zMid := a.mid.toNat, zWorld := a.world } } :=
  (if_neg (by simp [hen])).trans (if_pos ⟨h0, rfl, hn⟩)

theorem State.zTrack_second (hen : t.zEnabled = true) (h1 : t.sys.zStep = 1) (hn : n = 0xA5C3F069) (hz : ZStep t.sys a gap) :
    t.zTrack a 0x104 gap n = { t with sys := { t.sys with zStep := 2 } } :=
  (if_neg (by simp [hen])).trans ((if_neg (by omega)).trans (if_pos ⟨h1, rfl, hn, decide_eq_true hz⟩))

theorem State.zTrack_third (hen : t.zEnabled = true) (h2 : t.sys.zStep = 2) (hn : n = 1) (hz : ZStep t.sys a gap) :
    t.zTrack a 0x108 gap n = State.fireIron { t with sys := { t.sys with zStep := 0, zFired := true } } :=
  (if_neg (by simp [hen])).trans ((if_neg (by omega)).trans ((if_neg (by omega)).trans (if_pos ⟨h2, rfl, hn, decide_eq_true hz⟩)))

theorem State.zTrack_disabled {off : Nat} (hoff : off = 0x104 ∨ off = 0x108) (hen : t.zEnabled = false) : t.zTrack a off gap n = t :=
  (if_pos (by simp [hen])).trans (if_pos hoff)

/-- A write to ARM that is not the step due abandons the sequence. -/
theorem State.zTrack_arm_astray (hen : t.zEnabled = true) (hfirst : t.sys.zStep = 0 → n ≠ 0x5A3C0F96)
    (hsecond : t.sys.zStep = 1 → n = 0xA5C3F069 → ¬ZStep t.sys a gap) : t.zTrack a 0x104 gap n = t.zAbort :=
  (if_neg (by simp [hen])).trans ((if_neg fun h => hfirst h.1 h.2.2).trans
    ((if_neg fun ⟨h1, _, hn, hz⟩ => hsecond h1 hn (of_decide_eq_true hz)).trans (if_neg (by omega))))

/-- A write to FIRE that is not the step due abandons the sequence. -/
theorem State.zTrack_fire_astray (hen : t.zEnabled = true) (hthird : t.sys.zStep = 2 → n = 1 → ¬ZStep t.sys a gap) :
    t.zTrack a 0x108 gap n = t.zAbort :=
  (if_neg (by simp [hen])).trans ((if_neg (by omega)).trans ((if_neg (by omega)).trans
    (if_neg fun ⟨h2, _, hn, hz⟩ => hthird h2 hn (of_decide_eq_true hz))))

/-- A write to ARM or FIRE that passes, by what the sequence comes to. -/
theorem execZeroiseArm_comesTo (h : Admits s t a 0x104) {x : State} (hx : t.zTrack a 0x104 gap v.toNat = x) :
    ∃ u, u = { x with sys := { x.sys with err := false } }
      ∧ exec (.zeroiseArm a gap v) s = .next (State.rhlCtrl u a 0x104 true v.toNat) := by
  obtain ⟨_, rfl, hnext⟩ := State.cpWrite_admits h gap v.toNat id
  exact ⟨_, rfl, hx ▸ hnext⟩

theorem execZeroiseFire_comesTo (h : Admits s t a 0x108) {x : State} (hx : t.zTrack a 0x108 gap v.toNat = x) :
    ∃ u, u = { x with sys := { x.sys with err := false } }
      ∧ exec (.zeroiseFire a gap v) s = .next (State.rhlCtrl u a 0x108 true v.toNat) := by
  obtain ⟨_, rfl, hnext⟩ := State.cpWrite_admits h gap v.toNat id
  exact ⟨_, rfl, hx ▸ hnext⟩

end Zeroise

/-- CP_RST_N clears the adapter's outputs and abandons the sequence (R71). -/
theorem execCpRstN_resets (s : State) : exec .cpRstN s = .next s.resetCp := rfl

theorem State.resetCp_eq (s : State) : s.resetCp.sys.rdata = 0 ∧ s.resetCp.sys.err = false ∧ s.resetCp.sys.zStep = 0
    ∧ s.resetCp = { s with sys := s.resetCp.sys, pwr := { s.pwr with cpRst := true } } := by
  refine ⟨rfl, rfl, s.zAbort_zStep, ?_⟩
  unfold State.resetCp
  rw [State.zAbort_eq]

/-- Settles O35: writes by what the ownership check says, registers by their offset, the sequence by the step that is due. -/
theorem controlPort : Obligations.ControlPort := by
  unfold Obligations.ControlPort
  refine ⟨fun s t a ad w v off hoff => ⟨?passes, ?refused, ?tail, ?entry, ?reset⟩, fun u n v k => ?registers,
    fun s t a gap v => ⟨fun h => ⟨?arm, ?armed, ?armAstray, ?armIdle⟩, fun h => ⟨?fire, ?fireAstray, ?fireIdle⟩, ?gap⟩⟩
  case passes =>
    intro h hrow
    rw [execRegisterWrite_plain hoff hrow]
    exact State.cpWrite_admits h 0 v.toNat _
  case refused =>
    intro htakes hrow ht href
    rw [execRegisterWrite_plain hoff hrow, State.cpWrite_refused htakes ht href]
    exact ⟨_, rfl, rfl⟩
  case tail =>
    rintro h _ rfl
    refine ⟨fun hin => execCbdTail_wrote h ?_, fun hout => execCbdTail_wrote h ?_⟩
    · rw [Cbd.writeTail_within hin]
    · rw [Cbd.writeTail_beyond hout]
  case entry => exact fun h => ⟨_, rfl, execCbdEntry_latches h rfl⟩
  case reset => exact ⟨_, execCpRstN_resets s, s.resetCp_eq⟩
  case registers =>
    refine ⟨fun hl => ⟨_, u.regWrite_line v hl, fun i => ?line⟩, fun hl => ⟨if_pos hl, ?lockedEn⟩, rfl,
      ⟨_, rfl, fun i hi => testBit_cleared v hi⟩, fun hl hv => ?enable, fun hv hlc => ?held,
      fun w => ⟨_, u.regWrite_cbd v w, Cbd.clear_fields v _⟩, fun hk hb => ?request, fun hk hb => ?overrun, ?flags, ?irqEn, ?events⟩
    case line => exact (Vector.getElem_ofFn _).trans (fld_line v i.val)
    case lockedEn => rw [State.regWrite_zEn, if_pos (.inl hl)]
    case enable =>
      rw [State.regWrite_zEn, if_neg]
      rintro (hlock | ⟨hoff, hlc⟩)
      · simp [hl] at hlock
      · rcases hv with hv | ⟨h4, h5⟩
        · simp [hv] at hoff
        · omega
    case held => rw [State.regWrite_zEn, if_pos (.inr ⟨by rw [hv]; rfl, hlc⟩)]
    case request =>
      rw [State.regWrite_chan u n v (by omega)]
      exact State.modChan_congr (Chan.write_request v hk hb)
    case overrun =>
      rw [State.regWrite_chan u n v (by omega)]
      exact State.modChan_congr (Chan.write_overrun v hk hb)
    case flags =>
      rw [State.regWrite_chan u n v (by decide)]
      exact State.modChan_congr (Chan.write_flags v _)
    case irqEn =>
      rw [State.regWrite_chan u n v (by decide)]
      exact State.modChan_congr (Chan.write_irqEn v _)
    case events =>
      rw [State.regWrite_chan u n v (by decide)]
      exact State.modChan_congr (Chan.write_events v _)
  case arm =>
    intro hen h0 hv
    have hnext := execZeroiseArm_comesTo h (gap := gap) (State.zTrack_first hen h0 (congrArg BitVec.toNat hv))
    exact hnext
  case armed =>
    intro hen h1 hv hmid hworld hgap
    have hnext := execZeroiseArm_comesTo h (State.zTrack_second hen h1 (congrArg BitVec.toNat hv) ⟨hmid, hworld, hgap⟩)
    exact hnext
  case armAstray =>
    intro hen hstep hbad
    have hastray : t.sys.zStep = 1 → v.toNat = 0xA5C3F069 → ¬ZStep t.sys a gap :=
      fun h1 hv => not_zStep hbad h1 (BitVec.eq_of_toNat_eq hv)
    have hnext := execZeroiseArm_comesTo h ((State.zTrack_arm_astray hen (fun h0 => absurd h0 hstep) hastray).trans
      (State.zAbort_started hstep))
    exact hnext
  case armIdle =>
    intro hidle
    refine execZeroiseArm_comesTo h ?_
    rcases Bool.eq_false_or_eq_true t.zEnabled with hen | hen
    · obtain ⟨h0, hv⟩ := hidle.resolve_left (by simp [hen])
      exact (State.zTrack_arm_astray hen (fun _ hn => hv (BitVec.eq_of_toNat_eq hn)) (by omega)).trans (State.zAbort_idle h0)
    · exact State.zTrack_disabled (.inl rfl) hen
  case fire =>
    intro hen h2 hv hmid hworld hgap
    obtain ⟨_, rfl, hnext⟩ := execZeroiseFire_comesTo h
      (State.zTrack_third hen h2 (congrArg BitVec.toNat hv) ⟨hmid, hworld, hgap⟩)
    exact ⟨_, rfl, hnext⟩
  case fireAstray =>
    intro hen hstep hbad
    have hastray : t.sys.zStep = 2 → v.toNat = 1 → ¬ZStep t.sys a gap :=
      fun h2 hv => not_zStep hbad h2 (BitVec.eq_of_toNat_eq hv)
    have hnext := execZeroiseFire_comesTo h ((State.zTrack_fire_astray hen hastray).trans (State.zAbort_started hstep))
    exact hnext
  case fireIdle =>
    intro hidle
    refine execZeroiseFire_comesTo h ?_
    rcases Bool.eq_false_or_eq_true t.zEnabled with hen | hen
    · have h0 := hidle.resolve_left (by simp [hen])
      exact (State.zTrack_fire_astray hen (by omega)).trans (State.zAbort_idle h0)
    · exact State.zTrack_disabled (.inr rfl) hen
  case gap =>
    intro hup hstep
    exact congrArg Host.Outcome.next ((if_pos hup).trans (State.zAbort_started hstep))

end Sys2Proof.Machine
end

section
/-! The Call Board registers (O36), where no logger records their accesses. -/

namespace Sys2Proof.Machine

open Sys2Proof.Safety

/-! ## Loggers that take no records (R398, R401) -/

/-- No logger takes records. -/
def NoneTaking (s : State) : Prop := ∀ w, (s.wing w).rhl.taking = false

section Quiet

variable {s t u : State} {w : Wing}

theorem Rhl.not_taking {r : Rhl} {x : RhlState} (h : r.st = x) (hx : x ≠ .trace ∧ x ≠ .record) : r.taking = false := by
  subst h
  exact decide_eq_false fun ⟨hst, _⟩ => hst.elim hx.1 hx.2

theorem NoneTaking.modWing (h : NoneTaking s) {f : WingSt → WingSt} (hf : (f (s.wing w)).rhl.taking = false) :
    NoneTaking (s.modWing w f) := by
  intro v
  by_cases hv : v = w
  · rw [hv, State.modWing_wing]
    exact hf
  · rw [otherWing_of_ne hv, State.modWing_wing_other]
    exact h _

theorem NoneTaking.of_wings (h : NoneTaking s) (hsl : t.sl = s.sl) (hsr : t.sr = s.sr) : NoneTaking t := by
  intro v
  cases v
  · exact (congrArg (fun x : WingSt => x.rhl.taking) hsl).trans (h .sl)
  · exact (congrArg (fun x : WingSt => x.rhl.taking) hsr).trans (h .sr)

theorem NoneTaking.rhlRec (h : NoneTaking s) (w : Wing) (t : Nat) (c b : Bytes) (n : Nat) : s.rhlRec w t c b n = s :=
  if_neg (Bool.eq_false_iff.1 (h w))

/-- A wing's update that leaves its logger. -/
theorem NoneTaking.modRest (h : NoneTaking s) {f : WingSt → WingSt} (hf : ∀ x, (f x).rhl = x.rhl) : NoneTaking (s.modWing w f) :=
  h.modWing (by rw [hf]; exact h w)

theorem NoneTaking.log (h : NoneTaking s) (w : Wing) (e : Ev) (a b c d : Nat) : NoneTaking (s.log w e a b c d) :=
  h.modRest fun _ => rfl

theorem NoneTaking.countWing (h : NoneTaking s) (w : Wing) (c : WCnt) : NoneTaking (s.countWing w c) := h.modRest fun _ => rfl

theorem NoneTaking.rhlStop (h : NoneTaking s) (w : Wing) (a b : Nat) : NoneTaking (s.rhlStop w a b) :=
  (h.modWing (Rhl.not_taking (x := .frozen) rfl ⟨by decide, by decide⟩)).log w _ _ _ _ _

theorem NoneTaking.rhlFreeze (h : NoneTaking s) (w : Wing) (a b : Nat) : NoneTaking (s.rhlFreeze w a b) := by
  unfold State.rhlFreeze
  dsimp only
  split
  · next hst =>
    have hsnap {r : Rhl} (hr : r.st = (s.wing w).rhl.st) : r.taking = false := Rhl.not_taking (hr.trans hst) ⟨by decide, by decide⟩
    split
    · exact h.modWing (hsnap rfl)
    · exact (h.modWing (hsnap (Rhl.append_st ..))).rhlStop w a b
  · rw [if_neg (Bool.eq_false_iff.1 (h w))]
    exact h

theorem NoneTaking.eachWing (h : NoneTaking s) {f : State → Wing → State} (hf : ∀ {t}, NoneTaking t → ∀ w, NoneTaking (f t w)) :
    NoneTaking (s.eachWing f) := hf (hf h .sl) .sr

theorem NoneTaking.raiseAlarm (h : NoneTaking s) (a : Alarm) : NoneTaking (s.raiseAlarm a) := by
  unfold State.raiseAlarm
  refine NoneTaking.eachWing ?_ fun ht w => ?_
  · exact h.of_wings rfl rfl
  · split
    · exact ht.rhlFreeze w 1 _
    · exact ht

theorem NoneTaking.markCritical (h : NoneTaking s) (w : Wing) (n : Nat) : NoneTaking (s.markCritical w n) := h.of_wings rfl rfl

theorem NoneTaking.remapRow (h : NoneTaking s) (w : Wing) (bank row : Nat) : NoneTaking (s.remapRow w bank row) := by
  unfold State.remapRow
  dsimp only
  split
  · refine NoneTaking.log ?_ w _ _ _ _ _
    exact h.of_wings rfl rfl
  · exact ((h.log w _ _ _ _ _).markCritical w _).raiseAlarm _

theorem NoneTaking.parityHit (h : NoneTaking s) (w : Wing) (e : Ent) : NoneTaking (s.parityHit w e) := by
  unfold State.parityHit
  dsimp only
  rw [State.rhlFault, h.rhlRec]
  split
  · refine NoneTaking.remapRow ?_ w _ _
    exact h.of_wings rfl rfl
  · exact h.of_wings rfl rfl

theorem NoneTaking.ownParity (h : NoneTaking s) (a : CpAcc) (n : Fin 8) : NoneTaking (s.ownParity a n) := by
  unfold State.ownParity
  dsimp only
  split
  · refine NoneTaking.parityHit (NoneTaking.countWing (NoneTaking.log ?_ _ _ _ _ _ _) _ _) _ _
    exact h.modRest fun _ => rfl
  · exact h

/-- An access is not recorded where no logger takes records. -/
theorem NoneTaking.rhlCtrl (h : NoneTaking s) (a : CpAcc) (off : Nat) (write : Bool) (v : Nat) : s.rhlCtrl a off write v = s := by
  have hnone (w : Wing) (c : Prop) [Decidable c] (x y : Bytes) : (if c then s.rhlRec w 0x08 x y 3 else s) = s := by
    rw [h.rhlRec, ite_self]
  unfold State.rhlCtrl State.eachWing
  dsimp only
  rw [hnone, hnone]

end Quiet

/-! ## The accesses (R390) -/

theorem NoneTaking.admits {s t : State} {a : CpAcc} {off : Nat} (h : NoneTaking s) (ht : Admits s t a off) : NoneTaking t := by
  obtain ⟨-, rfl, -⟩ := ht
  cases guardOf off with
  | none => exact h
  | some n => exact h.ownParity a n

/-- A write of TAIL that passes, where nothing records it. -/
theorem execCbdTail_quiet {s t : State} {a : CpAcc} {w : Wing} {v : Word} (h : NoneTaking s) (ht : Admits s t a (cbdOff w 0x04)) :
    ∃ u, exec (.cbdTail a w v) s = .next u ∧ (u.wing w).cbd = (t.wing w).cbd.writeTail (v.setWidth 16) := by
  obtain ⟨u, hu, hnext⟩ := execCbdTail_wrote (v := v) ht (f := fun x => { x with cbd := x.cbd.writeTail (v.setWidth 16) }) rfl
  have hoff := cbdOff_lt w (o := 0x04) (by decide)
  rw [State.zTrack_elsewhere (by omega) (by omega)] at hu
  have hcbd : (u.wing w).cbd = (t.wing w).cbd.writeTail (v.setWidth 16) := by
    rw [hu, State.modWing_wing, State.zAbort_wing]
  have hquiet : NoneTaking { u with sys := { u.sys with err := false } } := by
    have hab : NoneTaking t.zAbort := fun x => by
      rw [State.zAbort_wing]
      exact h.admits ht x
    refine NoneTaking.of_wings (s := u) ?_ rfl rfl
    rw [hu]
    exact hab.modRest fun _ => rfl
  rw [hquiet.rhlCtrl] at hnext
  exact ⟨_, hnext, by rw [← hcbd]; cases w <;> rfl⟩

theorem wd_wordAt (l : List Word) (i : Nat) : wd (wordAt l i) = l.getD i 0 := BitVec.ofNat_toNat ..

/-- A read of ENTRY[0] that passes, where nothing records it. -/
theorem execCbdEntry_quiet {s t : State} {a : CpAcc} {w : Wing} (h : NoneTaking s) (ht : Admits s t a (cbdOff w 0x20)) :
    ∃ u, exec (.cbdEntry a w) s = .next u ∧ u.sys.rdata = (t.wing w).cbd.latch.getD 0 0 ∧ u.sys.err = false
      ∧ (u.wing w).cbd = { (t.wing w).cbd with shadow := (t.wing w).cbd.latch } := by
  have hnext := execCbdEntry_latches ht rfl
  rw [NoneTaking.rhlCtrl, wd_wordAt] at hnext
  · refine ⟨_, hnext, rfl, rfl, ?_⟩
    cases w <;> rfl
  · refine NoneTaking.of_wings (s := t.modWing w fun x => { x with cbd := { x.cbd with shadow := x.cbd.latch } }) ?_ rfl rfl
    exact (h.admits ht).modRest fun _ => rfl

theorem Cbd.latch_empty {c : Cbd} (h : c.fill = 0) : c.latch = List.replicate 8 0 := if_pos h

theorem Cbd.latch_entry {c : Cbd} {x : List Word} (h : c.fill ≠ 0) (hx : tget c.ring (c.tail.toNat % 4096) = some x) : c.latch = x := by
  rw [Cbd.latch, if_neg h, hx]
  rfl

theorem Cbd.reg_shadow (c : Cbd) {k : Nat} (h1 : 1 ≤ k) (h7 : k ≤ 7) : c.reg (0x20 + 4 * k) = some (wordAt c.shadow k) := by
  rw [Cbd.reg]
  repeat rw [if_neg (by omega)]
  rw [if_pos (by omega), show (0x20 + 4 * k - 0x20) / 4 = k by omega]

theorem Ev.code_ne_zero (e : Ev) : e.code ≠ 0 := by
  cases e <;> decide

theorem Cbd.push_room {c : Cbd} (h : c.fill < 4096) (e : List Word) :
    c.push e = { c with ring := tput c.ring (c.head.toNat % 4096) e, head := c.head + 1 } := by
  rw [Cbd.push, if_pos h]

theorem Cbd.push_full {c : Cbd} (h : 4096 ≤ c.fill) (e : List Word) :
    c.push e = { c with tail := c.tail + 1, lost := true, lostCount := min (c.lostCount + 1) 0xFFFF,
                        ring := tput c.ring (c.head.toNat % 4096) e, head := c.head + 1 } := by
  rw [Cbd.push, if_neg (by omega)]

/-- Settles O36: a write of TAIL by its distance from HEAD, a read of ENTRY by what is latched, a push by whether the ring is full. -/
theorem callBoard : Obligations.CallBoard := by
  unfold Obligations.CallBoard
  refine ⟨?accesses, fun s w k h1 h7 => ?shadow, Ev.code_ne_zero, ?push, fun s w c n => ?irq⟩
  case accesses =>
    rintro s t a w v _ rfl hquiet
    refine ⟨fun h => ⟨fun hin => ?_, fun hout => ?_⟩, fun h => ?_⟩
    · rw [← Cbd.writeTail_within hin]
      exact execCbdTail_quiet hquiet h
    · rw [← Cbd.writeTail_beyond hout]
      exact execCbdTail_quiet hquiet h
    · obtain ⟨u, hnext, hdata, herr, hcbd⟩ := execCbdEntry_quiet hquiet h
      exact ⟨_, u, hnext, Cbd.latch_empty, fun x => Cbd.latch_entry, hdata, herr, hcbd⟩
  case shadow => rw [State.reg_cbdOff s w (by omega), Cbd.reg_shadow _ h1 h7]
  case push =>
    rintro c _ e rfl
    rcases Nat.lt_or_ge c.fill 4096 with hroom | hfull
    · rw [Cbd.push_room hroom]
      exact ⟨rfl, rfl, rfl, rfl, fun _ => ⟨rfl, rfl, rfl⟩, fun hfull => by omega⟩
    · rw [Cbd.push_full hfull]
      exact ⟨rfl, rfl, rfl, rfl, fun hroom => by omega, fun _ => ⟨rfl, rfl, rfl⟩⟩
  case irq => cases w <;> rfl

end Sys2Proof.Machine
end

section
/-! Resets, supplies and sleep (O50): what the reset of the VDDC domain leaves (R382), then its causes, the supplies' events, and
what sleep entry closes and keeps (R420). -/

namespace Sys2Proof.Machine

open Sys2Proof.Safety Sys2Proof.Laws

/-! ## The reset of the VDDC domain -/

theorem State.cutBurn_pwr (s : State) : s.cutBurn.pwr = s.pwr := by
  obtain ⟨n, v, h, -⟩ := s.cutBurn_eq
  rw [h]

theorem State.coreReset_pwr (s : State) : s.coreReset.pwr = { s.pwr with entering := false, saving := false } :=
  congrArg (fun p : Power => { p with entering := false, saving := false }) s.cutBurn_pwr

/-- The vault keeps what its own domain holds; a burn is cut, which changes the LC bits at most (R382, R439). -/
theorem State.coreReset_vlt (s : State) : ∃ lc, s.coreReset.vlt = ({ s.vlt with burn := none, lc := lc } : Vault).coreReset
    ∧ (s.vlt.burn = none → lc = s.vlt.lc) := by
  obtain ⟨n, v, hcut, hv, -⟩ := s.cutBurn_eq
  refine ⟨v.lc, ?_, fun hburn => ?_⟩
  · show s.cutBurn.vlt.coreReset = _
    rw [hcut, ← hv]
  · have hsame : s.cutBurn.vlt = s.vlt := congrArg State.vlt (s.cutBurn_none hburn)
    rw [hcut] at hsame
    exact congrArg Vault.lc hsame

theorem State.coreReset_port (s : State) (p : Fin 64) : s.coreReset.ports[p].st = .closed := by
  simp [State.coreReset]

theorem State.coreReset_rqp (s : State) (q : Fin 4) : s.coreReset.rqps[q].st = .closed := by
  simp [State.coreReset]

/-- A Class A key that stands after the reset stood before it, and does not expire at reset (R247, R255). -/
theorem Vault.coreReset_classA {v : Vault} {i : Fin 64} {id : Nat} {k : Key} (h : v.coreReset.classA[i] = some (id, k)) :
    ∃ k', v.classA[i] = some (id, k') ∧ k'.attr.expireReset = false ∧ k = { k' with uses := 0 } := by
  simp only [Vault.coreReset, Fin.getElem_fin, Vector.getElem_map] at h
  split at h
  next id' k' hcell =>
    split at h
    · cases h
    next hstays =>
      cases h
      exact ⟨k', hcell, Bool.eq_false_iff.2 hstays, rfl⟩
  · cases h

theorem State.coreReset_leaves {s t : State} (ht : t = s.coreReset) :
    t.boot = {} ∧ t.sl = {} ∧ t.sr = { served := .r } ∧ t.sys = {} ∧ t.upd = {} ∧ t.lanes = State.reset.lanes
    ∧ t.regions = State.reset.regions ∧ t.chans = State.reset.chans ∧ t.cores = State.reset.cores ∧ t.cues = State.reset.cues
    ∧ t.wear = [] ∧ (∀ p : Fin 64, t.ports[p].st = .closed) ∧ (∀ q : Fin 4, t.rqps[q].st = .closed)
    ∧ t.vlt.sram = s.vlt.sram ∧ t.vlt.owner = s.vlt.owner ∧ t.vlt.epoch = s.vlt.epoch ∧ t.vlt.rtCopy = s.vlt.rtCopy
    ∧ t.vlt.slots = [] ∧ t.vlt.sess = [] ∧ t.vlt.burn = none ∧ (s.vlt.burn = none → t.vlt.lc = s.vlt.lc)
    ∧ (∀ (i : Fin 64) id k, t.vlt.classA[i] = some (id, k) → k.uses = 0 ∧ k.attr.expireReset = false
      ∧ ∃ k', s.vlt.classA[i] = some (id, k') ∧ k'.key = k.key ∧ k'.attr = k.attr) := by
  subst ht
  obtain ⟨lc, hvlt, hlc⟩ := s.coreReset_vlt
  refine ⟨rfl, rfl, rfl, rfl, rfl, rfl, rfl, rfl, rfl, rfl, rfl, s.coreReset_port, s.coreReset_rqp, ?_⟩
  rw [hvlt]
  refine ⟨rfl, rfl, rfl, rfl, rfl, rfl, rfl, hlc, fun i id k h => ?_⟩
  obtain ⟨k', hcell, hattr, rfl⟩ := Vault.coreReset_classA h
  exact ⟨rfl, hattr, k', hcell, rfl, rfl⟩

/-! ## The causes of a reset (R382, R413, R414, R417) -/

section Resets

variable {s : State}

theorem execCoreRstN_resets (hboot : s.boot.phase ≠ .off) (hv : s.pwr.vddv = true) : exec .coreRstN s = .next
    { s.coreReset with pwr := { s.pwr with entering := false, saving := false, coreRst := true, late := false } } := by
  show execCoreRstN s = _
  have hmay : ¬(s.boot.phase = .off ∨ (!s.pwr.vddv) = true) := by simp [hboot, hv]
  rw [execCoreRstN, if_neg hmay, State.coreReset_pwr]

theorem execCoreRstN_pin (h : s.boot.phase = .off ∨ s.pwr.vddv = false) :
    exec .coreRstN s = .next { s with pwr := { s.pwr with coreRst := true, late := false } } := by
  show execCoreRstN s = _
  have hoff : s.boot.phase = .off ∨ (!s.pwr.vddv) = true := by simpa using h
  rw [execCoreRstN, if_pos hoff]

theorem execResetHold_ends (hc : s.pwr.vddc = true) (hv : s.pwr.vddv = true) (ht : s.pwr.presentAt + 50000 ≤ s.vlt.vtimer) :
    exec .resetHold s = .next { s with pwr := { s.pwr with holdOver := true } } := by
  refine congrArg Host.Outcome.next ?_
  cases hover : s.pwr.holdOver with
  | false => exact if_pos ⟨hc, hv, rfl, ht⟩
  | true =>
    refine (if_neg (by simp)).trans ?_
    rw [← hover]

theorem execVddcLoss_unwatched (hc : s.pwr.vddc = true) (hw : s.coreWatched = false) : exec .vddcLoss s = .next { s.coreReset.haltRt with
    pwr := { s.pwr with entering := false, saving := false, vddc := false, holdOver := false } } := by
  show execVddcLoss s = _
  simp only [execVddcLoss, hc, hw, Bool.not_true, Bool.false_eq_true, if_false]
  exact congrArg (fun p : Power => Host.Outcome.next { s.coreReset.haltRt with pwr := { p with vddc := false, holdOver := false } })
    s.coreReset_pwr

theorem execVddcLoss_watched (hc : s.pwr.vddc = true) (hw : s.coreWatched = true) : ∃ u, u = (s.cutBurn.sense 5 7).coreReset.haltRt
    ∧ exec .vddcLoss s = .next { u with pwr := { u.pwr with vddc := false, holdOver := false } } := by
  refine ⟨_, rfl, ?_⟩
  show execVddcLoss s = _
  simp only [execVddcLoss, hc, hw, Bool.not_true, Bool.false_eq_true, if_false, if_true]

/-- The vault keeps its fuses and nothing else where VDDV is lost (R413). -/
theorem execVddvLoss_keeps (s : State) : ∃ t, exec .vddvLoss s = .next t ∧ t.pwr.vddv = false ∧ t.pwr.holdOver = false
    ∧ t.pwr.slpAck = false ∧ t.vlt.sram = [] ∧ t.vlt.sramLost = true ∧ t.vlt.keys = {} ∧ (∀ i : Fin 64, t.vlt.classA[i] = none)
    ∧ t.vlt.owner = s.vlt.owner ∧ t.vlt.epoch = s.vlt.epoch ∧ (s.vlt.burn = none → t.vlt.lc = s.vlt.lc) ∧ t.boot = {} ∧ t.sys = {} := by
  obtain ⟨lc, hvlt, hlc⟩ := s.coreReset_vlt
  refine ⟨_, rfl, rfl, rfl, rfl, rfl, rfl, rfl, fun i => by simp, ?_⟩
  rw [hvlt]
  exact ⟨rfl, rfl, hlc, rfl, rfl⟩

end Resets

/-! ## Supplies (R288, R413, R415) -/

section Supplies

variable {s t u : State}

theorem execSupplyExcursion_vddc (above : Bool) (hw : s.coreWatched = true) :
    exec (.supplyExcursion .vddc above) s = .next (s.sense 5 (if above then 8 else 7)) :=
  congrArg Host.Outcome.next (if_pos hw)

theorem execSupplyExcursion_vddc_unwatched (hw : s.coreWatched = false) : exec (.supplyExcursion .vddc true) s = .next s
    ∧ exec (.supplyExcursion .vddc false) s = .next { s.haltRt with pwr := { s.pwr with vddc := false, holdOver := false } } := by
  have hnot : ¬s.coreWatched = true := Bool.eq_false_iff.1 hw
  exact ⟨congrArg Host.Outcome.next (if_neg hnot), congrArg Host.Outcome.next (if_neg hnot)⟩

theorem execSupplyExcursion_vddv_above (hv : s.pwr.vddv = true) : exec (.supplyExcursion .vddv true) s = .next (s.sense 6 8) := by
  have hnot : ¬(!s.pwr.vddv) = true := by simp [hv]
  exact congrArg Host.Outcome.next (if_neg hnot)

theorem execSupplyExcursion_vddv_below (hv : s.pwr.vddv = true) (ht : t = (s.setCond 6 7).coreReset.haltRt) :
    exec (.supplyExcursion .vddv false) s
      = .next (State.modVlt { t with pwr := { t.pwr with vddv := false, holdOver := false } } fun v => { v with dip := some 7 }) := by
  have hnot : ¬(!s.pwr.vddv) = true := by simp [hv]
  subst ht
  exact congrArg Host.Outcome.next (if_neg hnot)

/-- With no burn in progress the loss of VDDH stops the owner hashes, and the senses of the loops and the shield (R415). -/
theorem State.loseVddh_idle (hu : u = s.cutHashes) (hs : s.vlt.burn = none) (hb : u.vlt.burn = none) :
    s.loseVddh = State.modVlt { u with pwr := { u.pwr with vddh := false, fuseVpp := false } } (fun v =>
      { v with lines := v.lines.map fun (l : LineCode) => { l with chips := [] } }) := by
  rw [State.loseVddh, if_neg (by simp [hs]), ← hu]
  exact congrArg (State.modVlt · _)
    (State.railLost_idle (s := { u with pwr := { u.pwr with vddh := false, fuseVpp := false } }) hb)

theorem execSupplyExcursion_vddh (hu : u = s.cutHashes) (hh : s.pwr.vddh = true) (hs : s.vlt.burn = none) (hb : u.vlt.burn = none)
    (ht : t = State.modVlt { u with pwr := { u.pwr with vddh := false, fuseVpp := false } } (fun v =>
      { v with lines := v.lines.map fun (l : LineCode) => { l with chips := [] } })) :
    exec (.supplyExcursion .vddh false) s = .next (if u.pwr.vddv then t.sense 8 0xB else t) := by
  have hmay : ¬((!s.pwr.vddh) = true ∨ false = true) := by simp [hh]
  refine congrArg Host.Outcome.next ((if_neg hmay).trans ?_)
  have hpwr : t.pwr.vddv = u.pwr.vddv := by rw [ht]; rfl
  rw [State.loseVddh_idle hu hs hb, ← ht]
  show (if t.pwr.vddv then t.sense 8 0xB else t) = _
  rw [hpwr]

theorem execSupplyPresent_vddc (hc : s.pwr.vddc = false)
    (ht : t = { s with pwr := { s.pwr with vddc := true, presentAt := s.vlt.vtimer, holdOver := false } }) :
    exec (.supplyPresent .vddc) s = .next (t.setCond 5 0) := by
  subst ht
  exact congrArg (fun x : State => Host.Outcome.next (x.setCond 5 0)) (if_neg (Bool.eq_false_iff.1 hc))

theorem State.answerDip_none (h : s.vlt.dip = none) : s.answerDip = s.setCond 6 0 := by
  rw [State.answerDip, h]

theorem State.answerDip_some {c : Nat} (h : s.vlt.dip = some c) :
    s.answerDip = ((s.modVlt fun v => { v with dip := none }).detect 6 c).setCond 6 0 := by
  rw [State.answerDip, h]

/-- VDDV is back: what dipped below it is answered, and an absent VDDH found (R413, R416). -/
theorem execSupplyPresent_vddv (hv : s.pwr.vddv = false)
    (ht : t = { s with pwr := { s.pwr with vddv := true, presentAt := s.vlt.vtimer, holdOver := false } }) :
    exec (.supplyPresent .vddv) s = .next t.answerDip.findVddh := by
  subst ht
  exact congrArg Host.Outcome.next (if_neg (Bool.eq_false_iff.1 hv))

end Supplies

/-! ## Sleep entry begins (R420 steps 1 and 2) -/

/-- Sleep entry closes a port that is open. -/
def State.closeOpenPort (s : State) (p : Fin 64) : State := if s.ports[p].st = .opened then s.startPortClose p else s

theorem State.startPortClose_pwr_vlt (s : State) (p : Fin 64) : (s.startPortClose p).pwr = s.pwr ∧ (s.startPortClose p).vlt = s.vlt :=
  ⟨(s.closeGrant_only _ _).pwr, (s.closeGrant_only _ _).vlt⟩

theorem State.closeOpenPort_pwr_vlt (s : State) (p : Fin 64) :
    ((s.closeOpenPort p).pwr, (s.closeOpenPort p).vlt) = (s.pwr, s.vlt) := by
  unfold State.closeOpenPort
  split
  · exact Prod.ext (s.startPortClose_pwr_vlt p).1 (s.startPortClose_pwr_vlt p).2
  · rfl

/-- A closing port (R343). -/
def Port.closingAt (x : Port) (now : Nat) : Port := { x with st := .closing, closeAt := now }

theorem State.closeOpenPort_port (s : State) (m p : Fin 64) : (s.closeOpenPort m).ports[p]
    = if p = m ∧ s.ports[p].st = .opened then s.ports[p].closingAt s.rt else s.ports[p] := by
  unfold State.closeOpenPort
  by_cases hm : s.ports[m].st = .opened
  · rw [if_pos hm]
    obtain ⟨-, hport, hothers⟩ := State.startPortClose_opened hm rfl
    by_cases hp : p = m
    · subst hp
      rw [if_pos ⟨rfl, hm⟩]
      exact hport
    · rw [if_neg fun h => hp h.1]
      exact hothers p hp
  · rw [if_neg hm, if_neg]
    rintro ⟨rfl, hopen⟩
    exact hm hopen

theorem foldl_closeOpenPort_port (l : List (Fin 64)) {s : State} {p : Fin 64} (hp : p ∈ l) (h : s.ports[p].st = .opened) :
    (l.foldl State.closeOpenPort s).ports[p] = s.ports[p].closingAt s.rt := by
  have hclosing : ∀ (l : List (Fin 64)) {s : State}, s.ports[p].st ≠ .opened →
      (l.foldl State.closeOpenPort s).ports[p] = s.ports[p] := by
    intro l
    induction l with
    | nil => exact fun _ => rfl
    | cons m l ih =>
      intro s h
      have hsame : (s.closeOpenPort m).ports[p] = s.ports[p] := by rw [State.closeOpenPort_port, if_neg fun hm => h hm.2]
      rw [List.foldl_cons, ih (by rwa [hsame]), hsame]
  induction l generalizing s with
  | nil => cases hp
  | cons m l ih =>
    rw [List.foldl_cons]
    have hstep := s.closeOpenPort_port m p
    by_cases hm : p = m
    · rw [if_pos ⟨hm, h⟩] at hstep
      rw [hclosing l (by rw [hstep]; simp [Port.closingAt]), hstep]
    · rw [if_neg fun hm' => hm hm'.1] at hstep
      have hrt : (s.closeOpenPort m).rt = s.rt := congrArg (fun x => x.2.rt) (s.closeOpenPort_pwr_vlt m)
      rw [ih ((List.mem_cons.1 hp).resolve_left hm) (by rwa [hstep]), hstep, hrt]

/-- What sleep entry closes: every open stream port, then the request ports. -/
def State.closeForSleep (s : State) : State :=
  (List.finRange 4).foldl (fun s q => s.startRqpClose q) ((List.finRange 64).foldl State.closeOpenPort s)

theorem State.closeForSleep_keeps (s : State) : s.closeForSleep.pwr = s.pwr ∧ s.closeForSleep.vlt = s.vlt := by
  have hrqps := foldl_keeps (fun u : State => (u.pwr, u.vlt)) (fun s q => s.startRqpClose q)
    (fun u q => Prod.ext (u.closeGrant_only _ _).pwr (u.closeGrant_only _ _).vlt) (List.finRange 4)
    ((List.finRange 64).foldl State.closeOpenPort s)
  have hports := foldl_keeps (fun u : State => (u.pwr, u.vlt)) State.closeOpenPort (fun u p => u.closeOpenPort_pwr_vlt p)
    (List.finRange 64) s
  simp only [Prod.mk.injEq] at hrqps hports
  exact ⟨hrqps.1.trans hports.1, hrqps.2.trans hports.2⟩

theorem State.closeForSleep_port {s : State} {p : Fin 64} (h : s.ports[p].st = .opened) :
    s.closeForSleep.ports[p] = s.ports[p].closingAt s.rt := by
  have hports := foldl_keeps (fun u : State => u.ports) (fun s q => s.startRqpClose q) (fun u q => (u.closeGrant_only _ _).ports)
    (List.finRange 4) ((List.finRange 64).foldl State.closeOpenPort s)
  exact (congrArg (·[p]) hports).trans (foldl_closeOpenPort_port _ (List.mem_finRange p) h)

theorem State.stopUpdate_keeps (s : State) : s.stopUpdate.pwr = s.pwr ∧ s.stopUpdate.vlt = s.vlt ∧ s.stopUpdate.ports = s.ports := by
  unfold State.stopUpdate
  split
  · exact ⟨rfl, rfl, rfl⟩
  · simp

section SleepEntry

variable {s : State}

theorem execSleepEntry_begins (hv : s.pwr.vddv = true) (hcp : s.cpUp = true) (hrst : s.pwr.coreRst = false)
    (hin : s.pwr.entering = false) : ∃ u : State, (u.boot = s.boot ∧ u.vlt = s.vlt ∧ u.ports = s.ports
      ∧ u.pwr = { s.pwr with slpReq := true, entering := true })
      ∧ exec .sleepEntry s = .next (if s.isReady then u.stopUpdate.closeForSleep else u) := by
  have hgo : ¬((!s.pwr.vddv) = true ∨ (!s.cpUp) = true ∨ s.pwr.coreRst = true ∨ s.pwr.entering = true) := by
    simp [hv, hcp, hrst, hin]
  obtain ⟨y, hy⟩ : ∃ y, y = s.eachWing fun s w => s.rhlFault w 5 (unitName 9 0 .sl) := ⟨_, rfl⟩
  have hsame : y.boot = s.boot ∧ y.vlt = s.vlt ∧ y.ports = s.ports ∧ y.pwr = s.pwr := by
    rw [hy]
    simp [State.eachWing]
  obtain ⟨hboot, hvlt, hports, hpwr⟩ := hsame
  refine ⟨{ y with pwr := { y.pwr with slpReq := true, entering := true } }, ⟨hboot, hvlt, hports, by rw [hpwr]⟩, ?_⟩
  have hready : s.isReady = State.isReady { y with pwr := { y.pwr with slpReq := true, entering := true } } := by
    rw [State.isReady, State.isReady, hboot]
  show execSleepEntry s = _
  rw [execSleepEntry, if_neg hgo, hready, ← hy]
  exact (apply_ite Host.Outcome.next _ _ _).symm

theorem execSleepEntry_closes (hv : s.pwr.vddv = true) (hcp : s.cpUp = true) (hrst : s.pwr.coreRst = false)
    (hin : s.pwr.entering = false) : ∃ t, exec .sleepEntry s = .next t ∧ t.pwr = { s.pwr with slpReq := true, entering := true }
      ∧ t.vlt = s.vlt ∧ (s.boot.phase = .ready → ∀ p : Fin 64, s.ports[p].st = .opened →
        t.ports[p] = { s.ports[p] with st := .closing, closeAt := s.rt }) := by
  obtain ⟨u, ⟨-, hvlt, hports, hpwr⟩, hexec⟩ := execSleepEntry_begins hv hcp hrst hin
  obtain ⟨hpwr', hvlt', hports'⟩ := u.stopUpdate_keeps
  obtain ⟨hpwr'', hvlt''⟩ := u.stopUpdate.closeForSleep_keeps
  by_cases hready : s.boot.phase = .ready
  · have hr : s.isReady = true := decide_eq_true hready
    rw [if_pos hr] at hexec
    refine ⟨_, hexec, (hpwr''.trans hpwr').trans hpwr, (hvlt''.trans hvlt').trans hvlt, fun _ p hp => ?_⟩
    have hsame : u.stopUpdate.ports[p] = s.ports[p] := congrArg (·[p]) (hports'.trans hports)
    have hrt : u.stopUpdate.rt = s.rt := congrArg Vault.rt (hvlt'.trans hvlt)
    rw [State.closeForSleep_port (by rwa [hsame]), hsame, hrt]
    rfl
  · rw [if_neg (by simpa [State.isReady] using hready)] at hexec
    exact ⟨u, hexec, hpwr, hvlt, fun h => absurd h hready⟩

end SleepEntry

/-! ## Sleep entry ends (R420 steps 3 to 7) -/

theorem State.settleMap_keeps (s : State) (ch : Fin 8) :
    ((s.settleMap ch).pwr, (s.settleMap ch).vlt, (s.settleMap ch).boot, (s.settleMap ch).sl) = (s.pwr, s.vlt, s.boot, s.sl) := by
  unfold State.settleMap
  dsimp only
  split
  · split <;> rfl
  · rfl

/-- Step 3 answers commands: of the rest it changes whether its writing back has begun. -/
theorem State.sleepQueues_keeps (s : State) : ∃ b, s.sleepQueues.pwr = { s.pwr with saving := b } ∧ s.sleepQueues.vlt = s.vlt
    ∧ s.sleepQueues.sl = s.sl := by
  unfold State.sleepQueues
  split
  · have hfold := foldl_keeps (fun u : State => (u.pwr, u.vlt, u.boot, u.sl)) State.settleMap State.settleMap_keeps (List.finRange 8)
      { s with chans := s.chans.map Chan.shut, pwr := { s.pwr with saving := true } }
    simp only [Prod.mk.injEq] at hfold
    obtain ⟨hpwr, hvlt, -, hsl⟩ := hfold
    exact ⟨true, hpwr, hvlt, hsl⟩
  · exact ⟨s.pwr.saving, rfl, rfl, rfl⟩

theorem State.dropFailedRoots_keeps (s : State) : ∃ m, s.dropFailedRoots = s.modVlt fun v => { v with sram := m } := by
  unfold State.dropFailedRoots
  generalize List.finRange 64 = l
  induction l generalizing s with
  | nil => exact ⟨s.vlt.sram, rfl⟩
  | cons r l ih =>
    rw [List.foldl_cons]
    dsimp only
    split
    · obtain ⟨m, hm⟩ := ih (s.modVlt fun v => v.setRegionRec r.val [])
      exact ⟨m, by rw [hm, State.modVlt, State.modVlt, State.modVlt, Vault.setRegionRec]⟩
    · exact ih s

/-- What a state goes to sleep with (R420 steps 5 to 7): RT is kept where it is the time, and Prompt's time. -/
theorem State.toSleep_keeps {s : State} (hb : s.vlt.burn = none) :
    s.toSleep.pwr = { s.pwr with slpAck := true, entering := false, saving := false } ∧ s.toSleep.boot = {}
    ∧ (s.vlt.rtLive = true → s.toSleep.vlt.rtCopy = s.rt ∧ s.toSleep.vlt.vtCopy = s.vlt.vtimer)
    ∧ (s.vlt.rtLive = false → s.toSleep.vlt.rtCopy = s.vlt.rtCopy ∧ s.toSleep.vlt.vtCopy = s.vlt.vtCopy)
    ∧ s.toSleep.vlt.slots = [] ∧ s.toSleep.vlt.sess = [] ∧ s.toSleep.vlt.lc = s.vlt.lc
    ∧ s.toSleep.vlt.sleepTs = s.now .sl ∧ s.toSleep.vlt.sleepValid = decide (s.sl.prm.st ≠ .unset) := by
  obtain ⟨lc, hvlt, hlc⟩ := s.copyRt.coreReset_vlt
  obtain ⟨m, hm⟩ : ∃ m, s.toSleep.vlt = { s.copyRt.coreReset.vlt with
    sleepTs := s.now .sl, sleepValid := decide (s.sl.prm.st ≠ .unset), msBase := m } := ⟨_, rfl⟩
  refine ⟨congrArg (fun p : Power => { p with slpAck := true, entering := false }) s.copyRt.coreReset_pwr, rfl, ?_⟩
  rw [hm, hvlt]
  exact ⟨fun h => ⟨if_pos h, if_pos h⟩, fun h => ⟨if_neg (Bool.eq_false_iff.1 h), if_neg (Bool.eq_false_iff.1 h)⟩, rfl, rfl,
    hlc hb, rfl, rfl⟩

section SlpAck

variable {s : State}

/-- Sleep entry ends in the state that its third step has left, with the records of failed regions cleared (R420). -/
theorem execSlpAck_sleeps (hin : s.pwr.entering = true) (hend : s.boot.phase ≠ .ready ∨ s.sleepQueues.sleepReady = true) :
    ∃ (u : State) (b : Bool) (m : List Host.Cell), exec .slpAck s = .next u.toSleep ∧ u.pwr = { s.pwr with saving := b }
      ∧ u.vlt = { s.vlt with sram := m } ∧ u.sl = s.sl := by
  have hnot : ¬(!s.pwr.entering) = true := by simp [hin]
  by_cases hready : s.boot.phase = .ready
  · have hr : s.isReady = true := decide_eq_true hready
    have hdone : s.sleepQueues.sleepReady = true := hend.resolve_left (· hready)
    obtain ⟨b, hpwr, hvlt, hsl⟩ := s.sleepQueues_keeps
    obtain ⟨m, hm⟩ := s.sleepQueues.dropFailedRoots_keeps
    refine ⟨s.sleepQueues.dropFailedRoots, b, m, ?_, ?_, ?_, ?_⟩
    · refine (if_neg hnot).trans ((if_pos hr).trans ?_)
      exact congrArg Host.Outcome.next (if_pos hdone)
    · rw [hm]
      exact hpwr
    · rw [hm, ← hvlt]
      rfl
    · rw [hm]
      exact hsl
  · have hr : ¬s.isReady = true := by simpa [State.isReady] using hready
    exact ⟨s, s.pwr.saving, s.vlt.sram, (if_neg hnot).trans (if_neg hr), rfl, rfl, rfl⟩

theorem execSlpAck_keeps (hin : s.pwr.entering = true) (hend : s.boot.phase ≠ .ready ∨ s.sleepQueues.sleepReady = true)
    (hb : s.vlt.burn = none) : ∃ t, exec .slpAck s = .next t
      ∧ t.pwr = { s.pwr with slpAck := true, entering := false, saving := false } ∧ t.boot = {}
      ∧ (s.vlt.rtLive = true → t.vlt.rtCopy = s.rt ∧ t.vlt.vtCopy = s.vlt.vtimer)
      ∧ (s.vlt.rtLive = false → t.vlt.rtCopy = s.vlt.rtCopy ∧ t.vlt.vtCopy = s.vlt.vtCopy)
      ∧ t.vlt.slots = [] ∧ t.vlt.sess = [] ∧ t.vlt.lc = s.vlt.lc
      ∧ t.vlt.sleepTs = s.now .sl ∧ t.vlt.sleepValid = decide (s.sl.prm.st ≠ .unset) := by
  obtain ⟨u, b, m, hexec, hpwr, hvlt, hsl⟩ := execSlpAck_sleeps hin hend
  have hkeeps := State.toSleep_keeps (s := u) (by rw [hvlt]; exact hb)
  have hnow : u.now .sl = s.now .sl := congrArg (fun x : WingSt => tsOf x.prm.t x.prm.epoch) hsl
  rw [hnow, hsl, hpwr, State.rt, hvlt] at hkeeps
  exact ⟨u.toSleep, hexec, hkeeps⟩

end SlpAck

/-- Settles O50: the reset of the VDDC domain, its causes, the supplies' events, and both ends of sleep entry. -/
theorem powerEvents : Obligations.PowerEvents := by
  unfold Obligations.PowerEvents
  refine ⟨fun s t => State.coreReset_leaves, fun s => ?resets, fun s t => ?supplies, fun s => ?sleep⟩
  case resets =>
    exact ⟨execCoreRstN_resets, execCoreRstN_pin, execResetHold_ends, execVddcLoss_unwatched, execVddcLoss_watched,
      execVddvLoss_keeps s⟩
  case supplies =>
    refine ⟨execSupplyExcursion_vddc, execSupplyExcursion_vddc_unwatched, execSupplyExcursion_vddv_above,
      execSupplyExcursion_vddv_below, fun u hu hh _ => execSupplyExcursion_vddh hu hh, execSupplyPresent_vddc, ?dry, ?dipped, rfl, ?vddh⟩
    case dry =>
      intro hv hdip ht
      rw [execSupplyPresent_vddv hv ht, State.answerDip_none (by rw [ht]; exact hdip)]
    case dipped =>
      intro c hv hdip ht
      rw [execSupplyPresent_vddv hv rfl, State.answerDip_some (c := c) (by exact hdip), ← ht]
    case vddh =>
      rintro rfl
      rfl
  case sleep => exact ⟨execSleepEntry_closes, execSlpAck_keeps⟩

end Sys2Proof.Machine
end
